-- ==== Sys2Proof/Word.lean ====
section
/-! DEFINITION. The word types of the machine and their plainest arithmetic (00_scope.md R4, R5). -/
namespace Sys2Proof

/-- A 64-bit register or slot word. -/
abbrev Word := BitVec 64
/-- One byte. -/
abbrev Byte := BitVec 8
/-- A 256-byte tile row, port vector or stream vector, byte 0 in bits 7..0 (R4). -/
abbrev Row := BitVec 2048

end Sys2Proof
end

