-- ==== Sys2Proof/Config.lean ====
section
/-! DEFINITION. What an implementation or the world fixes, and the values the specification leaves open. An opaque
function has no value here: a statement about it holds for every value. -/
namespace Sys2Proof.Config

/-- Open values of a width, drawn with a counter of the state (log 5). -/
opaque freeValue : (w : Nat) → Nat → BitVec w

/-- The module's own 12-bit number in its group (18_group_clock_col.md R457; log 4). -/
opaque moduleNumber : BitVec 12

/-- The 128-bit AES-GCM tag of a fabric packet under a key, of its header and payload (17_fabric_watermarks.md R430,
R450; log 7). -/
opaque packetTag : (key : Nat) → List Nat → List (BitVec 8) → Nat

/-- The tag of a control datagram under the session key (19_host_boot_power.md R472; log 7). -/
opaque datagramTag : (key : Nat) → List Nat → List (BitVec 8) → Nat

/-- The tag of a clock notice under the group key (18_group_clock_col.md R458; log 7). -/
opaque noticeTag : (key : Nat) → List Nat → Nat

/-- SHAKE256 of bytes, 512 bits (19_host_boot_power.md R475, R477; log 7). -/
opaque shake256 : List (BitVec 8) → Nat

/-- An XMSS signature verifies under the root key burnt into the part (19_host_boot_power.md R475; log 7). -/
opaque xmssVerify : List (BitVec 8) → List (BitVec 8) → Bool

/-- The attestation signature of a report made with signature index `n` (19_host_boot_power.md R477; log 7). -/
opaque xmssSign : (n : Nat) → List (BitVec 8) → List (BitVec 8)

/-- The key that a wrapped form gives under the module's own device key, which is fixed (17_fabric_watermarks.md R450,
19_host_boot_power.md R477; log 7). -/
opaque unwrapKey : List (BitVec 8) → Option Nat

/-- HKID's revision byte (19_host_boot_power.md R481). -/
opaque revision : BitVec 8

end Sys2Proof.Config
end

