-- ==== Sys2Proof/Syntax.lean ====
section
/-! DEFINITION. The syntax of the machine: the fields of the slot words (03_bundle_encoding.md R96 to R101,
08_coprocessor_instructions.md R246), the messages the events carry, and the instructions themselves.
A slot word's fields stay the bits the word holds; what a field means is said by the instruction that uses it. -/
namespace Sys2Proof

/-- A scalar slot word (R96, R97). -/
structure SF where
  path : BitVec 3
  pipe : BitVec 1
  beats : BitVec 5
  ws : BitVec 1
  dst : BitVec 6
  sa : BitVec 6
  sb : BitVec 6
  imm : BitVec 29
  deriving DecidableEq, Repr

/-- A vector slot word (R96, R98); `v1` is the slot it stands in: V0 or V1. -/
structure VF where
  v1 : Bool
  path : BitVec 3
  pipe : BitVec 1
  beats : BitVec 5
  ws : BitVec 1
  ty : BitVec 4
  dst : BitVec 6
  sa : BitVec 6
  sb : BitVec 6
  sc : BitVec 6
  row : BitVec 7
  step : BitVec 4
  rm : BitVec 3
  opx : BitVec 5
  deriving DecidableEq, Repr

/-- A decoupled slot word (R96, R101); `c1` is the slot of a copy word: C0 or C1 (false in a matrix word). -/
structure DF where
  c1 : Bool
  path : BitVec 3
  pipe : BitVec 1
  beats : BitVec 5
  gneg : BitVec 1
  gpred : BitVec 4
  acq : BitVec 1
  rel : BitVec 1
  scope : BitVec 3
  cmd : BitVec 38
  deriving DecidableEq, Repr

/-- A COP word (R109, R246): its function code is the constructor of `Instr`, its WS field is reserved. -/
structure CF where
  path : BitVec 3
  pipe : BitVec 1
  beats : BitVec 5
  dst : BitVec 6
  sa : BitVec 6
  sb : BitVec 6
  fields : BitVec 22
  deriving DecidableEq, Repr

/-- A fabric packet or message (17_fabric_watermarks.md R430, R432): its header fields, its payload and its tag. -/
structure Packet where
  ty : Nat
  aop : Nat
  sz64 : Bool
  hasWm : Bool
  nwm : Nat
  dest : Nat
  origin : Nat
  unit : Nat
  hops : Nat
  job : Nat
  addr : Nat
  ownWm : Nat
  c0 : Nat
  c1 : Nat
  seq : Nat
  opb : Nat
  expd : Nat
  ctr : Nat
  payload : List Byte
  tag : Nat
  port : Nat                 -- the port by which it has come; 16 for none
  deriving DecidableEq, Repr

/-- One end's view of a link (17_fabric_watermarks.md R452). -/
structure LinkView where
  mod : Nat
  port : Nat
  speed : Nat
  width : Nat
  lanes : Nat
  valid : Bool
  deriving DecidableEq, Repr

/-- A training record of a fabric link: its 64 bytes (17_fabric_watermarks.md R452). -/
structure TrainRec where
  bytes : List Byte
  deriving DecidableEq, Repr

/-- A notice or SYNC flit of the clock agreement, or another flit of its channel (18_group_clock_col.md R457); `port` is where it
arrives. -/
structure ColMsg where
  port : Nat
  ty : Nat
  code : Nat
  subj : Nat
  origin : Nat
  hops : Nat
  tick : Nat
  seq : Nat
  count : Nat
  t1 : Nat
  t2 : Nat
  t3 : Nat
  ctr : Nat
  tag : Nat
  deriving DecidableEq, Repr

/-- A control datagram: the fields of its header, its payload and its tag (19_host_boot_power.md R472). `dir` is byte 3 of the
header, `job` its bytes 8 to 11, `len` its bytes 12 to 15 and `zero` its bytes 24 to 31. -/
structure Datagram where
  magic : Nat
  ty : Nat
  dir : Nat
  seq : Nat
  job : Nat
  len : Nat
  correl : Nat
  zero : Nat
  payload : List Byte
  tag : Nat
  deriving DecidableEq, Repr

/-- What the power and thermal sensors show: the input in 10 mV, the power in W, the junction, outlet and inlet temperatures in °C, and
for each ceiling code from 0 the power and the junction temperature projected for it, 100 µs ahead (18_group_clock_col.md R461,
19_host_boot_power.md R479 to R481). -/
structure Sensors where
  input : Nat
  power : Nat
  junction : Nat
  outlet : Nat
  inlet : Nat
  proj : List (Nat × Nat)
  deriving DecidableEq, Repr


/-- What an RDMA access names itself by: the Ethernet port and the queue pair it comes by, and the job of its space
(19_host_boot_power.md R471). -/
structure RdmaKey where
  port : Nat
  qp : Nat
  job : Nat
  deriving DecidableEq, Repr

/-- One constructor per row of spec/opcode_table.json: operations of the slots and events of the
machine. The constructors without fields stand last, since the Lean runtime bounds the place of those that have fields. -/
inductive Instr where
  /-- BUNDLE_ISSUE (R88): The sequencer decodes and issues one bundle (or one repetition of it) in an issue cycle, committing its commit units in order. -/
  | bundleIssue (c : Nat)
  /-- LOCKSTEP_RESULT_LAND (R90): A lockstep operation's result, latch and predicate writes become visible at the end of its L-th issue cycle. -/
  | lockstepResultLand (c : Nat)
  /-- LOAD_LAND (R161): The value of an LD or ATOM lands asynchronously in sd, and any requested semaphore is incremented. -/
  | loadLand (c k : Nat)
  /-- COP_REPLY_LAND (R109): A coprocessor reply arrives and is written to DST and to the S latch, with any tile rows and predicate it carries. -/
  | copReplyLand (c k : Nat)
  /-- COMMAND_START (R368): A decoupled command at the head of its queue starts once its engine, guard, store, acquire and claim conditions hold. -/
  | commandStart (c q : Nat)
  /-- COMMAND_RETIRE (R212): A command retires once its writes are performed at core scope (or at SCOPE with REL), giving its completion signal and setting its flags. -/
  | commandRetire (c q k : Nat)
  /-- MRUN_PANEL_READY (R226): A waiting MRUN or MRUNS proceeds with a panel once Ready holds on its rings, then runs its K-blocks and pops. -/
  | mrunPanelReady (c n : Nat)
  /-- COPY_GRANULE_COMPLETE (R372): A 256-byte copy granule completes its memory side and is written, counting into its ring slot or byte barrier. -/
  | copyGranuleComplete (c q k g : Nat)
  /-- RAS_REFILL (R139): After a pop leaves spilled return addresses, the core refills the on-chip store in the background from the spill area or HBM. -/
  | rasRefill (c : Nat)
  /-- TRAP_ENTRY (R282): Once drains complete, a restartable trap writes the sequencer record into a trap frame, pushes a trap-return entry and enters the handler. -/
  | trapEntry (c : Nat)
  /-- TRAP_RETURN (R284): A RET popping a trap-return entry waits for commands to retire, reads the frame, restores pipes, requeues suspended commands and re-enters. -/
  | trapReturn (c : Nat)
  /-- PREEMPTION_REQUEST (R362): The slice sets PREQ on a chosen core running a greater class, reserves a save slot and starts the DEADLINE countdown. -/
  | preemptionRequest (c slot : Nat)
  /-- DEADLINE_EXPIRY (R287): The pre-emption countdown reaches zero, or DEADLINE is 0, and a forced save with cause 0x22 is taken. -/
  | deadlineExpiry (c : Nat)
  /-- FORCED_SAVE (R288): The forced save splits the bundle, drains, writes the save image to the reserved slot, and continues at DISPRET. -/
  | forcedSave (c : Nat)
  /-- COOPERATIVE_SAVE (R145): After a YIELD that saw PREQ and once all commands have retired, the context is saved with RESUME 0 and the core continues at DISPRET. -/
  | cooperativeSave (c : Nat)
  /-- RESTORE (R291): The scheduler loads a save image into a compatible core, re-translates and pins handles, and performs the trap-return steps. -/
  | restore (c k : Nat)
  /-- HANG_WATCHDOG_EXPIRY (R292): The no-progress count reaches HANGLIM and raises cause 0x0C against the stalled slot. -/
  | hangWatchdogExpiry (c : Nat)
  /-- FATAL_CONTEXT_ERROR (R293): A fatal cause stops issue, discards and abandons commands, writes CAUSE, releases handles and hands a fault stamp to the scheduler. -/
  | fatalContextError (c : Nat)
  /-- TASK_COMPLETE (R146): After TEND's waits and module-scope performance, the core reports the task complete, clears PREQ, ends any block and continues at DISPRET. -/
  | taskComplete (c : Nat)
  /-- TASK_HANDOFF (R351): The slice hands a waiting core the first item it is entitled to, preloading s24 to s31 and performing the task start. -/
  | taskHandoff (c : Nat)
  /-- TIMED_BLOCK_LAUNCH (R356): A ready timed-block node is handed to a core at its launch tick, opening the block as BLOCK would. -/
  | timedBlockLaunch (c job node : Nat)
  /-- NODE_RETIRE (R349): A node retires and decrements its successors, making ready or skipping those whose count reaches zero. -/
  | nodeRetire (job node : Nat)
  /-- BRANCH_NODE_DECIDE (R358): A ready if, while or switch node reads its condition word and takes or skips its successors. -/
  | branchNodeDecide (job node : Nat)
  /-- HOST_SIGNAL_NODE (R361): A ready host-signal node sends the host an event with VALUE and waits for a retire or cancel reply. -/
  | hostSignalNode (job node : Nat)
  /-- PAGE_WALK (R305): A background walk of the four-level page table completes, filling the translation cache or starting fault service. -/
  | pageWalk (k : Nat)
  /-- FAULT_SERVICE (R309): A mapped non-resident leaf is made resident by hardware from a free frame, or by the host through an event. -/
  | faultService (k : Nat)
  /-- MIGRATION (R313): The migration engine marks a page, copies it to a frame on the requesting die, rewrites the leaf and quarantines the old frame. -/
  | migration (job va die : Nat)
  /-- MIGRATION_THRESHOLD (R312): A die's access counter for a region reaches MIGTHRESH and migration starts or an event goes to the host. -/
  | migrationThreshold (job va die : Nat)
  /-- PATROL_SCRUB (R317): The patrol scrubber reads HBM blocks, correcting them or poisoning uncorrectable ones and logging them. -/
  | patrolScrub (die addr : Nat)
  /-- VAT_REFILL (R388): A vat below 256 on-chip records with spilled records is refilled from the head of its spilled run. -/
  | vatRefill (v : Nat)
  /-- SPILL_REQUEST (R389): For host-mode jobs the unit sends a spill event and applies the host's reply pairs as spill steps. -/
  | spillRequest (job : Nat)
  /-- PACKET_ACCEPT (R435): A destination accepts and ACKs an arriving FST, FATOM or FRED packet and holds it on its carried watermarks. -/
  | packetAccept (port : Nat) (p : Packet)
  /-- PACKET_COMMIT (R435): Once released, a packet's parts are translated, ordered and performed at module scope, and its watermark lands. -/
  | packetCommit (k : Nat)
  /-- PACKET_FORWARD (R427): A router forwards a packet by its route entry, incrementing HOPS, or drops it with NOTICE reason 1. -/
  | packetForward (port : Nat) (p : Packet)
  /-- ACK (R432): An ACK reaches the origin and frees the acknowledged packet from the retransmit region. -/
  | ack (p : Packet)
  /-- NACK (R434): A NACK reaches the origin, which schedules a retransmission with back-off. -/
  | nack (p : Packet)
  /-- LANDED (R440): A LANDED message marks the origin slot landed and enters the watermark in the committing module's cache. -/
  | landed (p : Packet)
  /-- QUERY (R440): A QUERY reaches the origin, which answers landed or void, or defers or answers wait. -/
  | query (p : Packet)
  /-- RELEASE (R440): A RELEASE answer reaches the querier and enters the watermark's outcome in its cache. -/
  | release (p : Packet)
  /-- NOTICE (R436): A NOTICE reaches the origin, voiding a watermark and passing the cause to the issuing context, or settling an abandoned number. -/
  | notice (p : Packet)
  /-- FEC_UNCORRECTABLE (R429): A codeword that FEC cannot correct is discarded with its flits and the uncorrectable counter incremented. -/
  | fecUncorrectable (port : Nat)
  /-- TRAINING_RECORD (R453): A received training record commits the link when views and echoes agree, or logs a mismatch. -/
  | trainingRecord (port : Nat) (r : TrainRec)
  /-- SYNC (R456): A SYNC exchange on a link yields timestamps that correct the tick towards the parent and may set out of step. -/
  | sync (m : ColMsg)
  /-- CEIL (R462): A CEIL notice is applied and flooded, setting a member's pending ceiling with its effective tick. -/
  | ceil (m : ColMsg)
  /-- RAISE (R463): A RAISE notice is applied and flooded, and each other member floods a CONFIRM. -/
  | raise (m : ColMsg)
  /-- CONFIRM (R463): A CONFIRM reaches the raiser, which floods CEIL once every member has confirmed. -/
  | confirm (m : ColMsg)
  /-- JOIN (R467): A JOIN reaches the sponsor, which answers with membership and ceilings and later floods ADMIT. -/
  | join (m : ColMsg)
  /-- ADMIT (R467): An ADMIT notice makes the joiner a member from its effective tick. -/
  | admitted (m : ColMsg)
  /-- LEAVE (R468): A LEAVE notice opens a raise round, after which the module stops being a member. -/
  | leave (m : ColMsg)
  /-- SILENT (R465): A SILENT notice sets the silent member's ceiling to code 0 from the earliest effective tick. -/
  | silent (m : ColMsg)
  /-- EVICT (R466): An EVICT notice removes the silent member and opens a raise round. -/
  | evict (m : ColMsg)
  /-- PROTECTION_LIMIT_CHANGE (R464): A change of the protection limit announces a fall or rise, or drops the module alone when it must bite sooner. -/
  | protectionLimitChange (r : Sensors) (due : Nat)
  /-- LAUNCH (R343): A LAUNCH datagram checks the image and launch record, allocates semaphores and vats, creates contexts and starts cores. -/
  | launch (d : Datagram)
  /-- JOBEND (R473): A JOBEND datagram ends every context of the job, closes its vats and slots and frees its semaphores and frames. -/
  | jobend (d : Datagram)
  /-- INVAL (R307): An INVAL datagram invalidates an address range, waiting for pins, or force-unmaps it with kills. -/
  | inval (d : Datagram)
  /-- DISCARD (R315): A DISCARD datagram marks the frames of a range discarded. -/
  | discard (d : Datagram)
  /-- KEY (R450): A KEY datagram installs a wrapped job or group key with the job's expiry window. -/
  | key (d : Datagram)
  /-- ROUTE (R427): A ROUTE datagram writes route-table entries. -/
  | route (d : Datagram)
  /-- KILL (R355): A KILL datagram ends a context with cause 0x13, reassigning its iterations and leases and voiding its watermarks. -/
  | kill (d : Datagram)
  /-- START (R521): A START datagram starts a context of the job on a core from its start-vector entry, or fails with a status. -/
  | start (d : Datagram)
  /-- REGRD (R481): A REGRD datagram returns a housekeeping register. -/
  | regrd (d : Datagram)
  /-- REGWR (R481): A REGWR datagram writes a housekeeping register that has no behaviour of its own. -/
  | regwr (d : Datagram)
  /-- PCAP_WRITE (R481): A write to PCAP stores the power cap clamped to 1,000 to 4,600 W. -/
  | pcapWrite (d : Datagram)
  /-- HKDUTY_WRITE (R478): A write to HKDUTY sets the firmware context's duty split and the module's ceiling source. -/
  | hkdutyWrite (d : Datagram)
  /-- CERR_WRITE (R481): A write to a die's corrected-error counter clears the bits written as 1. -/
  | cerrWrite (d : Datagram)
  /-- HKSTAT_WRITE (R482): A write to HKSTAT clears THROT and ELOGNEW where written as 1. -/
  | hkstatWrite (d : Datagram)
  /-- REPLY (R474): A REPLY datagram answers a waiting event by its number, or is ignored if late or unmatched. -/
  | reply (d : Datagram)
  /-- ATTEST (R477): An ATTEST datagram returns a signed report of the nonce and the firmware and job measurements. -/
  | attest (d : Datagram)
  /-- IMAGE (R476): An IMAGE datagram carries part of a firmware image; the zero-length part triggers verification, flashing and restart. -/
  | image (d : Datagram)
  /-- CLOCK (R473): A CLOCK datagram makes the firmware context issue CLJOIN, CLLEAVE or CLCEIL and acknowledges with the reply. -/
  | clock (d : Datagram)
  /-- DATAGRAM_REORDER (R473): Host datagrams arriving ahead of a sequence gap are held, up to 64, and applied in SEQ order. -/
  | datagramReorder (d : Datagram)
  /-- RDMA_WRITE (R471): An RDMA write reaches job memory through the page table, completing with an error on unmapped, read-only or poisoned blocks. -/
  | rdmaWrite (key : RdmaKey) (va : Nat) (data : List Byte)
  /-- RDMA_READ (R471): An RDMA read returns job memory, completing with an error on unmapped or poisoned blocks. -/
  | rdmaRead (key : RdmaKey) (va n : Nat)
  /-- TABLE_MISS (R425): A text or grammar table miss gives error TABLE or, in host mode, holds the unit until the host services it. -/
  | tableMiss (unit : Nat)
  /-- ADD (R128): Adds two scalar registers modulo 2^64. -/
  | add (f : SF)
  /-- SUB (R128): Subtracts two scalar registers modulo 2^64. -/
  | sub (f : SF)
  /-- AND (R128): Bitwise and of two scalar registers. -/
  | and (f : SF)
  /-- OR (R128): Bitwise or of two scalar registers. -/
  | or (f : SF)
  /-- XOR (R128): Bitwise exclusive or of two scalar registers. -/
  | xor (f : SF)
  /-- ANDN (R128): Bitwise a and not b. -/
  | andn (f : SF)
  /-- SHL (R128): Shifts left by b[5:0]. -/
  | shl (f : SF)
  /-- SHR (R128): Shifts right logically by b[5:0]. -/
  | shr (f : SF)
  /-- SAR (R128): Shifts right arithmetically by b[5:0]. -/
  | sar (f : SF)
  /-- ROL (R128): Rotates left by b[5:0]. -/
  | rol (f : SF)
  /-- MUL (R128): Low 64 bits of the product. -/
  | mul (f : SF)
  /-- MULH (R128): High 64 bits of the signed product. -/
  | mulh (f : SF)
  /-- MULHU (R128): High 64 bits of the unsigned product. -/
  | mulhu (f : SF)
  /-- DIV (R129): Signed quotient truncated towards zero, with defined corner cases. -/
  | div (f : SF)
  /-- DIVU (R129): Unsigned quotient, all ones on division by zero. -/
  | divu (f : SF)
  /-- REM (R129): Signed remainder with the sign of the dividend. -/
  | rem (f : SF)
  /-- REMU (R129): Unsigned remainder. -/
  | remu (f : SF)
  /-- MIN (R128): Signed minimum. -/
  | min (f : SF)
  /-- MAX (R128): Signed maximum. -/
  | max (f : SF)
  /-- MINU (R128): Unsigned minimum. -/
  | minu (f : SF)
  /-- MAXU (R128): Unsigned maximum. -/
  | maxu (f : SF)
  /-- CLZ (R128): Counts leading zero bits. -/
  | clz (f : SF)
  /-- CTZ (R128): Counts trailing zero bits. -/
  | ctz (f : SF)
  /-- POPC (R128): Counts one bits. -/
  | popc (f : SF)
  /-- SEXT (R130): Sign-extends the low 8, 16 or 32 bits. -/
  | sext (f : SF)
  /-- ZEXT (R130): Zero-extends the low 8, 16 or 32 bits. -/
  | zext (f : SF)
  /-- SEL (R130): Selects a or b by a predicate test without waiting on W. -/
  | sel (f : SF)
  /-- ADDI (R131): Adds a sign-extended 29-bit immediate. -/
  | addi (f : SF)
  /-- ANDI (R131): Ands a sign-extended immediate. -/
  | andi (f : SF)
  /-- ORI (R131): Ors a sign-extended immediate. -/
  | ori (f : SF)
  /-- XORI (R131): Xors a sign-extended immediate. -/
  | xori (f : SF)
  /-- SHLI (R131): Shifts left by an immediate. -/
  | shli (f : SF)
  /-- SHRI (R131): Shifts right logically by an immediate. -/
  | shri (f : SF)
  /-- SARI (R131): Shifts right arithmetically by an immediate. -/
  | sari (f : SF)
  /-- LDI (R131): Loads a sign-extended 32-bit immediate. -/
  | ldi (f : SF)
  /-- LDIH (R131): Places a 32-bit immediate above the low half of a. -/
  | ldih (f : SF)
  /-- CMPI (R132): Compares a register with an immediate and writes a predicate. -/
  | cmpi (f : SF)
  /-- CMP (R132): Compares two registers under a condition code and writes a predicate. -/
  | cmp (f : SF)
  /-- PAND (R134): Ands two predicate sources into pd. -/
  | pand (f : SF)
  /-- POR (R134): Ors two predicate sources into pd. -/
  | por (f : SF)
  /-- PXOR (R134): Xors two predicate sources into pd. -/
  | pxor (f : SF)
  /-- PNOT (R134): Writes the negation of a predicate source. -/
  | pnot (f : SF)
  /-- PSET (R134): Sets a predicate to a constant. -/
  | pset (f : SF)
  /-- PINV (R134): Clears a predicate's W bit. -/
  | pinv (f : SF)
  /-- JMPR (R137): Jumps to a register plus offset after the bundle's last issue. -/
  | jmpr (f : SF)
  /-- CALL (R137): Pushes the next bundle address and transfers to a relative target. -/
  | call (f : SF)
  /-- CALLR (R137): Pushes the next bundle address and jumps to a register plus offset. -/
  | callr (f : SF)
  /-- RET (R137): Pops the return-address store and transfers there, or performs a trap return. -/
  | ret (f : SF)
  /-- LOOP (R141): Sets a hardware loop counter with a trip count and end bundle. -/
  | loop (f : SF)
  /-- LOOPX (R142): Pops a row-pointer pair from a stream register and sets a loop over its span. -/
  | loopx (f : SF)
  /-- TRAP (R144): Commits and then takes a restartable trap with cause 0x23. -/
  | trap (f : SF)
  /-- YIELD (R145): Saves the context cooperatively if a pre-emption request was pending. -/
  | yield (f : SF)
  /-- TEND (R146): Ends the task once its commands have retired and its replies arrived. -/
  | tend (f : SF)
  /-- WAITTASK (R147): Waits until the scheduler hands the core a task. -/
  | waittask (f : SF)
  /-- GETS (R148): Reads a special register. -/
  | gets (f : SF)
  /-- SETS (R148): Writes a special register field by field. -/
  | sets (f : SF)
  /-- BLEND (R150): Binds a tile bank to a slot. -/
  | blend (f : SF)
  /-- TMIRROR (R152): Pairs two tile registers as mirrored copies, or unpairs them. -/
  | tmirror (f : SF)
  /-- PORTCFG (R153): Configures an operand port's direction, base and loops. -/
  | portcfg (f : SF)
  /-- RINGCFG (R154): Configures a ring's base, slot size and slot count. -/
  | ringcfg (f : SF)
  /-- LD (R158): Loads through a handle, landing asynchronously with an optional semaphore signal. -/
  | ld (f : SF)
  /-- ST (R158): Stores through a handle with an optional semaphore signal. -/
  | st (f : SF)
  /-- LDS (R163): Loads from the core's scratchpad. -/
  | lds (f : SF)
  /-- STS (R163): Stores to the core's scratchpad. -/
  | sts (f : SF)
  /-- ATOM (R160): Performs an indivisible read-modify-write through a handle and returns the old value. -/
  | atom (f : SF)
  /-- FENCE (R166): Waits until earlier accesses have landed or been performed at a scope. -/
  | fence (f : SF)
  /-- TRN (R168): Translates a virtual page into a handle in 48 cycles, starting a walk on a miss. -/
  | trn (f : SF)
  /-- HREL (R169): Releases one or all handles. -/
  | hrel (f : SF)
  /-- HINFO (R170): Returns a handle's visible fields. -/
  | hinfo (f : SF)
  /-- PROBE (R171): Waits for translation and fault service, trapping restartably on failure unless .nt. -/
  | probe (f : SF)
  /-- RAND (R172): Returns a 64-bit Philox word for a draw word. -/
  | rand (f : SF)
  /-- SEMSIG (R174): Increments a semaphore, optionally after a release. -/
  | semsig (f : SF)
  /-- SEMWAIT (R174): Waits until a semaphore holds a count and consumes it. -/
  | semwait (f : SF)
  /-- SEMSET (R174): Sets a semaphore's count. -/
  | semset (f : SF)
  /-- TASKQ (R175): Enqueues a dynamic tile-task record with an optional successor. -/
  | taskq (f : SF)
  /-- TCLAIM (R176): Claims the next ticket of a claim-mode loop nest. -/
  | tclaim (f : SF)
  /-- TWAIT (R177): Waits until the group tick reaches a value. -/
  | twait (f : SF)
  /-- BLOCK (R178): Waits on masked semaphores, ends any open timed block and opens a new one. -/
  | block (f : SF)
  /-- FST (R181): Hands a fabric store to the interface, optionally allocating and carrying watermarks. -/
  | fst (f : SF)
  /-- FATOM (R182): Hands a remote atomic to the fabric interface. -/
  | fatom (f : SF)
  /-- FRED (R181): Hands a reducing write for a window to the fabric interface. -/
  | fred (f : SF)
  /-- WMWAIT (R183): Waits until a watermark is known landed or void, bounded by the expiry window. -/
  | wmwait (f : SF)
  /-- WMTEST (R184): Tests a watermark without waiting, querying a remote origin if unknown. -/
  | wmtest (f : SF)
  /-- VADD (R194): Adds two rows lane by lane. -/
  | vadd (f : VF)
  /-- VSUB (R194): Subtracts two rows lane by lane. -/
  | vsub (f : VF)
  /-- VMUL (R194): Multiplies two rows lane by lane. -/
  | vmul (f : VF)
  /-- VFMA (R194): Fused multiply-add per lane. -/
  | vfma (f : VF)
  /-- VFMS (R194): Fused multiply-subtract per lane. -/
  | vfms (f : VF)
  /-- VMAX (R194): Lane maximum. -/
  | vmax (f : VF)
  /-- VMIN (R194): Lane minimum. -/
  | vmin (f : VF)
  /-- VABS (R194): Lane absolute value. -/
  | vabs (f : VF)
  /-- VNEG (R194): Lane negation. -/
  | vneg (f : VF)
  /-- VRCP (R195): Approximate reciprocal per lane. -/
  | vrcp (f : VF)
  /-- VRSQ (R195): Approximate reciprocal square root per lane. -/
  | vrsq (f : VF)
  /-- VEXP2 (R195): Base-2 exponential per lane. -/
  | vexp2 (f : VF)
  /-- VLOG2 (R195): Base-2 logarithm per lane. -/
  | vlog2 (f : VF)
  /-- VAND (R196): Bitwise and of two rows. -/
  | vand (f : VF)
  /-- VOR (R196): Bitwise or of two rows. -/
  | vor (f : VF)
  /-- VXOR (R196): Bitwise xor of two rows. -/
  | vxor (f : VF)
  /-- VSHL (R196): Per-lane shift left. -/
  | vshl (f : VF)
  /-- VSHR (R196): Per-lane logical shift right. -/
  | vshr (f : VF)
  /-- VSAR (R196): Per-lane arithmetic shift right. -/
  | vsar (f : VF)
  /-- VCMP (R197): Per-lane compare writing all-ones or zeros. -/
  | vcmp (f : VF)
  /-- VSEL (R198): Per-lane select by a mask row. -/
  | vsel (f : VF)
  /-- VTEST (R199): Writes a predicate from any or all lanes set. -/
  | vtest (f : VF)
  /-- VCVT (R200): Converts a row between element types, narrowing with a merge or widening one part. -/
  | vcvt (f : VF)
  /-- VQMX (R201): Quantises a row into MX elements or scales. -/
  | vqmx (f : VF)
  /-- VDQMX (R202): Expands MX elements with their scales to a wider type. -/
  | vdqmx (f : VF)
  /-- VPACK (R203): Packs byte containers into sub-byte lanes. -/
  | vpack (f : VF)
  /-- VUNPACK (R203): Unpacks sub-byte lanes into bytes. -/
  | vunpack (f : VF)
  /-- VRSUM (R204): Sums a row by the fixed pairwise tree. -/
  | vrsum (f : VF)
  /-- VRMAX (R204): Reduces a row to its maximum. -/
  | vrmax (f : VF)
  /-- VRMIN (R204): Reduces a row to its minimum. -/
  | vrmin (f : VF)
  /-- VARGMAX (R204): Writes the winning lane number of a row's maximum. -/
  | vargmax (f : VF)
  /-- VSCAN (R204): Inclusive prefix sum of a row. -/
  | vscan (f : VF)
  /-- VBCAST (R205): Broadcasts one lane to all lanes. -/
  | vbcast (f : VF)
  /-- VSHUF (R206): Shuffles lanes by an index row. -/
  | vshuf (f : VF)
  /-- VROT (R205): Rotates lanes towards lane 0. -/
  | vrot (f : VF)
  /-- VCOMPRESS (R207): Compresses selected lanes to the front and zero-fills. -/
  | vcompress (f : VF)
  /-- VMOV (R208): Copies a row unchanged. -/
  | vmov (f : VF)
  /-- VRAND (R209): Fills a row with Philox words or uniform FP32 values. -/
  | vrand (f : VF)
  /-- MMOULD (R223): Loads and validates a mould slot, optionally across the cluster. -/
  | mmould (f : DF)
  /-- MFLOW (R224): Sets the matrix flow pattern and skew. -/
  | mflow (f : DF)
  /-- MINIT (R225): Writes the mould's identity into accumulators. -/
  | minit (f : DF)
  /-- MRUN (R226): Runs dense semiring accumulation over ring panels, or the wavefront recurrence. -/
  | mrun (f : DF)
  /-- MRUNS (R229): Runs N:M sparse accumulation over ring panels with metadata. -/
  | mruns (f : DF)
  /-- MDRAIN (R230): Converts accumulator rows and writes them to scratchpad or a tile. -/
  | mdrain (f : DF)
  /-- MSAVE (R231): Saves accumulators to scratchpad in logical row order. -/
  | msave (f : DF)
  /-- MREST (R231): Restores accumulators from scratchpad. -/
  | mrest (f : DF)
  /-- MPOP (R232): Waits for and pops ring slots. -/
  | mpop (f : DF)
  /-- MWAIT (R240): Waits in the matrix queue for a condition and optionally signals. -/
  | mwait (f : DF)
  /-- CPY (R235): Copies a multi-dimensional block with optional conversion. -/
  | cpy (f : DF)
  /-- CPYT (R237): Copies a matrix transposed. -/
  | cpyt (f : DF)
  /-- CGATH (R238): Gathers table rows by index with deduplication and optional pooling and zero-fill. -/
  | cgath (f : DF)
  /-- CSCAT (R239): Scatters rows to indexed destinations. -/
  | cscat (f : DF)
  /-- CBIND (R241): Binds a stream register to a copy. -/
  | cbind (f : DF)
  /-- CRING (R242): Claims a ring slot, local or remote, and delivers into it. -/
  | cring (f : DF)
  /-- CBCAST (R243): Writes the same bytes into the scratchpads of cluster cores. -/
  | cbcast (f : DF)
  /-- CFILL (R244): Fills a destination with a 64-bit pattern. -/
  | cfill (f : DF)
  /-- CARM (R245): Arms a byte barrier's target and clears its count. -/
  | carm (f : DF)
  /-- CWAIT (R240): Waits in a copy queue for a condition and optionally signals. -/
  | cwait (f : DF)
  /-- VTCFG (R252): Opens or reconfigures a vat. -/
  | vtcfg (f : CF)
  /-- VTENQ (R253): Appends a token record to a vat. -/
  | vtenq (f : CF)
  /-- VTFIRE (R254): Forces an open vat ready for firing. -/
  | vtfire (f : CF)
  /-- VTSTAT (R255): Returns a vat's state, fill, spill and age. -/
  | vtstat (f : CF)
  /-- VTCLOSE (R256): Closes a vat by discarding or draining its records. -/
  | vtclose (f : CF)
  /-- CBSET (R257): Arms a combine slot with a row, count and completion target. -/
  | cbset (f : CF)
  /-- CBPUT (R258): Delivers a ranked partial to a combine slot, combining when complete. -/
  | cbput (f : CF)
  /-- CBSTAT (R259): Returns a combine slot's state. -/
  | cbstat (f : CF)
  /-- TXNORM (R416): Normalises UTF-8 text through a normalisation table. -/
  | txnorm (f : CF)
  /-- TXENC (R418): Encodes bytes to tokens by ranked pair merging. -/
  | txenc (f : CF)
  /-- TXDEC (R419): Writes the bytes of tokens. -/
  | txdec (f : CF)
  /-- GRLOAD (R263): Binds, rebinds or unbinds a grammar sequence entry. -/
  | grload (f : CF)
  /-- GRADV (R264): Advances a grammar entry by one token. -/
  | gradv (f : CF)
  /-- GRMASK (R265): Writes the admitted-token bitmask into tile rows and a dead predicate. -/
  | grmask (f : CF)
  /-- GRSTAT (R264): Returns a grammar entry's status word. -/
  | grstat (f : CF)
  /-- STOPSET (R266): Replaces an entry's stop strings and clears its stopped state. -/
  | stopset (f : CF)
  /-- STOPCHK (R267): Scans a token's bytes against the stop strings. -/
  | stopchk (f : CF)
  /-- CLJOIN (R467): Joins or founds a group through a sponsor. -/
  | cljoin (f : CF)
  /-- CLLEAVE (R468): Leaves the group at an agreed tick. -/
  | clleave (f : CF)
  /-- CLSTAT (R270): Returns membership and ceiling status. -/
  | clstat (f : CF)
  /-- CLCEIL (R269): Sets the module's host-assisted ceiling source. -/
  | clceil (f : CF)
  /-- FWIN (R271): Opens a reduction window for fabric contributions. -/
  | fwin (f : CF)
  /-- FWSTAT (R273): Returns a reduction window's state and arrivals. -/
  | fwstat (f : CF)
  /-- FWCLOSE (R273): Closes a window, poisoning it if still open. -/
  | fwclose (f : CF)
  /-- STORE_PERFORMED (R161): An ST is performed at module scope, and any semaphore it names is incremented. -/
  | storePerformed (c k : Nat)
  /-- FABRIC_PAYLOAD_READ (R181): The fabric interface finishes reading a handed-off descriptor and payload, increments semk and sends the packet on its virtual channel. -/
  | fabricPayloadRead (c k : Nat)
  /-- FRED_LAUNCH_TICK (R181): A FRED with a non-zero launch tick leaves the origin when GTICK reaches that tick, setting SW.LATE if the module is out of step. -/
  | fredLaunchTick (c : Nat)
  /-- LINK_DOWN (R454): A fabric link goes down, its packets are held in the port buffers, and training records start going out. -/
  | linkDown (port : Nat)
  /-- ETHERNET_LINK_CHANGE (R474): Ethernet port 0 goes down or comes back, which moves event datagrams between port 0 and port 1. -/
  | ethernetLinkChange (port : Nat) (up : Bool)
  /-- FAULT_STAMP_SPREAD (R363): On a fatal end other than a kill, the scheduler freezes the job, cancels the node and spreads the stamp along successor lists. -/
  | faultStampSpread
  /-- JOB_COMPLETE (R365): When every node and record is settled, the scheduler writes back the table and sends a job-complete event. -/
  | jobComplete
  /-- HOST_REPLY_TIMEOUT (R474): An event awaiting a reply reaches HOSTTMO and the module acts as for no reply. -/
  | hostReplyTimeout
  /-- ACCESS_COUNTER_HALVING (R311): Every 2^20 ticks the per-region access counters are halved. -/
  | accessCounterHalving
  /-- QSEQ_ADVANCE (R314): Every 1,024 ticks QSEQ advances, and quarantined frames whose stamp OLDEST has passed are zeroed and released. -/
  | qseqAdvance
  /-- FIRING_DECISION (R394): At most every 4 ticks the vat unit takes the first ready vat, writes its firing list and creates a firing task. -/
  | firingDecision
  /-- VAT_SPILL_STEP (R387): While the pool is low, every 64 ticks the unit moves up to 32 of a victim vat's youngest records to the spill region. -/
  | vatSpillStep
  /-- REMOTE_ENQUEUE (R384): A committed FST part to a vat page's enqueue slots is checked and accepted or dropped as a record. -/
  | remoteEnqueue
  /-- REMOTE_PUT (R396): A committed FST part to the put window applies as a CBPUT from the packet's job, or is dropped with a host event. -/
  | remotePut
  /-- HOLD_RELEASE (R441): A held packet leaves the hold once its last carried watermark becomes known landed. -/
  | holdRelease
  /-- HOLD_DROP_VOID (R442): A held packet whose carried watermark is void is dropped, its own watermark voided, and NOTICE reason 5 sent. -/
  | holdDropVoid
  /-- WINDOW_TIMEOUT (R449): A window still open at its timeout is poisoned and its opener receives cause 0x12. -/
  | windowTimeout
  /-- RETRANSMIT_TIMEOUT (R433): An unacknowledged packet is retransmitted 100 µs after its last transmission or after its NACK back-off. -/
  | retransmitTimeout
  /-- PACKET_ABANDON (R433): A packet unacknowledged past the expiry window is abandoned, its watermark voided, cause 0x0E detail 3 raised and a reason-7 NOTICE sent. -/
  | packetAbandon
  /-- HOLD_EXPIRY (R443): A packet held for E ticks is dropped, its watermark voided and NOTICE reason 6 sent. -/
  | holdExpiry
  /-- ORIGIN_SLOT_EXPIRY (R443): An origin slot pending for E ticks becomes void and its allocating context receives cause 0x0E detail 4. -/
  | originSlotExpiry
  /-- WATERMARK_SLOT_FREE (R439): A landed origin slot returns to free 1 ms after landing. -/
  | watermarkSlotFree
  /-- QUERY_RESEND (R440): Every 100 µs an unanswered QUERY for a still-needed watermark is sent again. -/
  | queryResend
  /-- SETTLED_CACHE_EXPIRY (R440): A settled-watermark cache entry leaves the cache 500 µs after entry. -/
  | settledCacheExpiry
  /-- RETRAIN_TIMER (R454): A down link retrains after its retry interval, re-measuring lanes or asking the host. -/
  | retrainTimer
  /-- HEARTBEAT_TIMER (R465): Every 20 µs a member floods a CEIL heartbeat. -/
  | heartbeatTimer
  /-- SILENCE_TIMEOUT (R465): No notice from a member for 70 µs makes it silent and floods SILENT. -/
  | silenceTimeout
  /-- EVICTION_TIMEOUT (R466): 1 ms after the earliest SILENT tick the lowest non-silent member floods EVICT. -/
  | evictionTimeout
  /-- CONFIRMATION_RETRY (R463): A raiser missing a CONFIRM sends RAISE again after 200 µs. -/
  | confirmationRetry
  /-- JOIN_TIMEOUT (R467): A join not admitted within 10 ms ends with error GROUP. -/
  | joinTimeout
  /-- CEILING_EFFECTIVE (R460): At a pending ceiling's effective tick it takes effect and members switch clock within the switch window. -/
  | ceilingEffective
  /-- POWER_ON (R475): At power-on the boot ROM measures and verifies the firmware image and runs it or awaits a new one. -/
  | powerOn
  /-- POWER_OFF (R479): Input voltage or junction temperature outside limits powers the module off, losing all state. -/
  | powerOff
  /-- WMWAIT_EXPIRY (R183): A WMWAIT that has waited the expiry window E without learning the watermark's outcome raises cause 0x0E with detail 5. -/
  | wmwaitExpiry
  /-- ABANDON_NOTICE_RESEND (R519): Every 100 µs the origin re-sends an unacknowledged reason-7 NOTICE for an abandoned sequence number. -/
  | abandonNoticeResend
  /-- STREAM_IDLE_EXPIRY (R433): A destination forgets a stream's accepted count once the stream has been idle for the expiry window plus 1 ms. -/
  | streamIdleExpiry
  /-- OUT_OF_STEP_TIMEOUT (R456): A member whose parent link has stayed down for 100 µs becomes out of step. -/
  | outOfStepTimeout
  deriving DecidableEq, Repr

end Sys2Proof
end

