-- ==== Sys2Proof/WellFormed.lean ====
section
/-! DEFINITION. Which slot words are instructions (03_bundle_encoding.md R95 to R101, R114, with the field rules of the
instruction chapters), as far as one word alone decides it; what the core type and the rest of the bundle decide
stands in `Instr.onKind` here and in Decode.lean. -/
namespace Sys2Proof

/-- The types of core (00_scope.md R2, R3). -/
inductive CoreKind where
  | main
  | lookup
  | house
  deriving DecidableEq, Repr

/-- Every bit of `x` outside `mask` is zero: unused bits are reserved (R114). -/
def onlyBits {n : Nat} (x : BitVec n) (mask : Nat) : Bool := (x &&& ~~~(BitVec.ofNat n mask)) == 0

/-- The beat count a word asks for; 0 encodes 32 (R96). -/
def beatsOf (b : BitVec 5) : Nat := if b = 0 then 32 else b.toNat

/-- Scalar source codes: s0 to s31, b4 and b5 (R97). -/
def scalarSrcOk (c : BitVec 6) : Bool := c < 32 || c == 36 || c == 37

/-- The common checks of a scalar word that uses DST (`d`), SA (`a`), SB (`b`) and the IMM bits of `mask` (R97):
an unused field is zero, and with WS = 1 the destination field is reserved. -/
def SF.ok (f : SF) (d a b : Bool) (mask : Nat) (minBeats : Nat := 1) : Bool :=
  f.path ≤ 5 && minBeats ≤ beatsOf f.beats &&
  (if d && f.ws == 0 then f.dst < 32 else f.dst == 0) &&
  (if a then scalarSrcOk f.sa else f.sa == 0) &&
  (if b then scalarSrcOk f.sb else f.sb == 0) &&
  onlyBits f.imm mask

/-- The common checks of a COP word (R246): operand b is used or reserved, FIELDS holds only the bits of `mask`. -/
def CF.ok (f : CF) (b : Bool) (mask : Nat) : Bool :=
  f.path ≤ 5 && f.dst < 32 && scalarSrcOk f.sa && (if b then scalarSrcOk f.sb else f.sb == 0) && onlyBits f.fields mask

/-- The common checks of a decoupled word (R101): SCOPE is a scope, and reserved without ACQ and REL. -/
def DF.ok (f : DF) (mask : Nat) : Bool :=
  f.path ≤ 5 && (if f.acq == 0 && f.rel == 0 then f.scope == 0 else f.scope < 5) && onlyBits f.cmd mask

/-- The fields of a flit of VC2 have their widths (18_group_clock_col.md R457). -/
def colMsgOk (m : ColMsg) : Bool :=
  m.port < 16 && m.ty < 256 && m.code < 64 && m.subj < 4096 && m.origin < 4096 && m.hops < 256 && m.tick < 2 ^ 64 && m.seq < 2 ^ 32 &&
    m.count < 8192 && m.t1 < 2 ^ 64 && m.t2 < 2 ^ 64 && m.t3 < 2 ^ 64 && m.ctr < 2 ^ 64 && m.tag < 2 ^ 128
/-- The fields of a datagram have their widths (19_host_boot_power.md R472). -/
def datagramOk (d : Datagram) : Bool :=
  d.magic < 2 ^ 16 && d.ty < 256 && d.dir < 256 && d.seq < 2 ^ 32 && d.job < 2 ^ 32 && d.len < 2 ^ 32 && d.correl < 2 ^ 64 &&
    d.zero < 2 ^ 64 && d.tag < 2 ^ 128
/-- What the sensors show fits the registers that hold it, with a projection for every ceiling code (19_host_boot_power.md R480,
R481). -/
def sensorsOk (r : Sensors) : Bool :=
  r.input < 65536 && r.power < 65536 && r.junction < 256 && r.outlet < 256 && r.inlet < 256 && r.proj.length = 37

/-- The completion field of a copy command, CK in CMD[27:26] and CN in CMD[25:21] (R212). -/
def DF.ckOk (f : DF) : Bool :=
  let ck := f.cmd.extractLsb' 26 2
  ck != 3 && (ck != 0 || f.cmd.extractLsb' 21 5 == 0)

/-- A matrix word stands in slot M alone: it carries no copy slot. -/
def DF.mOk (f : DF) (mask : Nat) : Bool := !f.c1 && f.ok mask

/-- The types a vector instruction accepts, as a bit mask over the codes of R49 (R188). -/
def tyF : Nat := 0x007
def tyI : Nat := 0x3C0
def tyS : Nat := 0x1C0
def tyE : Nat := 0x038
def tyA : Nat := 0xFFF
/-- Codes with w of at least 8 (R188). -/
def tyW : Nat := 0xBDF

/-- The width in bits of an element type (R49); 0 for the undefined codes. -/
def tyWidth (t : BitVec 4) : Nat :=
  match t.toNat with
  | 0 => 32 | 1 => 16 | 2 => 16 | 3 => 8 | 4 => 8 | 5 => 4 | 6 => 8 | 7 => 16 | 8 => 32 | 9 => 32 | 10 => 1 | 11 => 8
  | _ => 0

def tyIn (t : BitVec 4) (set : Nat) : Bool := set.testBit t.toNat
/-- The type is one of f32, bf16, f16. -/
def tyFloat (t : BitVec 4) : Bool := tyIn t tyF

/-- What the RM column of R188 accepts. -/
inductive RmUse where
  | rnd      -- codes 0 to 4 and 7
  | byType   -- rnd for F, 7 or 0 for integers
  | sat      -- 7 for F, 7 or 0 for integers
  | rndOr7   -- rnd for F, 7 for integers
  | seven    -- 7 only
  deriving DecidableEq, Repr

def rmRnd (rm : BitVec 3) : Bool := rm ≤ 4 || rm == 7
def RmUse.ok (u : RmUse) (t : BitVec 4) (rm : BitVec 3) : Bool :=
  match u with
  | .rnd => rmRnd rm
  | .byType => if tyFloat t then rmRnd rm else rm == 7 || rm == 0
  | .sat => if tyFloat t then rm == 7 else rm == 7 || rm == 0
  | .rndOr7 => if tyFloat t then rmRnd rm else rm == 7
  | .seven => rm == 7

/-- Vector source codes (R99): tile ports, read ports, stream registers, latches, the two broadcasts and zero. -/
def vecSrcOk (c : BitVec 6) : Bool := c ≤ 53 || c == 63

/-- How an instruction uses the vector word: the sources it reads, and the fields it keeps for its own purposes. -/
structure VUse where
  a : Bool
  b : Bool
  c : Bool
  ownSc : Bool
  ownOpx : Bool
  deriving DecidableEq, Repr

/-- Some used source of the word has code `k`. -/
def VF.uses (f : VF) (u : VUse) (k : BitVec 6) : Bool :=
  (u.a && f.sa == k) || (u.b && f.sb == k) || (u.c && f.sc == k)

/-- Some used operand of the word is a tile port (R99). -/
def VF.tile (f : VF) (u : VUse) (dst : Bool) : Bool :=
  (u.a && f.sa < 32) || (u.b && f.sb < 32) || (u.c && f.sc < 32) || (dst && f.ws == 0 && f.dst < 32)

/-- The common checks of a vector word (R98 to R100, R187, R188). `dst` says that the instruction has a row result. -/
def VF.ok (f : VF) (u : VUse) (types : Nat) (rm : RmUse) (minBeats : Nat := 1) (dst : Bool := true) : Bool :=
  let imm := f.uses u 53
  let bc := f.uses u 52
  f.path ≤ 5 && minBeats ≤ beatsOf f.beats && tyIn f.ty types && rm.ok f.ty f.rm &&
  (if dst then (if f.ws == 0 then f.dst < 40 else f.dst == 0) else f.ws == 0 && f.dst == 0) &&
  (if u.a then vecSrcOk f.sa else f.sa == 0) &&
  (if u.b then vecSrcOk f.sb else f.sb == 0) &&
  (!u.c || vecSrcOk f.sc) &&
  (!(imm || bc) || !u.ownOpx) &&
  (!imm || (!u.c && !u.ownSc && !bc && (f.ty != 11 || f.sc.extractLsb' 3 3 == 0))) &&
  (u.c || u.ownSc || imm || f.sc == 0) &&
  (u.ownOpx || imm || bc || f.opx == 0) &&
  (f.tile u dst || (f.row == 0 && f.step == 0))

def uA : VUse := ⟨true, false, false, false, false⟩
def uAB : VUse := ⟨true, true, false, false, false⟩
def uABC : VUse := ⟨true, true, true, false, false⟩
def uNone : VUse := ⟨false, false, false, false, false⟩

/-- The 11 bits {SC, OPX} of an immediate broadcast or of VBCAST's and VROT's k (R100, R205). -/
def VF.k11 (f : VF) : BitVec 11 := f.sc ++ f.opx

/-- VCVT narrows: its source type, in OPX[3:0], is wider than TYPE (R200). -/
def VF.cvtSt (f : VF) : BitVec 4 := f.opx.extractLsb' 0 4
def VF.narrows (f : VF) : Bool := tyWidth f.ty < tyWidth f.cvtSt
/-- The use of VCVT's fields: SB only when it narrows (R200). -/
def VF.cvtUse (f : VF) : VUse := ⟨true, f.narrows, false, true, true⟩
/-- VQMX's part, {OPX[1:0], SC[5:0]} (R201). -/
def VF.qPart (f : VF) : Nat := (f.opx.extractLsb' 0 2 ++ f.sc).toNat
/-- VQMX's source width (R201). -/
def VF.qWidth (f : VF) : Nat := if f.opx.extractLsb' 2 2 == 0 then 32 else 16

/-- The field checks of VQMX (R188, R201). -/
def VF.qmxOk (f : VF) : Bool :=
  f.opx.extractLsb' 2 2 != 3 &&
  (if f.opx.getLsbD 4 then f.rm == 7 && f.qPart < 256 / (2048 / f.qWidth / 32)
   else f.qPart < f.qWidth / tyWidth f.ty)

/-- The field checks of a wait command, MWAIT or CWAIT (R240). -/
def DF.waitOk (f : DF) : Bool :=
  let kind := f.cmd.extractLsb' 27 2
  let num := f.cmd.extractLsb' 22 5
  let val := f.cmd.extractLsb' 6 16
  (f.cmd.getLsbD 5 || f.cmd.extractLsb' 0 5 == 0) &&
  (match kind.toNat with
   | 0 => num == 0 && val == 0
   | 1 => val != 0
   | 2 => val ≤ 1 && num < 16
   | _ => val == 0 && num < 8)

/-- SEM is reserved when SE = 0, in LD, ST and ATOM (R157). -/
def SF.semOk (f : SF) : Bool := f.imm.getLsbD 21 || f.imm.extractLsb' 16 5 == 0
/-- SX is reserved when SZ = 3 (R157, R163). -/
def SF.sxOk (f : SF) : Bool := f.imm.extractLsb' 27 2 != 3 || !f.imm.getLsbD 26

/-- The field checks of FST, FATOM and FRED (R179): DST with WM, SB with watermarks to carry, SEM with SE. -/
def SF.fabOk (f : SF) (mask : Nat) : Bool :=
  f.ok (f.imm.getLsbD 2) true (f.imm.extractLsb' 0 2 != 0) mask &&
  (f.imm.getLsbD 2 || f.ws == 0 || f.dst == 0) && f.imm.extractLsb' 0 2 != 3 &&
  (f.imm.getLsbD 3 || f.imm.extractLsb' 4 5 == 0)

/-- BLOCK's declared count, {SB[5:0], IMM[28:16]} (R178). -/
def SF.blockCount (f : SF) : BitVec 19 := f.sb ++ f.imm.extractLsb' 16 13

/-- The checks of a scalar word whose SB field is part of an immediate: LDI, LDIH and BLOCK (R131, R178). -/
def SF.okRawB (f : SF) (d a : Bool) (sbMask : Nat) : Bool :=
  f.path ≤ 5 && (if d && f.ws == 0 then f.dst < 32 else f.dst == 0) &&
  (if a then scalarSrcOk f.sa else f.sa == 0) && onlyBits f.sb sbMask

/-- A core number of the module: 64 main cores, 64 lookup cores and the housekeeping core (R2). -/
def coreOk (c : Nat) : Bool := c < 129
/-- A queue: 0 M, 1 C0, 2 C1. -/
def queueOk (q : Nat) : Bool := q < 3
/-- A 12-bit module number. -/
def moduleOk (m : Nat) : Bool := m < 4096


/-- The instruction is well formed: its word is legal as far as it alone decides, and an event names parts that exist. -/
def Instr.wf : Instr → Bool
  | .bundleIssue c => coreOk c
  | .lockstepResultLand c => coreOk c
  | .loadLand c _ => coreOk c
  | .copReplyLand c _ => coreOk c
  | .commandStart c q => coreOk c && queueOk q
  | .commandRetire c q _ => coreOk c && queueOk q
  | .mrunPanelReady c _ => coreOk c
  | .copyGranuleComplete c q _ _ => coreOk c && queueOk q
  | .rasRefill c => coreOk c
  | .trapEntry c => coreOk c
  | .trapReturn c => coreOk c
  | .preemptionRequest c _ => coreOk c
  | .deadlineExpiry c => coreOk c
  | .forcedSave c => coreOk c
  | .cooperativeSave c => coreOk c
  | .restore c _ => coreOk c
  | .hangWatchdogExpiry c => coreOk c
  | .fatalContextError c => coreOk c
  | .taskComplete c => coreOk c
  | .taskHandoff c => coreOk c
  | .timedBlockLaunch c job _ => coreOk c && job < 0x100000
  | .nodeRetire job _ => job < 0x100000
  | .branchNodeDecide job _ => job < 0x100000
  | .hostSignalNode job _ => job < 0x100000
  | .faultStampSpread => true
  | .jobComplete => true
  | .pageWalk _ => true
  | .faultService _ => true
  | .hostReplyTimeout => true
  | .migration job _ die => job < 0x100000 && die < 4
  | .migrationThreshold job _ die => job < 0x100000 && die < 4
  | .accessCounterHalving => true
  | .qseqAdvance => true
  | .patrolScrub die _ => die < 4
  | .firingDecision => true
  | .vatSpillStep => true
  | .vatRefill v => v < 2048
  | .spillRequest job => job < 0x100000
  | .remoteEnqueue => true
  | .remotePut => true
  | .packetAccept port _ => port ≤ 16
  | .packetCommit _ => true
  | .packetForward port _ => port < 16
  | .holdRelease => true
  | .holdDropVoid => true
  | .windowTimeout => true
  | .ack p => p.port ≤ 16
  | .nack p => p.port ≤ 16
  | .landed p => p.port ≤ 16
  | .query p => p.port ≤ 16
  | .release p => p.port ≤ 16
  | .notice p => p.port ≤ 16
  | .retransmitTimeout => true
  | .packetAbandon => true
  | .holdExpiry => true
  | .originSlotExpiry => true
  | .watermarkSlotFree => true
  | .queryResend => true
  | .settledCacheExpiry => true
  | .fecUncorrectable port => port < 16
  | .trainingRecord port r => port < 16 && r.bytes.length = 64
  | .retrainTimer => true
  | .sync m => colMsgOk m
  | .ceil m => colMsgOk m
  | .raise m => colMsgOk m
  | .confirm m => colMsgOk m
  | .join m => colMsgOk m
  | .admitted m => colMsgOk m
  | .leave m => colMsgOk m
  | .silent m => colMsgOk m
  | .evict m => colMsgOk m
  | .heartbeatTimer => true
  | .silenceTimeout => true
  | .evictionTimeout => true
  | .confirmationRetry => true
  | .joinTimeout => true
  | .ceilingEffective => true
  | .protectionLimitChange r _ => sensorsOk r
  | .powerOn => true
  | .powerOff => true
  | .launch d => datagramOk d
  | .jobend d => datagramOk d
  | .inval d => datagramOk d
  | .discard d => datagramOk d
  | .key d => datagramOk d
  | .route d => datagramOk d
  | .kill d => datagramOk d
  | .start d => datagramOk d
  | .regrd d => datagramOk d
  | .regwr d => datagramOk d
  | .pcapWrite d => datagramOk d
  | .hkdutyWrite d => datagramOk d
  | .cerrWrite d => datagramOk d
  | .hkstatWrite d => datagramOk d
  | .reply d => datagramOk d
  | .attest d => datagramOk d
  | .image d => datagramOk d
  | .clock d => datagramOk d
  | .datagramReorder d => datagramOk d
  | .rdmaWrite k _ _ => k.port < 2 && k.qp < 1024 && k.job < 0x100000
  | .rdmaRead k _ _ => k.port < 2 && k.qp < 1024 && k.job < 0x100000
  | .tableMiss unit => unit < 4
  | .add f => f.ok true true true 0x0
  | .sub f => f.ok true true true 0x0
  | .and f => f.ok true true true 0x0
  | .or f => f.ok true true true 0x0
  | .xor f => f.ok true true true 0x0
  | .andn f => f.ok true true true 0x0
  | .shl f => f.ok true true true 0x0
  | .shr f => f.ok true true true 0x0
  | .sar f => f.ok true true true 0x0
  | .rol f => f.ok true true true 0x0
  | .mul f => f.ok true true true 0x0
  | .mulh f => f.ok true true true 0x0
  | .mulhu f => f.ok true true true 0x0
  | .div f => f.ok true true true 0x0 8
  | .divu f => f.ok true true true 0x0 8
  | .rem f => f.ok true true true 0x0 8
  | .remu f => f.ok true true true 0x0 8
  | .min f => f.ok true true true 0x0
  | .max f => f.ok true true true 0x0
  | .minu f => f.ok true true true 0x0
  | .maxu f => f.ok true true true 0x0
  | .clz f => f.ok true true false 0x0
  | .ctz f => f.ok true true false 0x0
  | .popc f => f.ok true true false 0x0
  | .sext f => f.ok true true false 0x3 && f.imm.extractLsb' 0 2 != 3
  | .zext f => f.ok true true false 0x3 && f.imm.extractLsb' 0 2 != 3
  | .sel f => f.ok true true true 0x1F
  | .addi f => f.ok true true false 0x1FFFFFFF
  | .andi f => f.ok true true false 0x1FFFFFFF
  | .ori f => f.ok true true false 0x1FFFFFFF
  | .xori f => f.ok true true false 0x1FFFFFFF
  | .shli f => f.ok true true false 0x3F
  | .shri f => f.ok true true false 0x3F
  | .sari f => f.ok true true false 0x3F
  | .ldi f => f.okRawB true false 7
  | .ldih f => f.okRawB true true 7
  | .cmpi f => f.ok false true false 0x1FFFFFFF && f.imm.extractLsb' 4 4 < 8
  | .cmp f => f.ok false true true 0xFF && f.imm.extractLsb' 4 4 < 8
  | .pand f => f.ok false false false 0x3FFF
  | .por f => f.ok false false false 0x3FFF
  | .pxor f => f.ok false false false 0x3FFF
  | .pnot f => f.ok false false false 0x3FE0
  | .pset f => f.ok false false false 0x3C01
  | .pinv f => f.ok false false false 0x3C00
  | .jmpr f => f.ok false true false 0x1FFFFFFF
  | .call f => f.ok false false false 0x1FFFFFFF
  | .callr f => f.ok false true false 0x1FFFFFFF
  | .ret f => f.ok false false false 0x0
  | .loop f => f.ok false true false 0x18FFFFFF
  | .loopx f => f.ok true false false 0x1FFFFFFF
  | .trap f => f.ok false false false 0xFFFF
  | .yield f => f.ok false false false 0x0 && f.ws == 0
  | .tend f => f.ok false false false 0x0 && f.ws == 0
  | .waittask f => f.ok false false false 0x0 && f.ws == 0
  | .gets f => f.ok true false false 0x1F && f.imm.extractLsb' 0 5 ≤ 9
  | .sets f => f.ok false true false 0x1F && f.imm.extractLsb' 0 5 ≤ 9
  | .blend f => f.ok false false false 0x1F && f.imm.extractLsb' 2 3 < 4
  | .tmirror f => f.ok false false false 0x1FF && (!f.imm.getLsbD 8 || f.imm.extractLsb' 4 4 == 0)
  | .portcfg f => f.ok false true true 0x7FFFF
  | .ringcfg f => f.ok false true false 0x7
  | .ld f => f.ok true true false 0x1FFFFFFF && f.semOk && f.sxOk
  | .st f => f.ok false true true 0x1BFFFFFF && f.semOk
  | .lds f => f.ok true true false 0x1C3FFFFF && f.sxOk
  | .sts f => f.ok false true true 0x183FFFFF
  | .atom f => f.ok true true true 0x1BFFF000 && f.semOk && 2 ≤ f.imm.extractLsb' 27 2 && f.imm.extractLsb' 12 4 < 10
  | .fence f => f.ok false false false 0x3F && f.imm.extractLsb' 3 2 != 3 && f.imm.extractLsb' 0 3 < 5
  | .trn f => f.ok true true false 0x1FF
  | .hrel f => f.ok false false false 0x1F && (!f.imm.getLsbD 4 || f.imm.extractLsb' 0 4 == 0)
  | .hinfo f => f.ok true false false 0xF
  | .probe f => f.ok true true false 0x3FF
  | .rand f => f.ok true true false 0x1
  | .semsig f => f.ok false false false 0x3FFFFF && f.imm.extractLsb' 5 16 != 0
  | .semwait f => f.ok false false false 0x3FFFFF && f.imm.extractLsb' 5 16 != 0
  | .semset f => f.ok false false false 0x1FFFFF
  | .taskq f => f.ok true true true 0x3FFFFF
  | .tclaim f => f.ok true true false 0xF
  | .twait f => f.ok false true false 0x0 && f.ws == 0
  | .block f => f.okRawB false false 0x3F && (f.blockCount != 0 || f.imm.extractLsb' 0 16 == 0)
  | .fst f => f.fabOk 0x1FF
  | .fatom f => f.fabOk 0x3FFF && f.imm.extractLsb' 9 4 < 10
  | .fred f => f.fabOk 0x1FF
  | .wmwait f => f.ok true true false 0x0 && f.ws == 0
  | .wmtest f => f.ok true true false 0xF
  | .vadd f => f.ok uAB (tyF ||| tyI) .byType
  | .vsub f => f.ok uAB (tyF ||| tyI) .byType
  | .vmul f => f.ok uAB (tyF ||| tyI) .byType
  | .vfma f => f.ok uABC (tyF ||| tyI) .byType
  | .vfms f => f.ok uABC (tyF ||| tyI) .byType
  | .vmax f => f.ok uAB (tyF ||| tyI) .seven
  | .vmin f => f.ok uAB (tyF ||| tyI) .seven
  | .vabs f => f.ok uA (tyF ||| tyS) .sat
  | .vneg f => f.ok uA (tyF ||| tyS) .sat
  | .vrcp f => f.ok uA tyF .rnd
  | .vrsq f => f.ok uA tyF .rnd
  | .vexp2 f => f.ok uA tyF .rnd
  | .vlog2 f => f.ok uA tyF .rnd
  | .vand f => f.ok uAB tyA .seven
  | .vor f => f.ok uAB tyA .seven
  | .vxor f => f.ok uAB tyA .seven
  | .vshl f => f.ok uAB tyI .seven
  | .vshr f => f.ok uAB tyI .seven
  | .vsar f => f.ok uAB tyS .seven
  | .vcmp f => f.ok ⟨true, true, false, true, false⟩ (tyF ||| tyI) .seven && f.sc.extractLsb' 3 3 == 0 && (tyFloat f.ty || f.sc < 6)
  | .vsel f => f.ok uABC tyA .seven
  | .vtest f => f.ok ⟨true, false, false, false, true⟩ tyA .seven 1 false
  | .vcvt f => f.ok f.cvtUse tyA .rnd && f.opx < 12 && f.sc.getLsbD 5 == false && f.sc.toNat < (if f.narrows then tyWidth f.cvtSt / tyWidth f.ty else tyWidth f.ty / tyWidth f.cvtSt)
  | .vqmx f => f.ok ⟨true, true, false, true, true⟩ tyE .rnd && f.qmxOk
  | .vdqmx f => f.ok ⟨true, true, false, true, true⟩ tyF .rnd && 3 ≤ f.opx && f.opx ≤ 5 && f.sc.toNat < tyWidth f.ty / tyWidth f.cvtSt
  | .vpack f => f.ok ⟨true, true, false, true, false⟩ 0x420 .seven && f.sc.toNat < 8 / tyWidth f.ty
  | .vunpack f => f.ok ⟨true, false, false, true, true⟩ 0x420 .seven && f.sc.toNat < 8 / tyWidth f.ty && f.opx ≤ 1
  | .vrsum f => f.ok uA (tyF ||| tyI) .rndOr7
  | .vrmax f => f.ok uA (tyF ||| tyI) .seven
  | .vrmin f => f.ok uA (tyF ||| tyI) .seven
  | .vargmax f => f.ok uA (tyF ||| tyI) .seven
  | .vscan f => f.ok uA (tyF ||| tyI) .rndOr7 2
  | .vbcast f => f.ok ⟨true, false, false, true, true⟩ tyA .seven && f.k11.toNat < 2048 / tyWidth f.ty
  | .vshuf f => f.ok uAB tyW .seven 2
  | .vrot f => f.ok ⟨true, false, false, true, true⟩ tyA .seven && f.k11.toNat < 2048 / tyWidth f.ty
  | .vcompress f => f.ok uAB tyA .seven 2
  | .vmov f => f.ok uA tyA .seven
  | .vrand f => f.ok uNone 0x201 .seven
  | .mmould f => f.mOk 0x3FFE000000 && (if f.cmd.getLsbD 30 then f.cmd.extractLsb' 33 5 == 0 else f.cmd.extractLsb' 26 4 == 0)
  | .mflow f => f.mOk 0x1F && f.cmd.extractLsb' 0 2 != 3
  | .minit f => f.mOk 0x1FFF80000
  | .mrun f => f.mOk 0x3FFFFFFFE0 && (f.cmd.getLsbD 8 || f.cmd.extractLsb' 33 5 == 0)
  | .mruns f => f.mOk 0x3FFFFFFFFE
  | .mdrain f => f.mOk 0x3FFFFFFFC0 && (!f.cmd.getLsbD 21 || !f.cmd.getLsbD 32) && (f.cmd.extractLsb' 14 3 < 4 || f.cmd.extractLsb' 14 3 == 7)
  | .msave f => f.mOk 0x3FFFE00000
  | .mrest f => f.mOk 0x3FFFE00000
  | .mpop f => f.mOk 0xFF
  | .mwait f => f.mOk 0x1FFFFFFF && f.waitOk
  | .cpy f => f.ok 0x3FFFF00000 && f.ckOk
  | .cpyt f => f.ok 0x3FFFF00000 && f.ckOk
  | .cgath f => f.ok 0x3FFFFC0000 && f.ckOk && f.cmd.extractLsb' 19 2 != 3
  | .cscat f => f.ok 0x3FFFE00000 && f.ckOk
  | .cbind f => f.ok 0x3FFFFC0000 && f.ckOk
  | .cring f => f.ok 0x3FFFFF0000 && f.ckOk
  | .cbcast f => f.ok 0x3FFFFFFF00 && f.ckOk
  | .cfill f => f.ok 0x3FFFE00000 && f.ckOk
  | .carm f => f.ok 0x3E001E0000
  | .cwait f => f.ok 0x1FFFFFFF && f.waitOk
  | .vtcfg f => f.ok true 0x0
  | .vtenq f => f.ok true 0x0
  | .vtfire f => f.ok false 0x0
  | .vtstat f => f.ok false 0x0
  | .vtclose f => f.ok false 0x1
  | .cbset f => f.ok true 0x0
  | .cbput f => f.ok true 0x0
  | .cbstat f => f.ok false 0x0
  | .txnorm f => f.ok false 0x0
  | .txenc f => f.ok false 0x0
  | .txdec f => f.ok false 0x0
  | .grload f => f.ok true 0x1
  | .gradv f => f.ok true 0x0
  | .grmask f => f.ok true 0x7FFF
  | .grstat f => f.ok false 0x0
  | .stopset f => f.ok true 0x0
  | .stopchk f => f.ok true 0x0
  | .cljoin f => f.ok false 0x0
  | .clleave f => f.ok false 0x0
  | .clstat f => f.ok false 0x0
  | .clceil f => f.ok false 0x0
  | .fwin f => f.ok false 0x3
  | .fwstat f => f.ok false 0x0
  | .fwclose f => f.ok false 0x0
  | .storePerformed c _ => coreOk c
  | .wmwaitExpiry => true
  | .fabricPayloadRead c _ => coreOk c
  | .fredLaunchTick c => coreOk c
  | .abandonNoticeResend => true
  | .streamIdleExpiry => true
  | .linkDown port => port < 16
  | .outOfStepTimeout => true
  | .ethernetLinkChange port _ => port < 2

/-- The vector sources of a word as a lookup core may name them: it has no V1, so no b2 or b3 (R193). -/
def VF.lookupOk (f : VF) : Bool :=
  !f.v1 && f.sa != 50 && f.sa != 51 && f.sb != 50 && f.sb != 51

/-- The operation exists on a core of this type, in the form its word gives it (R112, R150 to R153, R193). Whether the
slot itself exists is checked against the header (R95); a COP function or another operation that is absent on a core
type raises its own fault at issue. -/
def Instr.onKind (k : CoreKind) : Instr → Bool
  | .bundleIssue _ => true
  | .lockstepResultLand _ => true
  | .loadLand _ _ => true
  | .copReplyLand _ _ => true
  | .commandStart _ _ => true
  | .commandRetire _ _ _ => true
  | .mrunPanelReady _ _ => true
  | .copyGranuleComplete _ _ _ _ => true
  | .rasRefill _ => true
  | .trapEntry _ => true
  | .trapReturn _ => true
  | .preemptionRequest _ _ => true
  | .deadlineExpiry _ => true
  | .forcedSave _ => true
  | .cooperativeSave _ => true
  | .restore _ _ => true
  | .hangWatchdogExpiry _ => true
  | .fatalContextError _ => true
  | .taskComplete _ => true
  | .taskHandoff _ => true
  | .timedBlockLaunch _ _ _ => true
  | .nodeRetire _ _ => true
  | .branchNodeDecide _ _ => true
  | .hostSignalNode _ _ => true
  | .faultStampSpread => true
  | .jobComplete => true
  | .pageWalk _ => true
  | .faultService _ => true
  | .hostReplyTimeout => true
  | .migration _ _ _ => true
  | .migrationThreshold _ _ _ => true
  | .accessCounterHalving => true
  | .qseqAdvance => true
  | .patrolScrub _ _ => true
  | .firingDecision => true
  | .vatSpillStep => true
  | .vatRefill _ => true
  | .spillRequest _ => true
  | .remoteEnqueue => true
  | .remotePut => true
  | .packetAccept _ _ => true
  | .packetCommit _ => true
  | .packetForward _ _ => true
  | .holdRelease => true
  | .holdDropVoid => true
  | .windowTimeout => true
  | .ack _ => true
  | .nack _ => true
  | .landed _ => true
  | .query _ => true
  | .release _ => true
  | .notice _ => true
  | .retransmitTimeout => true
  | .packetAbandon => true
  | .holdExpiry => true
  | .originSlotExpiry => true
  | .watermarkSlotFree => true
  | .queryResend => true
  | .settledCacheExpiry => true
  | .fecUncorrectable _ => true
  | .trainingRecord _ _ => true
  | .retrainTimer => true
  | .sync _ => true
  | .ceil _ => true
  | .raise _ => true
  | .confirm _ => true
  | .join _ => true
  | .admitted _ => true
  | .leave _ => true
  | .silent _ => true
  | .evict _ => true
  | .heartbeatTimer => true
  | .silenceTimeout => true
  | .evictionTimeout => true
  | .confirmationRetry => true
  | .joinTimeout => true
  | .ceilingEffective => true
  | .protectionLimitChange _ _ => true
  | .powerOn => true
  | .powerOff => true
  | .launch _ => true
  | .jobend _ => true
  | .inval _ => true
  | .discard _ => true
  | .key _ => true
  | .route _ => true
  | .kill _ => true
  | .start _ => true
  | .regrd _ => true
  | .regwr _ => true
  | .pcapWrite _ => true
  | .hkdutyWrite _ => true
  | .cerrWrite _ => true
  | .hkstatWrite _ => true
  | .reply _ => true
  | .attest _ => true
  | .image _ => true
  | .clock _ => true
  | .datagramReorder _ => true
  | .rdmaWrite _ _ _ => true
  | .rdmaRead _ _ _ => true
  | .tableMiss _ => true
  | .add _ => true
  | .sub _ => true
  | .and _ => true
  | .or _ => true
  | .xor _ => true
  | .andn _ => true
  | .shl _ => true
  | .shr _ => true
  | .sar _ => true
  | .rol _ => true
  | .mul _ => true
  | .mulh _ => true
  | .mulhu _ => true
  | .div _ => true
  | .divu _ => true
  | .rem _ => true
  | .remu _ => true
  | .min _ => true
  | .max _ => true
  | .minu _ => true
  | .maxu _ => true
  | .clz _ => true
  | .ctz _ => true
  | .popc _ => true
  | .sext _ => true
  | .zext _ => true
  | .sel _ => true
  | .addi _ => true
  | .andi _ => true
  | .ori _ => true
  | .xori _ => true
  | .shli _ => true
  | .shri _ => true
  | .sari _ => true
  | .ldi _ => true
  | .ldih _ => true
  | .cmpi _ => true
  | .cmp _ => true
  | .pand _ => true
  | .por _ => true
  | .pxor _ => true
  | .pnot _ => true
  | .pset _ => true
  | .pinv _ => true
  | .jmpr _ => true
  | .call _ => true
  | .callr _ => true
  | .ret _ => true
  | .loop _ => true
  | .loopx _ => true
  | .trap _ => true
  | .yield _ => true
  | .tend _ => true
  | .waittask _ => true
  | .gets _ => true
  | .sets _ => true
  | .blend f => k == .main || (k == .lookup && f.imm.extractLsb' 2 3 != 1 && f.imm.extractLsb' 2 3 != 2)
  | .tmirror _ => k != .house
  | .portcfg _ => k != .house
  | .ringcfg _ => true
  | .ld _ => true
  | .st _ => true
  | .lds _ => true
  | .sts _ => true
  | .atom _ => true
  | .fence _ => true
  | .trn _ => true
  | .hrel _ => true
  | .hinfo _ => true
  | .probe _ => true
  | .rand _ => true
  | .semsig _ => true
  | .semwait _ => true
  | .semset _ => true
  | .taskq _ => true
  | .tclaim _ => true
  | .twait _ => true
  | .block _ => true
  | .fst _ => true
  | .fatom _ => true
  | .fred _ => true
  | .wmwait _ => true
  | .wmtest _ => true
  | .vadd f => k == .main || (k == .lookup && f.lookupOk)
  | .vsub _ => k == .main
  | .vmul _ => k == .main
  | .vfma _ => k == .main
  | .vfms _ => k == .main
  | .vmax _ => k == .main
  | .vmin _ => k == .main
  | .vabs _ => k == .main
  | .vneg _ => k == .main
  | .vrcp _ => k == .main
  | .vrsq _ => k == .main
  | .vexp2 _ => k == .main
  | .vlog2 _ => k == .main
  | .vand _ => k == .main
  | .vor _ => k == .main
  | .vxor _ => k == .main
  | .vshl _ => k == .main
  | .vshr _ => k == .main
  | .vsar _ => k == .main
  | .vcmp _ => k == .main
  | .vsel _ => k == .main
  | .vtest _ => k == .main
  | .vcvt f => k == .main || (k == .lookup && f.lookupOk)
  | .vqmx _ => k == .main
  | .vdqmx _ => k == .main
  | .vpack _ => k == .main
  | .vunpack _ => k == .main
  | .vrsum _ => k == .main
  | .vrmax _ => k == .main
  | .vrmin _ => k == .main
  | .vargmax _ => k == .main
  | .vscan _ => k == .main
  | .vbcast _ => k == .main
  | .vshuf _ => k == .main
  | .vrot _ => k == .main
  | .vcompress _ => k == .main
  | .vmov f => k == .main || (k == .lookup && f.lookupOk)
  | .vrand _ => k == .main
  | .mmould _ => k == .main
  | .mflow _ => k == .main
  | .minit _ => k == .main
  | .mrun _ => k == .main
  | .mruns _ => k == .main
  | .mdrain _ => k == .main
  | .msave _ => k == .main
  | .mrest _ => k == .main
  | .mpop _ => k == .main
  | .mwait _ => k == .main
  | .cpy _ => true
  | .cpyt _ => true
  | .cgath _ => true
  | .cscat _ => true
  | .cbind _ => true
  | .cring _ => true
  | .cbcast _ => true
  | .cfill _ => true
  | .carm _ => true
  | .cwait _ => true
  | .vtcfg _ => true
  | .vtenq _ => true
  | .vtfire _ => true
  | .vtstat _ => true
  | .vtclose _ => true
  | .cbset _ => true
  | .cbput _ => true
  | .cbstat _ => true
  | .txnorm _ => true
  | .txenc _ => true
  | .txdec _ => true
  | .grload _ => true
  | .gradv _ => true
  | .grmask _ => true
  | .grstat _ => true
  | .stopset _ => true
  | .stopchk _ => true
  | .cljoin _ => true
  | .clleave _ => true
  | .clstat _ => true
  | .clceil _ => true
  | .fwin _ => true
  | .fwstat _ => true
  | .fwclose _ => true
  | .storePerformed _ _ => true
  | .wmwaitExpiry => true
  | .fabricPayloadRead _ _ => true
  | .fredLaunchTick _ => true
  | .abandonNoticeResend => true
  | .streamIdleExpiry => true
  | .linkDown _ => true
  | .outOfStepTimeout => true
  | .ethernetLinkChange _ _ => true

end Sys2Proof
end

