-- ==== Sys2Proof/Decode.lean ====
section
/-! DEFINITION. From bytes to instructions and back: slot words (03_bundle_encoding.md R96 to R101, R109 to R113),
the branch word (R103, R104), bundles (R85, R86, R95, R106, R108, R114, R115), and the encoder written from the same
tables. Everything here is total; what is no instruction is refused by the report code of R114. -/
namespace Sys2Proof

/-- The slots of a bundle in the order of R85. -/
inductive Slot where
  | s
  | v0
  | v1
  | m
  | c0
  | c1
  deriving DecidableEq, Repr

/-- The slot's report code (R114), also its place in the commit order (R37). -/
def Slot.code : Slot → Nat
  | .s => 0
  | .v0 => 1
  | .v1 => 2
  | .m => 3
  | .c0 => 4
  | .c1 => 5

def Slot.all : List Slot := [.s, .v0, .v1, .m, .c0, .c1]

/-- The slots present on a core type (R112). -/
def Slot.onKind : CoreKind → Slot → Bool
  | .main, _ => true
  | .lookup, .v1 => false
  | .lookup, .m => false
  | .lookup, _ => true
  | .house, .s => true
  | .house, .c0 => true
  | .house, .c1 => true
  | .house, _ => false

/-- The `n` bytes of `x`, least significant first (R4). -/
def leBytes : Nat → Nat → List Byte
  | 0, _ => []
  | n + 1, x => BitVec.ofNat 8 x :: leBytes n (x / 256)

/-- The number whose bytes, least significant first, are `l` (R4). -/
def ofLe : List Byte → Nat
  | [] => 0
  | b :: r => b.toNat + 256 * ofLe r

/-- The fields of a scalar word (R96, R97). -/
def SF.ofWord (w : Word) : SF :=
  { path := w.extractLsb' 54 3, pipe := w.extractLsb' 53 1, beats := w.extractLsb' 48 5, ws := w.extractLsb' 47 1,
    dst := w.extractLsb' 41 6, sa := w.extractLsb' 35 6, sb := w.extractLsb' 29 6, imm := w.extractLsb' 0 29 }

/-- The scalar word of an opcode and its fields (R96, R97). -/
def SF.toWord (op : BitVec 7) (f : SF) : Word :=
  op ++ f.path ++ f.pipe ++ f.beats ++ f.ws ++ f.dst ++ f.sa ++ f.sb ++ f.imm

/-- The fields of a vector word (R96, R98). -/
def VF.ofWord (v1 : Bool) (w : Word) : VF :=
  { v1 := v1, path := w.extractLsb' 54 3, pipe := w.extractLsb' 53 1, beats := w.extractLsb' 48 5,
    ws := w.extractLsb' 47 1, ty := w.extractLsb' 43 4, dst := w.extractLsb' 37 6, sa := w.extractLsb' 31 6,
    sb := w.extractLsb' 25 6, sc := w.extractLsb' 19 6, row := w.extractLsb' 12 7, step := w.extractLsb' 8 4,
    rm := w.extractLsb' 5 3, opx := w.extractLsb' 0 5 }

/-- The vector word of an opcode and its fields (R96, R98). -/
def VF.toWord (op : BitVec 7) (f : VF) : Word :=
  op ++ f.path ++ f.pipe ++ f.beats ++ f.ws ++ f.ty ++ f.dst ++ f.sa ++ f.sb ++ f.sc ++ f.row ++ f.step ++ f.rm ++ f.opx

/-- The fields of a decoupled word (R96, R101). -/
def DF.ofWord (c1 : Bool) (w : Word) : DF :=
  { c1 := c1, path := w.extractLsb' 54 3, pipe := w.extractLsb' 53 1, beats := w.extractLsb' 48 5,
    gneg := w.extractLsb' 47 1, gpred := w.extractLsb' 43 4, acq := w.extractLsb' 42 1, rel := w.extractLsb' 41 1,
    scope := w.extractLsb' 38 3, cmd := w.extractLsb' 0 38 }

/-- The decoupled word of an opcode and its fields (R96, R101). -/
def DF.toWord (op : BitVec 7) (f : DF) : Word :=
  op ++ f.path ++ f.pipe ++ f.beats ++ f.gneg ++ f.gpred ++ f.acq ++ f.rel ++ f.scope ++ f.cmd

/-- The fields of a COP word, whose function code is IMM[28:22] and whose WS is reserved (R109, R246). -/
def CF.ofWord (w : Word) : CF :=
  { path := w.extractLsb' 54 3, pipe := w.extractLsb' 53 1, beats := w.extractLsb' 48 5,
    dst := w.extractLsb' 41 6, sa := w.extractLsb' 35 6, sb := w.extractLsb' 29 6, fields := w.extractLsb' 0 22 }

/-- The COP word of a function code and its fields (R109, R246). -/
def CF.toWord (fn : BitVec 7) (f : CF) : Word :=
  0x70#7 ++ f.path ++ f.pipe ++ f.beats ++ 0#1 ++ f.dst ++ f.sa ++ f.sb ++ fn ++ f.fields


/-- The COP functions (R113). -/
def decodeCop (fn : Nat) (f : CF) : Option Instr :=
  match fn with
  | 0x00 => some (.vtcfg f)
  | 0x01 => some (.vtenq f)
  | 0x02 => some (.vtfire f)
  | 0x03 => some (.vtstat f)
  | 0x04 => some (.vtclose f)
  | 0x05 => some (.cbset f)
  | 0x06 => some (.cbput f)
  | 0x07 => some (.cbstat f)
  | 0x20 => some (.txnorm f)
  | 0x21 => some (.txenc f)
  | 0x22 => some (.txdec f)
  | 0x28 => some (.grload f)
  | 0x29 => some (.gradv f)
  | 0x2A => some (.grmask f)
  | 0x2B => some (.grstat f)
  | 0x30 => some (.stopset f)
  | 0x31 => some (.stopchk f)
  | 0x40 => some (.cljoin f)
  | 0x41 => some (.clleave f)
  | 0x42 => some (.clstat f)
  | 0x43 => some (.clceil f)
  | 0x50 => some (.fwin f)
  | 0x51 => some (.fwstat f)
  | 0x52 => some (.fwclose f)
  | _ => none

/-- The scalar opcodes (R110) but for COP. -/
def decodeScalar (op : Nat) (f : SF) : Option Instr :=
  match op with
  | 0x01 => some (.add f)
  | 0x02 => some (.sub f)
  | 0x03 => some (.and f)
  | 0x04 => some (.or f)
  | 0x05 => some (.xor f)
  | 0x06 => some (.andn f)
  | 0x07 => some (.shl f)
  | 0x08 => some (.shr f)
  | 0x09 => some (.sar f)
  | 0x0A => some (.rol f)
  | 0x0B => some (.mul f)
  | 0x0C => some (.mulh f)
  | 0x0D => some (.mulhu f)
  | 0x0E => some (.div f)
  | 0x0F => some (.divu f)
  | 0x10 => some (.rem f)
  | 0x11 => some (.remu f)
  | 0x12 => some (.min f)
  | 0x13 => some (.max f)
  | 0x14 => some (.minu f)
  | 0x15 => some (.maxu f)
  | 0x16 => some (.clz f)
  | 0x17 => some (.ctz f)
  | 0x18 => some (.popc f)
  | 0x19 => some (.sext f)
  | 0x1A => some (.zext f)
  | 0x1B => some (.sel f)
  | 0x20 => some (.addi f)
  | 0x21 => some (.andi f)
  | 0x22 => some (.ori f)
  | 0x23 => some (.xori f)
  | 0x24 => some (.shli f)
  | 0x25 => some (.shri f)
  | 0x26 => some (.sari f)
  | 0x27 => some (.ldi f)
  | 0x28 => some (.ldih f)
  | 0x29 => some (.cmpi f)
  | 0x30 => some (.cmp f)
  | 0x31 => some (.pand f)
  | 0x32 => some (.por f)
  | 0x33 => some (.pxor f)
  | 0x34 => some (.pnot f)
  | 0x35 => some (.pset f)
  | 0x36 => some (.pinv f)
  | 0x40 => some (.jmpr f)
  | 0x41 => some (.call f)
  | 0x42 => some (.callr f)
  | 0x43 => some (.ret f)
  | 0x44 => some (.loop f)
  | 0x45 => some (.loopx f)
  | 0x46 => some (.trap f)
  | 0x47 => some (.yield f)
  | 0x48 => some (.tend f)
  | 0x49 => some (.waittask f)
  | 0x4A => some (.gets f)
  | 0x4B => some (.sets f)
  | 0x4C => some (.blend f)
  | 0x4D => some (.tmirror f)
  | 0x4E => some (.portcfg f)
  | 0x4F => some (.ringcfg f)
  | 0x50 => some (.ld f)
  | 0x51 => some (.st f)
  | 0x52 => some (.lds f)
  | 0x53 => some (.sts f)
  | 0x54 => some (.atom f)
  | 0x55 => some (.fence f)
  | 0x56 => some (.trn f)
  | 0x57 => some (.hrel f)
  | 0x58 => some (.hinfo f)
  | 0x59 => some (.probe f)
  | 0x5A => some (.rand f)
  | 0x60 => some (.semsig f)
  | 0x61 => some (.semwait f)
  | 0x62 => some (.semset f)
  | 0x63 => some (.taskq f)
  | 0x64 => some (.tclaim f)
  | 0x65 => some (.twait f)
  | 0x66 => some (.block f)
  | 0x68 => some (.fst f)
  | 0x69 => some (.fatom f)
  | 0x6A => some (.fred f)
  | 0x6B => some (.wmwait f)
  | 0x6C => some (.wmtest f)
  | _ => none

/-- The vector opcodes (R111). -/
def decodeVector (op : Nat) (f : VF) : Option Instr :=
  match op with
  | 0x01 => some (.vadd f)
  | 0x02 => some (.vsub f)
  | 0x03 => some (.vmul f)
  | 0x04 => some (.vfma f)
  | 0x05 => some (.vfms f)
  | 0x06 => some (.vmax f)
  | 0x07 => some (.vmin f)
  | 0x08 => some (.vabs f)
  | 0x09 => some (.vneg f)
  | 0x0A => some (.vrcp f)
  | 0x0B => some (.vrsq f)
  | 0x0C => some (.vexp2 f)
  | 0x0D => some (.vlog2 f)
  | 0x10 => some (.vand f)
  | 0x11 => some (.vor f)
  | 0x12 => some (.vxor f)
  | 0x13 => some (.vshl f)
  | 0x14 => some (.vshr f)
  | 0x15 => some (.vsar f)
  | 0x20 => some (.vcmp f)
  | 0x21 => some (.vsel f)
  | 0x22 => some (.vtest f)
  | 0x30 => some (.vcvt f)
  | 0x31 => some (.vqmx f)
  | 0x32 => some (.vdqmx f)
  | 0x33 => some (.vpack f)
  | 0x34 => some (.vunpack f)
  | 0x40 => some (.vrsum f)
  | 0x41 => some (.vrmax f)
  | 0x42 => some (.vrmin f)
  | 0x43 => some (.vargmax f)
  | 0x44 => some (.vscan f)
  | 0x50 => some (.vbcast f)
  | 0x51 => some (.vshuf f)
  | 0x52 => some (.vrot f)
  | 0x53 => some (.vcompress f)
  | 0x54 => some (.vmov f)
  | 0x60 => some (.vrand f)
  | _ => none

/-- The matrix opcodes (R112). -/
def decodeMatrix (op : Nat) (f : DF) : Option Instr :=
  match op with
  | 0x01 => some (.mmould f)
  | 0x02 => some (.mflow f)
  | 0x03 => some (.minit f)
  | 0x04 => some (.mrun f)
  | 0x05 => some (.mruns f)
  | 0x06 => some (.mdrain f)
  | 0x07 => some (.msave f)
  | 0x08 => some (.mrest f)
  | 0x09 => some (.mpop f)
  | 0x0A => some (.mwait f)
  | _ => none

/-- The copy opcodes (R112). -/
def decodeCopy (op : Nat) (f : DF) : Option Instr :=
  match op with
  | 0x01 => some (.cpy f)
  | 0x02 => some (.cpyt f)
  | 0x03 => some (.cgath f)
  | 0x04 => some (.cscat f)
  | 0x05 => some (.cbind f)
  | 0x06 => some (.cring f)
  | 0x07 => some (.cbcast f)
  | 0x08 => some (.cfill f)
  | 0x09 => some (.carm f)
  | 0x0A => some (.cwait f)
  | _ => none

/-- The operation a word names in a slot, before its fields are checked; COP has no WS field (R109). -/
def decodeRaw (sl : Slot) (w : Word) : Option Instr :=
  let op := (w.extractLsb' 57 7).toNat
  match sl with
  | .s =>
    if op = 0x70 then
      if w.extractLsb' 47 1 = 0 then decodeCop (w.extractLsb' 22 7).toNat (CF.ofWord w) else none
    else decodeScalar op (SF.ofWord w)
  | .v0 => decodeVector op (VF.ofWord false w)
  | .v1 => decodeVector op (VF.ofWord true w)
  | .m => decodeMatrix op (DF.ofWord false w)
  | .c0 => decodeCopy op (DF.ofWord false w)
  | .c1 => decodeCopy op (DF.ofWord true w)

/-- The instruction of a slot word; none where the word is an illegal encoding by itself (R114). -/
def decodeWord (sl : Slot) (w : Word) : Option Instr :=
  match decodeRaw sl w with
  | some i => if i.wf then some i else none
  | none => none

def VF.slot (f : VF) : Slot := if f.v1 then .v1 else .v0
def DF.slot (f : DF) : Slot := if f.c1 then .c1 else .c0

/-- The slot and the word of an operation; an event has neither. Written from the tables of R96 to R113. -/
def Instr.slotWord : Instr → Option (Slot × Word)
  | .bundleIssue _ => none
  | .lockstepResultLand _ => none
  | .loadLand _ _ => none
  | .copReplyLand _ _ => none
  | .commandStart _ _ => none
  | .commandRetire _ _ _ => none
  | .mrunPanelReady _ _ => none
  | .copyGranuleComplete _ _ _ _ => none
  | .rasRefill _ => none
  | .trapEntry _ => none
  | .trapReturn _ => none
  | .preemptionRequest _ _ => none
  | .deadlineExpiry _ => none
  | .forcedSave _ => none
  | .cooperativeSave _ => none
  | .restore _ _ => none
  | .hangWatchdogExpiry _ => none
  | .fatalContextError _ => none
  | .taskComplete _ => none
  | .taskHandoff _ => none
  | .timedBlockLaunch _ _ _ => none
  | .nodeRetire _ _ => none
  | .branchNodeDecide _ _ => none
  | .hostSignalNode _ _ => none
  | .faultStampSpread => none
  | .jobComplete => none
  | .pageWalk _ => none
  | .faultService _ => none
  | .hostReplyTimeout => none
  | .migration _ _ _ => none
  | .migrationThreshold _ _ _ => none
  | .accessCounterHalving => none
  | .qseqAdvance => none
  | .patrolScrub _ _ => none
  | .firingDecision => none
  | .vatSpillStep => none
  | .vatRefill _ => none
  | .spillRequest _ => none
  | .remoteEnqueue => none
  | .remotePut => none
  | .packetAccept _ _ => none
  | .packetCommit _ => none
  | .packetForward _ _ => none
  | .holdRelease => none
  | .holdDropVoid => none
  | .windowTimeout => none
  | .ack _ => none
  | .nack _ => none
  | .landed _ => none
  | .query _ => none
  | .release _ => none
  | .notice _ => none
  | .retransmitTimeout => none
  | .packetAbandon => none
  | .holdExpiry => none
  | .originSlotExpiry => none
  | .watermarkSlotFree => none
  | .queryResend => none
  | .settledCacheExpiry => none
  | .fecUncorrectable _ => none
  | .trainingRecord _ _ => none
  | .retrainTimer => none
  | .sync _ => none
  | .ceil _ => none
  | .raise _ => none
  | .confirm _ => none
  | .join _ => none
  | .admitted _ => none
  | .leave _ => none
  | .silent _ => none
  | .evict _ => none
  | .heartbeatTimer => none
  | .silenceTimeout => none
  | .evictionTimeout => none
  | .confirmationRetry => none
  | .joinTimeout => none
  | .ceilingEffective => none
  | .protectionLimitChange _ _ => none
  | .powerOn => none
  | .powerOff => none
  | .launch _ => none
  | .jobend _ => none
  | .inval _ => none
  | .discard _ => none
  | .key _ => none
  | .route _ => none
  | .kill _ => none
  | .start _ => none
  | .regrd _ => none
  | .regwr _ => none
  | .pcapWrite _ => none
  | .hkdutyWrite _ => none
  | .cerrWrite _ => none
  | .hkstatWrite _ => none
  | .reply _ => none
  | .attest _ => none
  | .image _ => none
  | .clock _ => none
  | .datagramReorder _ => none
  | .rdmaWrite _ _ _ => none
  | .rdmaRead _ _ _ => none
  | .tableMiss _ => none
  | .add f => some (.s, f.toWord 0x01)
  | .sub f => some (.s, f.toWord 0x02)
  | .and f => some (.s, f.toWord 0x03)
  | .or f => some (.s, f.toWord 0x04)
  | .xor f => some (.s, f.toWord 0x05)
  | .andn f => some (.s, f.toWord 0x06)
  | .shl f => some (.s, f.toWord 0x07)
  | .shr f => some (.s, f.toWord 0x08)
  | .sar f => some (.s, f.toWord 0x09)
  | .rol f => some (.s, f.toWord 0x0A)
  | .mul f => some (.s, f.toWord 0x0B)
  | .mulh f => some (.s, f.toWord 0x0C)
  | .mulhu f => some (.s, f.toWord 0x0D)
  | .div f => some (.s, f.toWord 0x0E)
  | .divu f => some (.s, f.toWord 0x0F)
  | .rem f => some (.s, f.toWord 0x10)
  | .remu f => some (.s, f.toWord 0x11)
  | .min f => some (.s, f.toWord 0x12)
  | .max f => some (.s, f.toWord 0x13)
  | .minu f => some (.s, f.toWord 0x14)
  | .maxu f => some (.s, f.toWord 0x15)
  | .clz f => some (.s, f.toWord 0x16)
  | .ctz f => some (.s, f.toWord 0x17)
  | .popc f => some (.s, f.toWord 0x18)
  | .sext f => some (.s, f.toWord 0x19)
  | .zext f => some (.s, f.toWord 0x1A)
  | .sel f => some (.s, f.toWord 0x1B)
  | .addi f => some (.s, f.toWord 0x20)
  | .andi f => some (.s, f.toWord 0x21)
  | .ori f => some (.s, f.toWord 0x22)
  | .xori f => some (.s, f.toWord 0x23)
  | .shli f => some (.s, f.toWord 0x24)
  | .shri f => some (.s, f.toWord 0x25)
  | .sari f => some (.s, f.toWord 0x26)
  | .ldi f => some (.s, f.toWord 0x27)
  | .ldih f => some (.s, f.toWord 0x28)
  | .cmpi f => some (.s, f.toWord 0x29)
  | .cmp f => some (.s, f.toWord 0x30)
  | .pand f => some (.s, f.toWord 0x31)
  | .por f => some (.s, f.toWord 0x32)
  | .pxor f => some (.s, f.toWord 0x33)
  | .pnot f => some (.s, f.toWord 0x34)
  | .pset f => some (.s, f.toWord 0x35)
  | .pinv f => some (.s, f.toWord 0x36)
  | .jmpr f => some (.s, f.toWord 0x40)
  | .call f => some (.s, f.toWord 0x41)
  | .callr f => some (.s, f.toWord 0x42)
  | .ret f => some (.s, f.toWord 0x43)
  | .loop f => some (.s, f.toWord 0x44)
  | .loopx f => some (.s, f.toWord 0x45)
  | .trap f => some (.s, f.toWord 0x46)
  | .yield f => some (.s, f.toWord 0x47)
  | .tend f => some (.s, f.toWord 0x48)
  | .waittask f => some (.s, f.toWord 0x49)
  | .gets f => some (.s, f.toWord 0x4A)
  | .sets f => some (.s, f.toWord 0x4B)
  | .blend f => some (.s, f.toWord 0x4C)
  | .tmirror f => some (.s, f.toWord 0x4D)
  | .portcfg f => some (.s, f.toWord 0x4E)
  | .ringcfg f => some (.s, f.toWord 0x4F)
  | .ld f => some (.s, f.toWord 0x50)
  | .st f => some (.s, f.toWord 0x51)
  | .lds f => some (.s, f.toWord 0x52)
  | .sts f => some (.s, f.toWord 0x53)
  | .atom f => some (.s, f.toWord 0x54)
  | .fence f => some (.s, f.toWord 0x55)
  | .trn f => some (.s, f.toWord 0x56)
  | .hrel f => some (.s, f.toWord 0x57)
  | .hinfo f => some (.s, f.toWord 0x58)
  | .probe f => some (.s, f.toWord 0x59)
  | .rand f => some (.s, f.toWord 0x5A)
  | .semsig f => some (.s, f.toWord 0x60)
  | .semwait f => some (.s, f.toWord 0x61)
  | .semset f => some (.s, f.toWord 0x62)
  | .taskq f => some (.s, f.toWord 0x63)
  | .tclaim f => some (.s, f.toWord 0x64)
  | .twait f => some (.s, f.toWord 0x65)
  | .block f => some (.s, f.toWord 0x66)
  | .fst f => some (.s, f.toWord 0x68)
  | .fatom f => some (.s, f.toWord 0x69)
  | .fred f => some (.s, f.toWord 0x6A)
  | .wmwait f => some (.s, f.toWord 0x6B)
  | .wmtest f => some (.s, f.toWord 0x6C)
  | .vadd f => some (f.slot, f.toWord 0x01)
  | .vsub f => some (f.slot, f.toWord 0x02)
  | .vmul f => some (f.slot, f.toWord 0x03)
  | .vfma f => some (f.slot, f.toWord 0x04)
  | .vfms f => some (f.slot, f.toWord 0x05)
  | .vmax f => some (f.slot, f.toWord 0x06)
  | .vmin f => some (f.slot, f.toWord 0x07)
  | .vabs f => some (f.slot, f.toWord 0x08)
  | .vneg f => some (f.slot, f.toWord 0x09)
  | .vrcp f => some (f.slot, f.toWord 0x0A)
  | .vrsq f => some (f.slot, f.toWord 0x0B)
  | .vexp2 f => some (f.slot, f.toWord 0x0C)
  | .vlog2 f => some (f.slot, f.toWord 0x0D)
  | .vand f => some (f.slot, f.toWord 0x10)
  | .vor f => some (f.slot, f.toWord 0x11)
  | .vxor f => some (f.slot, f.toWord 0x12)
  | .vshl f => some (f.slot, f.toWord 0x13)
  | .vshr f => some (f.slot, f.toWord 0x14)
  | .vsar f => some (f.slot, f.toWord 0x15)
  | .vcmp f => some (f.slot, f.toWord 0x20)
  | .vsel f => some (f.slot, f.toWord 0x21)
  | .vtest f => some (f.slot, f.toWord 0x22)
  | .vcvt f => some (f.slot, f.toWord 0x30)
  | .vqmx f => some (f.slot, f.toWord 0x31)
  | .vdqmx f => some (f.slot, f.toWord 0x32)
  | .vpack f => some (f.slot, f.toWord 0x33)
  | .vunpack f => some (f.slot, f.toWord 0x34)
  | .vrsum f => some (f.slot, f.toWord 0x40)
  | .vrmax f => some (f.slot, f.toWord 0x41)
  | .vrmin f => some (f.slot, f.toWord 0x42)
  | .vargmax f => some (f.slot, f.toWord 0x43)
  | .vscan f => some (f.slot, f.toWord 0x44)
  | .vbcast f => some (f.slot, f.toWord 0x50)
  | .vshuf f => some (f.slot, f.toWord 0x51)
  | .vrot f => some (f.slot, f.toWord 0x52)
  | .vcompress f => some (f.slot, f.toWord 0x53)
  | .vmov f => some (f.slot, f.toWord 0x54)
  | .vrand f => some (f.slot, f.toWord 0x60)
  | .mmould f => some (.m, f.toWord 0x01)
  | .mflow f => some (.m, f.toWord 0x02)
  | .minit f => some (.m, f.toWord 0x03)
  | .mrun f => some (.m, f.toWord 0x04)
  | .mruns f => some (.m, f.toWord 0x05)
  | .mdrain f => some (.m, f.toWord 0x06)
  | .msave f => some (.m, f.toWord 0x07)
  | .mrest f => some (.m, f.toWord 0x08)
  | .mpop f => some (.m, f.toWord 0x09)
  | .mwait f => some (.m, f.toWord 0x0A)
  | .cpy f => some (f.slot, f.toWord 0x01)
  | .cpyt f => some (f.slot, f.toWord 0x02)
  | .cgath f => some (f.slot, f.toWord 0x03)
  | .cscat f => some (f.slot, f.toWord 0x04)
  | .cbind f => some (f.slot, f.toWord 0x05)
  | .cring f => some (f.slot, f.toWord 0x06)
  | .cbcast f => some (f.slot, f.toWord 0x07)
  | .cfill f => some (f.slot, f.toWord 0x08)
  | .carm f => some (f.slot, f.toWord 0x09)
  | .cwait f => some (f.slot, f.toWord 0x0A)
  | .vtcfg f => some (.s, f.toWord 0x00)
  | .vtenq f => some (.s, f.toWord 0x01)
  | .vtfire f => some (.s, f.toWord 0x02)
  | .vtstat f => some (.s, f.toWord 0x03)
  | .vtclose f => some (.s, f.toWord 0x04)
  | .cbset f => some (.s, f.toWord 0x05)
  | .cbput f => some (.s, f.toWord 0x06)
  | .cbstat f => some (.s, f.toWord 0x07)
  | .txnorm f => some (.s, f.toWord 0x20)
  | .txenc f => some (.s, f.toWord 0x21)
  | .txdec f => some (.s, f.toWord 0x22)
  | .grload f => some (.s, f.toWord 0x28)
  | .gradv f => some (.s, f.toWord 0x29)
  | .grmask f => some (.s, f.toWord 0x2A)
  | .grstat f => some (.s, f.toWord 0x2B)
  | .stopset f => some (.s, f.toWord 0x30)
  | .stopchk f => some (.s, f.toWord 0x31)
  | .cljoin f => some (.s, f.toWord 0x40)
  | .clleave f => some (.s, f.toWord 0x41)
  | .clstat f => some (.s, f.toWord 0x42)
  | .clceil f => some (.s, f.toWord 0x43)
  | .fwin f => some (.s, f.toWord 0x50)
  | .fwstat f => some (.s, f.toWord 0x51)
  | .fwclose f => some (.s, f.toWord 0x52)
  | .storePerformed _ _ => none
  | .wmwaitExpiry => none
  | .fabricPayloadRead _ _ => none
  | .fredLaunchTick _ => none
  | .abandonNoticeResend => none
  | .streamIdleExpiry => none
  | .linkDown _ => none
  | .outOfStepTimeout => none
  | .ethernetLinkChange _ _ => none

/-- A branch word (R103): whether it calls, its shape, its tests and its leaf offsets. -/
structure Branch where
  call : Bool
  shape : Nat
  tests : List (BitVec 5)
  offs : List (BitVec 10)
  deriving DecidableEq, Repr

/-- The fields of a branch word (R103). -/
def Branch.ofWord (w : Word) : Branch :=
  { call := w.getLsbD 63, shape := (w.extractLsb' 60 3).toNat,
    tests := [w.extractLsb' 55 5, w.extractLsb' 50 5, w.extractLsb' 45 5, w.extractLsb' 40 5],
    offs := [w.extractLsb' 30 10, w.extractLsb' 20 10, w.extractLsb' 10 10, w.extractLsb' 0 10] }

/-- How many tests a shape uses (R104). -/
def shapeTests : Nat → Nat
  | 0 => 0 | 1 => 1 | 2 => 2 | 3 => 3 | 4 => 4 | 5 => 3 | 6 => 2 | _ => 0

/-- The leaves a shape can reach (R104). -/
def shapeLeaves : Nat → List Nat
  | 0 => [1] | 1 => [0, 1] | 2 => [0, 1, 2] | 3 => [0, 1, 2, 3] | 4 => [0, 1, 2, 3, 4] | 5 => [0, 1, 2, 3]
  | 6 => [0, 1, 2, 3] | _ => []

/-- Shape 7 is undefined, and the tests and offsets that a shape does not use are reserved (R104). -/
def Branch.ok (b : Branch) : Bool :=
  b.shape != 7 && (b.tests.drop (shapeTests b.shape)).all (· == 0) &&
  (b.offs.zipIdx 1).all (fun x => (shapeLeaves b.shape).contains x.2 || x.1 == 0)

/-- The leaf the tree takes for the values of its tests (R104). -/
def Branch.leaf (shape : Nat) (t : List Bool) : Nat :=
  let g := fun k => t.getD k false
  match shape with
  | 0 => 1
  | 5 => if g 0 then (if g 1 then 1 else 2) else (if g 2 then 3 else 0)
  | 6 => 2 * (g 1).toNat + (g 0).toNat
  | n => match (List.range n).find? g with
    | some k => k + 1
    | none => 0

/-- A decoded bundle (R85): its length in bytes, REP, the idle bit of each pipe in commit order, its branch word and
its operations in slot order. -/
structure Bundle where
  len : Nat
  rep : Nat
  idle : BitVec 12
  branch : Option Branch
  ops : List (Slot × Instr)
  deriving DecidableEq, Repr

/-- Why bytes are no bundle: too few of them, or an illegal encoding with the lowest report code of R114, R115. -/
inductive DecodeErr where
  | short
  | illegal (report : Nat)
  deriving DecidableEq, Repr

/-- The slots whose words a header announces (R85). -/
def headerSlots (h : BitVec 32) : List Slot := Slot.all.filter (fun sl => h.getLsbD (30 - sl.code))

/-- The length of the bundle a header begins (R86). -/
def headerLen (h : BitVec 32) : Nat := 4 + 8 * ((if h.getLsbD 31 then 1 else 0) + (headerSlots h).length)

/-- The place of pipe `u`'s idle bit in the header, `u` counting pipes in commit order from 0 (R85). -/
def idleBit (u : Nat) : Nat := 19 - 2 * (u / 2) + u % 2

def headerIdle (h : BitVec 32) : BitVec 12 :=
  BitVec.ofNat 12 ((List.range 12).foldr (fun u acc => acc + (if h.getLsbD (idleBit u) then 2 ^ u else 0)) 0)

/-- The PATH and the pipe of a slot word (R96). -/
def wordPath (w : Word) : Nat := (w.extractLsb' 54 3).toNat
def wordPipe (w : Word) : Nat := (w.extractLsb' 53 1).toNat

/-- The S-slot control transfers (R108). -/
def Instr.isTransfer : Instr → Bool
  | .jmpr _ => true
  | .call _ => true
  | .callr _ => true
  | .ret _ => true
  | .tend _ => true
  | .waittask _ => true
  | .yield _ => true
  | _ => false

/-- The end offset in bytes of a LOOP or LOOPX (R141). -/
def Instr.loopEnd : Instr → Option Int
  | .loop f => some (4 * (f.imm.extractLsb' 0 24).toInt)
  | .loopx f => some (4 * (f.imm.extractLsb' 0 24).toInt)
  | _ => none

/-- One slot word of a bundle on a core of type `k`: its instruction, or none for an illegal encoding reported against
its slot: the word by itself, an operation absent on the core type, a PATH the branch word cannot reach (R106), a
misplaced control transfer (R108), a loop that ends below its start (R141). -/
def decodeInBundle (k : CoreKind) (br : Option Branch) (len : Nat) (sl : Slot) (w : Word) : Option Instr :=
  match decodeWord sl w with
  | none => none
  | some i =>
    let path := wordPath w
    let pathOk := path = 0 || (match br with | none => false | some b => (shapeLeaves b.shape).contains (path - 1))
    let xferOk := !(br.isSome && i.isTransfer) || path = 1
    let loopOk := match i.loopEnd with | none => true | some e => decide ((len : Int) ≤ e)
    if i.onKind k && pathOk && xferOk && loopOk then some i else none

/-- The 64-bit words that follow a header, in ascending address order (R4, R85). -/
def wordsOf : Nat → List Byte → List Word
  | 0, _ => []
  | n + 1, l => BitVec.ofNat 64 (ofLe (l.take 8)) :: wordsOf n (l.drop 8)

/-- The bundle that begins at the first byte, on a core of type `k`; the bytes past its length are not read. The whole
bundle is decoded, and the lowest report code is reported (R115). A word in a slot that the core type lacks is reported
against the header only. -/
def decodeBundle (k : CoreKind) (bytes : List Byte) : Except DecodeErr Bundle :=
  if bytes.length < 4 then .error .short else
  let h := BitVec.ofNat 32 (ofLe (bytes.take 4))
  let len := headerLen h
  if bytes.length < len then .error .short else
  let slots := headerSlots h
  let nb := if h.getLsbD 31 then 1 else 0
  let words := wordsOf (nb + slots.length) (bytes.drop 4)
  let br := if nb = 1 then some (Branch.ofWord (words.headD 0)) else none
  let sw := slots.zip (words.drop nb)
  let dec := sw.map (fun x => (x.1, if x.1.onKind k then decodeInBundle k br len x.1 x.2 else none))
  let idle := headerIdle h
  let slotErr := dec.filterMap (fun x => if x.1.onKind k && x.2.isNone then some x.1.code else none)
  let absent := slots.any (fun sl => !sl.onKind k) ||
    (List.range 12).any (fun u => idle.getLsbD u && !((Slot.all.getD (u / 2) .s).onKind k))
  let named := sw.any (fun x => idle.getLsbD (2 * x.1.code + wordPipe x.2))
  let hdrErr := if h.extractLsb' 0 9 != 0 || absent || named then [6] else []
  let brErr := match br with | some b => if b.ok then [] else [7] | none => []
  match slotErr ++ hdrErr ++ brErr with
  | e :: _ => .error (.illegal e)
  | [] => .ok { len := len, rep := (h.extractLsb' 21 4).toNat, idle := idle, branch := br,
                ops := dec.filterMap (fun x => x.2.map (fun i => (x.1, i))) }

/-- The bytes of a bundle that holds one operation alone, issued once: header and word (R85). -/
def encode (i : Instr) : Option (List Byte) :=
  i.slotWord.map (fun x => leBytes 4 (2 ^ (30 - x.1.code)) ++ leBytes 8 x.2.toNat)

/-- The instruction read from the bundle whose bits are `w`: the operation of a bundle that holds one alone; an issue
of core 0's bundle where it holds none or several (R88). -/
def decodeTableWord (nbits w : Nat) : Option Instr :=
  match decodeBundle .main (leBytes 60 (w % 2 ^ nbits)) with
  | .error _ => none
  | .ok b =>
    match b.ops, b.branch with
    | [(_, i)], none => if b.rep = 0 && b.idle = 0 then some i else some (.bundleIssue 0)
    | _, _ => some (.bundleIssue 0)

end Sys2Proof
end

