-- ==== Sys2Proof/Machine/Flags.lean ====
section
/-! DEFINITION. The arithmetic flags (02_arithmetic.md R63, R66) and the rounding modes (R56). -/
namespace Sys2Proof.Machine

/-- The sticky flags of SW[39:35] (R37, R63). -/
structure Flags where
  iv : Bool
  dz : Bool
  ov : Bool
  uf : Bool
  nx : Bool
  deriving DecidableEq, Repr

def Flags.none : Flags := ⟨false, false, false, false, false⟩
def Flags.IV : Flags := ⟨true, false, false, false, false⟩
def Flags.DZ : Flags := ⟨false, true, false, false, false⟩
def Flags.OFNX : Flags := ⟨false, false, true, false, true⟩
def Flags.UFNX : Flags := ⟨false, false, false, true, true⟩
def Flags.NX : Flags := ⟨false, false, false, false, true⟩

/-- Flags are cumulative (R66). -/
def Flags.or (a b : Flags) : Flags :=
  ⟨a.iv || b.iv, a.dz || b.dz, a.ov || b.ov, a.uf || b.uf, a.nx || b.nx⟩

/-- The five bits as they stand in SW[39:35] and FPCTL[11:7]: IV, DZ, OF, UF, NX, most significant first (R37, R40). -/
def Flags.bits (f : Flags) : BitVec 5 :=
  BitVec.ofBool f.iv ++ BitVec.ofBool f.dz ++ BitVec.ofBool f.ov ++ BitVec.ofBool f.uf ++ BitVec.ofBool f.nx

/-- The flags of five bits in that order. -/
def Flags.ofBits (b : BitVec 5) : Flags :=
  ⟨b.getLsbD 4, b.getLsbD 3, b.getLsbD 2, b.getLsbD 1, b.getLsbD 0⟩

/-- The flags cleared where `m` has a one (W1C, R7). -/
def Flags.clear (f m : Flags) : Flags :=
  ⟨f.iv && !m.iv, f.dz && !m.dz, f.ov && !m.ov, f.uf && !m.uf, f.nx && !m.nx⟩

/-- Some flag is raised whose enable is set (R67). -/
def Flags.enabled (f ten : Flags) : Bool :=
  (f.iv && ten.iv) || (f.dz && ten.dz) || (f.ov && ten.ov) || (f.uf && ten.uf) || (f.nx && ten.nx)

def Flags.all (l : List Flags) : Flags := l.foldl Flags.or Flags.none

/-- The rounding modes (R56). -/
inductive Rm where
  | rne
  | rtz
  | rup
  | rdn
  | sr
  deriving DecidableEq, Repr

/-- The mode of an FPCTL.RM code; a SETS stores 0 for the codes 5 to 7 (R40). -/
def Rm.ofCode : Nat → Rm
  | 1 => .rtz
  | 2 => .rup
  | 3 => .rdn
  | 4 => .sr
  | _ => .rne

end Sys2Proof.Machine
end

