-- ==== Sys2Proof/Machine/Tbl.lean ====
section
/-! DEFINITION. Sparse tables: the plain-data form of every indexed memory of the machine. A table lists the entries
that differ from a default, in ascending order of their index; an unlisted index reads as the default. -/
namespace Sys2Proof.Machine

/-- Entries of index and value. -/
abbrev Tbl (α : Type) := List (Nat × α)

/-- The value at index `k`, `d` where none is listed. -/
def Tbl.get {α : Type} (d : α) : Tbl α → Nat → α
  | [], _ => d
  | e :: r, k => if e.1 = k then e.2 else Tbl.get d r k

/-- Insert an entry before the first listed index above it. -/
def Tbl.ins {α : Type} (k : Nat) (v : α) : Tbl α → Tbl α
  | [] => [(k, v)]
  | e :: r => if k < e.1 then (k, v) :: e :: r else e :: Tbl.ins k v r

/-- The table with index `k` unlisted. -/
def Tbl.del {α : Type} (t : Tbl α) (k : Nat) : Tbl α := t.filter (fun e => e.1 != k)

/-- The table with `v` at index `k`; writing the default removes the entry. -/
def Tbl.set {α : Type} [DecidableEq α] (d : α) (t : Tbl α) (k : Nat) (v : α) : Tbl α :=
  if v = d then t.del k else (t.del k).ins k v

/-- `n` values from index `k` upward, of a table in ascending order. -/
def Tbl.readFrom {α : Type} (d : α) : Tbl α → Nat → Nat → List α
  | _, _, 0 => []
  | [], k, n + 1 => d :: Tbl.readFrom d [] (k + 1) n
  | e :: r, k, n + 1 => if e.1 = k then e.2 :: Tbl.readFrom d r (k + 1) n else d :: Tbl.readFrom d (e :: r) (k + 1) n
def Tbl.read {α : Type} (d : α) (t : Tbl α) (k n : Nat) : List α := Tbl.readFrom d (t.dropWhile (fun e => e.1 < k)) k n

/-- The table with the values of a list from index `k` upward. -/
def Tbl.setRange {α : Type} [DecidableEq α] (d : α) (t : Tbl α) (k : Nat) (l : List α) : Tbl α :=
  t.filter (fun e => e.1 < k) ++ ((l.zipIdx k).map (fun e => (e.2, e.1))).filter (fun e => e.2 != d) ++
    t.filter (fun e => decide (k + l.length ≤ e.1))

/-- The canonical form: indexes strictly rising, no entry equal to the default. -/
abbrev Tbl.wf {α : Type} [DecidableEq α] (d : α) (t : Tbl α) : Prop :=
  t.Pairwise (fun a b => a.1 < b.1) ∧ ∀ e ∈ t, e.2 ≠ d

end Sys2Proof.Machine
end

