-- ==== Sys2Proof/Machine/State.lean ====
section
/-! DEFINITION. The state of one module as plain data (01_machine_state.md and the unit chapters), its faults and
refusals, and the state after reset. INVENTORY.md lists each field with the rule that names it. -/
namespace Sys2Proof.Machine

/-- Why the model stops. -/
inductive Fault where
  /-- Raised by `step` alone: the module has no power (19_host_boot_power.md R479) and no input is left that could
  bring it back, so nothing happens any more. Safe. -/
  | poweredOff
  deriving DecidableEq, Repr

/-- Why the model gives an instruction no meaning. -/
inductive Refusal where
  /-- Raised by an arm of `exec` alone, for an instruction the model has not reached. Safe. -/
  | notModelled (mnemonic : String)
  deriving DecidableEq, Repr

/-! ### Context state (01_machine_state.md) -/

/-- A ring (R25, R214). `full` remembers, of a slot whose last arrival filled it, the owning core's cycle and the engine, so
that an arrival of another engine in that cycle is seen to pass the slot's size (R26). -/
structure Ring where
  base : Nat
  slotb : Nat
  nslot : Nat
  head : Nat
  tail : Nat
  cnt : Tbl Nat
  ph : BitVec 32
  hl : Bool
  tl : Bool
  full : Tbl (Option (Nat × Nat)) := []
  deriving DecidableEq, Repr

def Ring.empty : Ring := ⟨0, 0, 0, 0, 0, [], 0, false, false, []⟩

/-- A byte barrier (R27); a target of 0 stands for 2^24. `full` is as a ring slot's. -/
structure Barrier where
  target : Nat
  count : Nat
  phase : Bool
  full : Option (Nat × Nat) := none
  deriving DecidableEq, Repr

def Barrier.empty : Barrier := ⟨0, 0, false, none⟩

/-- A stream register: the vectors that have arrived, oldest first, and whether a copy command is bound (R28). -/
structure Stream where
  vecs : List Row
  bound : Bool
  deriving DecidableEq, Repr

def Stream.empty : Stream := ⟨[], false⟩

/-- An operand port: its PORTCFG value, counts word, strides word and four 16-bit indices (R29, R153). -/
structure Port where
  configured : Bool
  write : Bool
  base : BitVec 15
  counts : Word
  strides : Word
  idx : Word
  deriving DecidableEq, Repr

def Port.empty : Port := ⟨false, false, 0, 0, 0, 0⟩

/-- A handle: the word HINFO returns, and the virtual page address it was translated from (R32). -/
structure Handle where
  info : Word
  va : BitVec 57
  deriving DecidableEq, Repr

def Handle.empty : Handle := ⟨0, 0⟩

/-- A loop counter: remaining count (0 = inactive), start and end bundle addresses (R34). -/
structure LoopCtr where
  count : Nat
  start : Nat
  stop : Nat
  deriving DecidableEq, Repr

def LoopCtr.empty : LoopCtr := ⟨0, 0, 0⟩

/-- The status word's fields (R37). -/
structure Status where
  cause : BitVec 6
  prio : BitVec 2
  preq : Bool
  replay : Bool
  disc : Bool
  late : Bool
  bovr : Bool
  flags : Flags
  resume : Nat
  repidx : Nat
  deriving DecidableEq, Repr

def Status.empty : Status := ⟨0, 0, false, false, false, false, false, Flags.none, 0, 0⟩

/-- The architected registers of a context (R15 to R41). Indexed registers are sparse tables. -/
structure Ctx where
  sreg : Tbl Word            -- s1 to s31 (R15)
  predV : BitVec 16          -- V of p0 to p15 (R16)
  predW : BitVec 16          -- W of p0 to p15
  tile : Tbl Row             -- row j of tn at 128 n + j (R18)
  bank : BitVec 8            -- two bits a bank, codes of R150 (R20)
  mirror : Tbl Nat           -- mirror partner of each tile, 255 = none (R21)
  acc : Tbl (BitVec 32)      -- word (i, j) of acc(a) at 16384 a + 128 i + j (R22)
  accKind : Tbl Nat          -- 0 FP32, 1 INT32, 2 score, 3 packed B1 (R22)
  mould : Tbl (Option (BitVec 4096))   -- the 512-byte image in each mould slot, or none (R23)
  flow : BitVec 5            -- MFLOW's [4:2] SKEW, [1:0] PAT (R224)
  spad : Tbl Byte            -- the scratchpad (R24)
  ring : Tbl Ring            -- rg0 to rg7 (R25)
  bb : Tbl Barrier           -- bb0 to bb15 (R27)
  stream : Tbl Stream        -- q0 to q7 (R28)
  port : Tbl Port            -- x0 to x7 (R29)
  latchV : Tbl Row           -- b0 to b3 (R31)
  latchS : Tbl Word          -- b4, b5
  handle : Tbl Handle        -- h0 to h15 (R32)
  sem : Tbl Nat              -- sem0 to sem15 (R33)
  loop : Tbl LoopCtr         -- lc0 to lc3 (R34)
  ras : List Nat             -- the on-chip return addresses, youngest first (R35)
  depth : Nat                -- DEPTH (R35)
  sw : Status                -- SW (R37)
  pword : Word               -- PWORD (R39)
  deadline : BitVec 32       -- DEADLINE (R36)
  ovfptr : Word              -- OVFPTR
  seed : Word                -- SEED
  dispret : Word             -- DISPRET
  fpctl : Word               -- FPCTL (R40)
  ctxid : Word               -- CTXID (R41)
  duty : Word                -- DUTY (R41)
  tdepth : Nat               -- TDEPTH (09 R282)
  deriving DecidableEq, Repr

/-- A context as R17, R20, R22 to R25, R34 to R40 and 12 R344 create it. -/
def Ctx.fresh : Ctx :=
  { sreg := [], predV := 0, predW := 0xFFFF, tile := [], bank := 0xE4, mirror := [], acc := [], accKind := [],
    mould := [], flow := 0, spad := [], ring := [], bb := [], stream := [], port := [], latchV := [], latchS := [],
    handle := [], sem := [], loop := [], ras := [], depth := 0, sw := Status.empty, pword := 0x601,
    deadline := 18000, ovfptr := 0, seed := 0, dispret := 0, fpctl := 0, ctxid := 0, duty := 0, tdepth := 0 }

/-! ### The sequencer (03_bundle_encoding.md, 09_traps_preemption_context.md) -/

/-- A pipe's capture record (09 R517). -/
structure Capture where
  c0 : Word
  c1 : Word
  c2 : Word
  stream : BitVec 16
  deriving DecidableEq, Repr

def Capture.empty : Capture := ⟨0, 0, 0, 0⟩

/-- A pipe: its remembered slot word, the naming bundle, the re-issue index, the beats left and the stepped tile index
(03 R91, 09 R283), with its capture record. `hid`: the naming issue drew nothing, so that the record is not part of a frame
(09 R517). -/
structure Pipe where
  mem : Bool
  word : Word
  naming : Nat
  n : Nat
  beats : Nat
  tile : Nat
  cap : Capture
  hid : Bool := false
  deriving DecidableEq, Repr

def Pipe.empty : Pipe := ⟨false, 0, 0, 0, 0, 0, Capture.empty, false⟩

/-- The commit unit in hand: its core and number, where its operation stands, and what its pipe holds for it. -/
structure UnitCtx where
  core : Nat
  unit : Nat
  bundle : Nat
  len : Nat
  rep : Nat
  naming : Nat
  n : Nat
  tile : Nat
  word : Word
  cap : Capture
  deriving DecidableEq, Repr

def UnitCtx.empty : UnitCtx := ⟨0, 1, 0, 0, 0, 0, 0, 0, 0, Capture.empty⟩

/-- What becomes visible when a lockstep operation lands (03 R90). -/
inductive LandEff where
  /-- A scalar result to a register, a latch and a predicate (04 R126, R135). -/
  | scalar (dst : Option Nat) (latch : Option Nat) (v : Word) (pred : Option (Nat × Bool))
  /-- A predicate alone (04 R134, 06 R199); the latch of a scalar pipe holds it as 0 or 1. -/
  | pred (p : Nat) (v : Bool) (latch : Option Nat)
  /-- PINV (04 R134). -/
  | pinv (p : Nat)
  /-- A vector row to a latch and to a tile (06 R187): tile and row, or a column image of width `w` (01 R19). -/
  | row (latch : Nat) (tile : Option (Nat × Nat × Bool × Nat)) (v : Row)
  /-- Scratchpad bytes of STS or of a port write (05 R163, 01 R29), with the latch of a vector pipe. -/
  | spad (addr : Nat) (bytes : List Byte)
  /-- SETS (04 R148). -/
  | special (idx : Nat) (v : Word)
  /-- Flags of a lockstep operation: set at the end of the cycle, whatever a W1C write of the cycle clears (02 R66). -/
  | flags (f : BitVec 5)
  /-- BLEND (04 R150). -/
  | bank (b : Nat) (slot : Nat)
  /-- TMIRROR's pairing, its copy landing with it, and its unpairing (04 R152). -/
  | pair (a b : Nat)
  | unpair (a : Nat)
  /-- PORTCFG and RINGCFG (04 R153, R154). -/
  | portcfg (n : Nat) (p : Port)
  | ringcfg (n : Nat) (r : Ring)
  /-- SEMSIG and SEMSET (05 R174). -/
  | semAdd (k v : Nat)
  | semSet (k v : Nat)
  /-- The latches cleared as a timed block starts or ends (05 R178). -/
  | clearLatch
  /-- HREL of the handles whose bits are set (05 R169). -/
  | hrel (mask : BitVec 16)
  /-- TRN at L (05 R168). -/
  | trn (hn : Nat) (pd : Nat) (wr : Bool) (va : BitVec 57) (dst : Option Nat) (latch : Option Nat)
  deriving DecidableEq, Repr

/-- A scheduled result: the issue cycles left, the issue it came from, its unit. -/
structure Pending where
  left : Nat
  issue : Nat
  unit : Nat
  eff : LandEff
  deriving DecidableEq, Repr

/-- A pending control transfer (04 R136, 09 R283). -/
inductive Xfer where
  | jump (target : Nat) (pushed : Bool)
  | tend
  | waittask
  | yield
  | trapRet
  deriving DecidableEq, Repr

/-- What the core is doing. -/
inductive Phase where
  /-- No context (01 R12). -/
  | off
  /-- Issuing, or stalled (03 R89). -/
  | run
  /-- TEND's wait for retired commands and COP replies (04 R146). -/
  | ending
  /-- YIELD's wait for retired commands (04 R145). -/
  | yielding
  /-- The drains of a restartable trap (09 R278). -/
  | trapDrain
  /-- The drains of a forced save (09 R288). -/
  | saveDrain
  /-- A trap return waiting for commands and replies (09 R284). -/
  | trapRet
  /-- Replay of discarded commands (09 R285). -/
  | replay
  /-- The drains of a fatal context error (09 R293). -/
  | fatal
  deriving DecidableEq, Repr

/-- A restartable trap taken: its cause, its unit, and INFO0 and INFO1 (09 R282, R283). -/
structure Trap where
  cause : Nat
  unit : Nat
  info0 : Word
  info1 : Word
  deriving DecidableEq, Repr

/-- A fatal cause taken: cause, slot report, detail and bundle address (09 R293, R294, R518). -/
structure Fatal where
  cause : Nat
  slot : Nat
  detail : Nat
  addr : Nat
  deriving DecidableEq, Repr

/-- The reason a bundle does not issue (03 R89): a branch test, or the first unit whose condition holds. -/
inductive Stall where
  | branch
  | unit (u : Nat)
  deriving DecidableEq, Repr

/-- A physical place in HBM: die, address within the die, the ordering attribute of its page (10 R299, 05 R162), and that
page's first frame (11 R326). -/
structure Place where
  die : Nat
  pa : Nat
  order : Nat
  page : Nat
  deriving DecidableEq, Repr

/-- An outstanding LD or ATOM (05 R161). -/
structure Load where
  issue : Nat
  bundle : Nat
  place : Place
  size : Nat
  sx : Bool
  dst : Option Nat
  latch : Nat
  sem : Option Nat
  atom : Option (Nat × Nat × Nat)   -- AOP, operand, expected value
  birth : Nat                -- QSEQ as it issued (10 R314)
  deriving DecidableEq, Repr

/-- An ST not yet performed (05 R161). -/
structure Store where
  issue : Nat
  bundle : Nat
  place : Place
  bytes : List Byte
  sem : Option Nat
  birth : Nat
  deriving DecidableEq, Repr

/-- An outstanding COP command (03 R109, 08 R248): its register or none, its latch, and what the unit answered: the
reply, tile rows to write from a row on, and a predicate (08 R265). -/
structure Cop where
  id : Nat
  dst : Nat
  latch : Nat
  answer : Option Word
  rows : List Row
  tile : Nat
  row0 : Nat
  pred : Option (Nat × Bool)
  key : Nat                  -- its place among the core's issues (05 R161)
  deriving DecidableEq, Repr

/-- An open timed block (05 R178). -/
structure Block where
  start : Nat
  limit : Nat
  deriving DecidableEq, Repr

/-- What task a core holds (12 R351 to R362). -/
structure Task where
  kind : Nat          -- 1 loop nest, 2 timed block, 3 dynamic, 4 continuation of a branch node, 5 vat firing
  node : Nat          -- TCB number
  cls : Nat
  rseq : Nat          -- ready sequence
  lin : Nat           -- linear iteration, ticket or record sequence number
  s24 : List Word     -- s24 to s31 as handed over
  entry : Nat
  deriving DecidableEq, Repr

/-- The sequencer of a core. -/
structure Seqr where
  phase : Phase
  pc : Nat
  rep : Nat
  resume : Nat
  leaf : Option Nat
  xfer : Option Xfer
  loopSkip : Option Nat      -- the rule-4 transfer of a LOOP with trip 0 (04 R141)
  pipes : Tbl Pipe
  pipes0 : Tbl Pipe          -- as they stood at the start of the issue (09 R279)
  pend : List Pending
  issue : Nat                -- issues so far
  regIssue : Tbl Nat         -- the issue that last wrote each scalar register (05 R161)
  loads : List Load
  stores : List Store
  cops : List Cop
  copNext : Nat
  stall : Option Stall
  idleCycles : Nat           -- the watchdog's count (09 R292)
  waitTick : Option Nat      -- the tick from which a WMWAIT waits (05 R183)
  waiting : Bool             -- stalled in WAITTASK (04 R147)
  waitFrom : Nat             -- the tick from which it waits there (12 R356)
  handed : Option Task       -- handed over, not yet started
  task : Option Task
  blk : Option Block
  preempt : Option Nat       -- the deadline countdown (09 R287)
  slot : Option Nat          -- the save slot reserved (12 R362)
  preItem : Option (Nat × Nat × Nat)  -- the item the request was raised for: ready sequence, TCB, iteration (12 R362)
  trap : Option Trap
  split : Option Nat         -- this issue ends at a forced save before this unit; 13: once it is complete (09 R288)
  frozen : Bool              -- the countdown stands still until the re-entered issue (09 R285)
  opened : Bool              -- an issue cycle is under way
  probe : Option (Nat × Option Nat)   -- the address a PROBE waits on, and a service's failure for it (10 R310)
  fatal : Option Fatal
  fatalUnit : Nat            -- the commit unit that the fatal cause came from, 16 for another source (09 R275)
  later : Option Fatal       -- a unit's cause of the open cycle: it comes after those of commit units (09 R275)
  fatalTick : Option Nat     -- the tick of its detection (09 R294)
  other : Option Nat         -- the node that R443 or R449 names for the fatal cause, where the context holds no task (09 R518)
  cycles : Nat               -- cycles of the core so far
  deriving DecidableEq, Repr

def Seqr.empty : Seqr :=
  { phase := .off, pc := 0, rep := 0, resume := 0, leaf := none, xfer := none, loopSkip := none, pipes := [],
    pipes0 := [], pend := [], issue := 0, regIssue := [], loads := [], stores := [], cops := [], copNext := 0,
    stall := none, idleCycles := 0, waitTick := none, waiting := false, waitFrom := 0, handed := none, task := none, blk := none,
    preempt := none, slot := none, preItem := none, trap := none, split := none, frozen := false, opened := false, probe := none, fatal := none,
    fatalUnit := 16, later := none,
    fatalTick := none, other := none, cycles := 0 }

/-! ### Engine commands (07_matrix_copy_instructions.md, 09 R281) -/

/-- A decoupled command: what its issue captured (07 R210, 09 R281) and, once started, its progress. -/
structure Cmd where
  q : Nat                    -- 0 M, 1 C0, 2 C1
  tag : Nat
  unit : Nat
  word : Word
  naming : Nat
  issuing : Nat
  rep : Nat
  n : Nat
  ra : Word
  rb : Word
  seed : Word
  rm : Nat
  fz : Bool
  stream : BitVec 16
  banks : BitVec 8
  started : Bool
  failed : Option Nat        -- a fault found at its start or on the way
  prog0 : Nat                -- panels, accumulators, groups or pops done; for a copy, granules to deliver in all
  prog1 : Nat                -- K-block within the panel
  done : List Nat            -- granules delivered
  slotNo : Option Nat        -- the ring slot CRING claimed
  blk : List Byte            -- the parameter block as read at the start
  aux : List Byte            -- index list or mould image as read at the start
  hs : Handle                -- the handles read at the start
  hd : Handle
  flags : Flags
  finished : Bool            -- all work done, waiting to retire
  key : Nat                  -- its place among the core's issues (05 R161)
  guarded : Bool             -- its guard was evaluated true (03 R102)
  resumed : Bool             -- it was suspended before
  birth : Nat                -- QSEQ as it started (10 R314)
  rows : List (Nat × Option (List Byte))   -- CGATH: each index read, its bytes or none on an error (07 R238)
  dense : List (BitVec 32)   -- MRUNS: the accumulator of the dense computation its flags are those of (02 R79)
  old : List (Nat × Byte)    -- scratchpad bytes as they stood before an STS that is not visible to it (05 R164)
  deriving DecidableEq, Repr

/-- The engine queues of a core and the commands in flight. -/
structure Eng where
  queue : List Cmd           -- not yet started, in tag order, all three queues
  fly : List Cmd             -- started, in start order
  tagNext : Nat
  lastRing : Tbl (Option (Nat × Nat))   -- the ring and slot the last CRING of each queue claimed (07 R242)
  replay : List Cmd          -- discarded commands to enter again (09 R285)
  kept : Tbl (List Cmd)      -- the commands suspended in trap frame n, in recorded order, their pages pinned (07 R210)
  deriving DecidableEq, Repr

def Eng.empty : Eng := ⟨[], [], 0, [], [], []⟩

/-- A core: the job and context it holds, its registers, sequencer and engines; a lookup core's counters (15 R405). -/
structure Core where
  ctx : Ctx
  seq : Seqr
  eng : Eng
  job : Option Nat
  cgen : BitVec 8
  ldq : Tbl Nat              -- 0 LDQ0, 1 LDQ1, 2 LDSEQ, 3 LOOKUPS, 4 FETCHES, 5 ZFILLS
  deriving DecidableEq, Repr

def Core.empty : Core := ⟨Ctx.fresh, Seqr.empty, Eng.empty, none, 0, []⟩
/-- The task that the core's context holds: from the handoff, though it has not begun (12 R352). -/
def Core.holds (k : Core) : Option Task := k.seq.task.or k.seq.handed

/-! ### Memory and translation (10_memory_translation.md) -/

/-- A translation-cache entry: one page of a job on a die; no leaf means that the walk found no mapping (R305). An entry of
die 4 has left its cache (log 31). -/
structure TEntry where
  die : Nat
  job : Nat
  page : Nat
  size : Nat
  leaf : Option Word
  bad : Bool                 -- a parity error has struck it: the next lookup drops it (R316)
  deriving DecidableEq, Repr

/-- A background walk for a page of a job, asked for by a die (R305). -/
structure Walk where
  die : Nat
  job : Nat
  va : Nat
  birth : Nat
  deriving DecidableEq, Repr

/-- A fault service in progress: by hardware, or by the host under event `ev` (R309, R310). -/
structure Service where
  job : Nat
  page : Nat
  size : Nat
  pte : Nat
  die : Nat
  ev : Option Nat
  waiters : List (Nat × Nat) -- the requesters that wait for it, besides TRN and PROBE, each with its birth (R310, R314)
  deriving DecidableEq, Repr

/-- The failed outcome of a service: a status code of 05 R167, and the waiters that have not yet received it (R310). -/
structure Served where
  job : Nat
  page : Nat
  status : Nat
  waiters : List (Nat × Nat)
  deriving DecidableEq, Repr

/-- A page the migration engine has marked (R313). -/
structure Mig where
  job : Nat
  page : Nat
  pte : Nat
  fromDie : Nat
  fromPb : Nat
  toDie : Nat
  toPb : Nat
  deriving DecidableEq, Repr

/-- A quarantined frame: its stamp and its job (R314). -/
structure Quar where
  die : Nat
  pbase : Nat
  stamp : Nat
  job : Nat
  deriving DecidableEq, Repr

/-- A range of an invalidation still to apply, by force or not (R307, R308), with the SEQ of its datagram. -/
structure Inval where
  job : Nat
  va : Nat
  len : Nat
  force : Bool
  seq : Nat
  deriving DecidableEq, Repr

/-- An error-log record (R520). -/
structure ErrRec where
  tick : Nat
  die : Nat
  reader : Nat
  num : Nat
  addr : Nat
  ctxid : Word
  deriving DecidableEq, Repr

/-- HBM and translation. HBM byte `a` of die `d` is at `2^38 d + a`; a frame is `2^22 d + PBASE`; a block is its first
byte's index divided by 64. -/
structure Mem where
  hbm : Tbl Byte
  poison : Tbl Bool          -- blocks marked poisoned (R317)
  soft : Tbl Bool            -- blocks holding a correctable error (R316)
  bad : Tbl Bool             -- blocks holding an uncorrectable error not yet found (R317)
  sramSoft : Tbl Bool        -- words with a correctable error (R316): of a pool, 2^20 core + word; of a core's registers,
                             -- stream registers and engine queues, 2^28 + 2^12 core + word
  sramBad : Tbl Bool         -- words with an uncorrectable error (R316, R317)
  discarded : Tbl Bool       -- discarded frames (R315)
  cerr : Tbl Word            -- corrected-error counters (R316)
  elog : List ErrRec         -- the newest 128 records of each die, newest first (R520)
  elogN : Tbl Nat            -- records of each die so far
  tcache : List TEntry
  walks : List Walk
  services : List Service
  served : List Served
  pins : Tbl Nat             -- pin count of each frame (R306)
  acc : Tbl Nat              -- access counter: 4 frame + requesting die (R311)
  held : Tbl Bool            -- counters held at the threshold, their page being pinned (R312)
  migs : List Mig
  qseq : Nat                 -- QSEQ (R314)
  qdiv : Nat                 -- tick at which QSEQ last advanced
  quar : List Quar           -- quarantine, oldest first
  released : List Quar       -- released lists, oldest first
  reserve : List (Nat × Nat) -- the module's reserve: die and PBASE
  invals : List Inval
  halved : Nat               -- tick of the last halving of the access counters (R311)
  deriving DecidableEq, Repr

def Mem.empty : Mem :=
  { hbm := [], poison := [], soft := [], bad := [], sramSoft := [], sramBad := [], discarded := [], cerr := [], elog := [],
    elogN := [], tcache := [], walks := [], services := [], served := [], pins := [], acc := [], held := [], migs := [], qseq := 0,
    qdiv := 0, quar := [], released := [], reserve := [], invals := [], halved := 0 }

/-! ### Jobs and the scheduler (12_task_scheduler.md) -/

/-- A fault stamp (09 R294). -/
structure Stamp where
  cause : Nat
  slot : Nat
  detail : Nat
  tcb : Nat
  addr : Nat
  tick : Nat
  ctxid : Word
  deriving DecidableEq, Repr

/-- A TCB's descriptive fields (R346, R347), as the scheduler read them at launch. -/
structure Tcb where
  kind : Nat
  cls : Nat
  claim : Bool
  tmpl : Bool
  pcount0 : Nat
  succ : List Nat
  mcores : Word
  lcores : Word
  entry : Nat
  levels : List (Nat × Nat)  -- count and kind of each level
  tick : Nat
  cycles : Nat
  waits : Nat
  cond : Nat
  ntrue : Nat
  body : Nat
  nbody : Nat
  back : Nat
  value : Word
  deriving DecidableEq, Repr

def Tcb.empty : Tcb :=
  { kind := 0, cls := 0, claim := false, tmpl := false, pcount0 := 0, succ := [], mcores := 0, lcores := 0, entry := 0,
    levels := [], tick := 0, cycles := 0, waits := 0, cond := 0, ntrue := 0, body := 0, nbody := 0, back := 0, value := 0 }

/-- A node's live state (R349, R353, R354): STATE as in R346, the ready sequence, the iterations handed out and
completed, the leases, the tickets to issue again, and the stamp. -/
structure Node where
  state : Nat
  pcount : Nat
  live : Bool
  rseq : Nat
  next : Nat                 -- claim mode: the next new ticket
  handed : List (Nat × Nat)  -- core and iteration or ticket handed out and not completed
  doneN : Nat                -- iterations or tickets completed
  gone : List Nat            -- push mode: linear iterations handed out or completed
  cset : List Nat            -- its core set as it stood when it became ready (R353, R355)
  chain : List (Nat × Nat)   -- push mode: the moves of a killed core's iterations, oldest first: from core to core (R355)
  decided : Bool             -- a branch node has read its condition word (R358)
  again : List Nat           -- claim mode: tickets to issue again (R355)
  waitEv : Option Nat        -- the event a host-signal node waits on (R361)
  cond : Word                -- the condition word a branch node read (R358)
  cancel : Bool              -- cancelled while its tasks still run (R363)
  stamp : Option Stamp
  deriving DecidableEq, Repr

def Node.empty : Node :=
  { state := 0, pcount := 0, live := false, rseq := 0, next := 0, handed := [], doneN := 0, gone := [],
    again := [], cset := [], chain := [], decided := false, waitEv := none, cond := 0, cancel := false, stamp := none }

/-- A dynamic-queue record (R357): its place, its state as in R357, its fields. -/
structure Dyn where
  place : Nat
  state : Nat
  args : List Word
  tcb : Nat
  succ : Option Nat
  cls : Nat
  num : Nat
  rseq : Nat
  deriving DecidableEq, Repr

/-- A vat firing waiting to be handed out (R360, 14 R394). -/
structure Firing where
  vat : Nat
  tmpl : Nat
  cls : Nat
  count : Nat
  fseq : Nat
  rseq : Nat
  deriving DecidableEq, Repr

/-- A saved task (R362): the slot it was saved to, and whether it is waiting or being restored. -/
structure Saved where
  slot : Nat
  task : Task
  order : Nat
  core : Nat                 -- the core that saved it
  blk : Option Block         -- a timed block still open: the cycles it had run, and its limit
  kind : CoreKind
  kinds : Tbl Nat            -- the accumulators' word kinds (01 R22; log 11)
  ports : List Nat           -- the ports that are configured (04 R153; log 11)
  kept : Tbl (List Cmd)      -- the commands suspended by the save (0) and in its trap frames, whose pages are unpinned (07 R210)
  deriving DecidableEq, Repr

/-- A live job (R342, R343): its launch record, its code, its graph and its dynamic work. -/
structure Job where
  num : Nat
  pword : Word
  duty : Word
  deadline : BitVec 32
  seed : Word
  ovfptr : Word
  dispret : Nat
  probev : Nat
  arithv : Nat
  trapv : Nat
  hanglog : Nat
  dynq : Nat
  dyncap : Nat
  saveslots : Nat
  savebase : Nat
  ntcb : Nat
  tgraph : Nat               -- VADDR of the task-graph section
  ptroot : Word
  migthresh : Nat
  hosttmo : Nat
  flist : List Word          -- FLIST0 to FLIST3
  discw : Word
  code : List (Nat × Nat)    -- code sections: VADDR and MSIZE
  bytes : Tbl Byte           -- their contents by virtual address
  start : List Word          -- the start vector
  measure : Nat              -- SHAKE256 of the image (19 R477)
  tcb : Tbl Tcb
  node : Tbl Node
  dyn : List Dyn
  recSeq : Nat
  firings : List Firing
  saved : List Saved
  slots : List Nat           -- save slots in use or reserved
  gone : List Nat            -- cores that left every core set until a START (R355)
  frozen : Bool
  stamps : List (Stamp × Option Nat)   -- stamps still to spread: the stamp and its node (R363)
  stampSent : Bool           -- the first stamp event was sent (R364)
  stampEv : Option Nat       -- the event whose acknowledgement ends the freeze (R364)
  complete : Bool
  ending : List Nat          -- the SEQs of the JOBENDs that wait for its write-backs (R345; 19 R473)
  deriving DecidableEq, Repr

/-- A write of the scheduler's own to a job's memory that waits for its page (10 R310, 12 R345, R357): `table` for a write-back
to the task-graph section. -/
structure SchedWrite where
  num : Nat
  job : Nat
  va : Nat
  bytes : List Byte
  table : Bool
  deriving DecidableEq, Repr

/-- The scheduler (R350). -/
structure Sched where
  jobs : Tbl (Option Job)
  readySeq : Nat
  saveOrder : Nat
  writes : List SchedWrite   -- oldest first
  writeNext : Nat
  deriving DecidableEq, Repr

def Sched.empty : Sched := ⟨[], 0, 0, [], 0⟩

/-! ### Vat and combine units (14_expert_vats.md) -/

/-- A COP command that a unit has received and not answered (08 R247, R248). -/
structure UnitCmd where
  core : Nat
  id : Nat
  job : Nat
  op : Instr
  a : Word
  b : Word
  data : List Byte           -- an operand block read at issue (08 R250)
  banks : BitVec 8
  rows : Nat
  deriving DecidableEq, Repr

/-- A vat (01 R46, R391): records are 256-bit token records (01 R45). -/
structure Vat where
  state : Nat                -- 0 closed, 1 open, 2 firing
  owner : Nat
  threshold : Nat
  age : Nat
  prio : Nat
  tmpl : Nat
  chip : List (BitVec 256)
  spill : List (BitVec 256)
  ent : List Nat             -- the entries of the spill region that hold them, in the same order (14 R381)
  fseq : Nat
  closing : Option (UnitCmd × Nat)   -- a drain VTCLOSE and the firings it made
  forced : List (UnitCmd × Nat)      -- pending VTFIREs with their arrival numbers
  held : List (UnitCmd × Nat)        -- commands set aside while firing, with their arrival numbers (08 R247)
  closeArr : Nat
  deriving DecidableEq, Repr

def Vat.empty : Vat :=
  { state := 0, owner := 0, threshold := 0, age := 0, prio := 0, tmpl := 0, chip := [], spill := [], ent := [], fseq := 0,
    closing := none, forced := [], held := [], closeArr := 0 }

/-- A part of a committed FST to a vat page or to the put window, not yet applied (R384, R396). -/
structure Part where
  vat : Nat                  -- 2048 = the put window
  job : Nat
  bytes : List Byte
  deriving DecidableEq, Repr

structure VatUnit where
  vats : Tbl Vat
  arrivals : Nat
  lastFire : Option Nat      -- tick of the last firing decision (R393)
  lastSpill : Option Nat     -- tick of the last spill step (R387)
  spilling : Bool            -- the pool has not yet recovered (R387)
  low : List Nat             -- the jobs still to be sent a spill event for the pool's last fall (R389)
  spillEv : List (Nat × Nat) -- spill events that wait for their replies: job and event
  orders : List (Nat × Nat × Nat)   -- the host's pairs still to be applied: job, vat and records left
  parts : List Part
  deriving DecidableEq, Repr

def VatUnit.empty : VatUnit := ⟨[], 0, none, none, false, [], [], [], []⟩

/-- A combine slot (01 R46, 08 R257, R258): k = 0 is idle. -/
structure Slot46 where
  k : Nat
  mask : BitVec 8
  row : Nat
  len : Nat
  owner : Nat
  target : Option (Nat × Nat)   -- core and semaphore, or none for a watermark
  cgen : BitVec 8               -- the generation of the context that core held
  wm : BitVec 32
  stage : Tbl (List (BitVec 32))
  deriving DecidableEq, Repr

def Slot46.empty : Slot46 := ⟨0, 0, 0, 0, 0, none, 0, 0, []⟩

/-- The combine unit: its slots, and its commands held back: by a CBSET that waits for a free origin slot, or by a page
that the host serves (08 R247, R257). -/
structure Combine where
  slots : Tbl Slot46
  waiting : List UnitCmd     -- the commands that wait, oldest first
  putting : Bool             -- the unit has a remote put in hand that waits for a page (14 R396)
  deriving DecidableEq, Repr

/-! ### Text and grammar units (16_text_grammar_unit.md) -/

/-- A sequence entry (01 R47). -/
structure Entry where
  bound : Bool
  owner : Nat
  table : Nat                -- 0 = no automaton
  state : Nat
  stack : List Nat           -- top first
  dead : Bool
  acc : Bool
  strings : List (List Byte)
  lens : List Nat            -- match lengths
  stopped : Bool
  stopTable : Nat
  deriving DecidableEq, Repr

def Entry.empty : Entry := ⟨false, 0, 0, 0, [], false, false, [], [], false, 0⟩

/-- A table miss: the command it holds, and the event it waits on (R425). -/
structure Miss where
  cmd : UnitCmd
  table : Nat                -- the table's address, and the level-1 index or the state number
  idx : Nat
  ev : Option Nat
  ok : Option Bool           -- the host's reply, not yet acted on
  deriving DecidableEq, Repr

/-- One die's unit: its entries, its miss, and the commands behind it in arrival order. -/
structure TextUnit where
  entries : Tbl Entry
  miss : Option Miss
  queue : List UnitCmd
  deriving DecidableEq, Repr

def TextUnit.empty : TextUnit := ⟨[], none, []⟩

/-! ### The fabric (17_fabric_watermarks.md) -/

/-- A fabric port's link (R426 to R430, R452 to R454). -/
structure Link where
  up : Bool
  view : LinkView
  credit : Tbl Nat           -- credits in hand of each virtual channel
  peer : LinkView            -- the last valid view received
  mismatch : List (TrainRec × TrainRec)   -- logged mismatches, newest first: the record received and the own one (R453)
  fecErr : Nat
  authErr : Nat
  retry : Nat                -- retry interval in ticks
  retryAt : Option Nat
  retryEv : Option Nat       -- the retraining event waiting (R454)
  buffer : List Packet       -- packets that wait for the link and its credits (R428, R454)
  col : List ColMsg          -- and the flits of VC2
  downAt : Nat
  got : Option TrainRec      -- the last training record received (R454)
  sentAt : Nat               -- tick of the last training record sent (R452)
  syncAt : Nat               -- tick of the last SYNC sent (18 R456)
  part : Option Nat          -- the job whose partition holds the port (R454)
  deriving DecidableEq, Repr

def LinkView.empty : LinkView := ⟨0, 0, 0, 0, 0, false⟩
def Link.empty : Link :=
  { up := false, view := LinkView.empty, credit := [], peer := LinkView.empty, mismatch := [], fecErr := 0, authErr := 0,
    retry := 1000000, retryAt := none, retryEv := none, buffer := [], col := [], downAt := 0, got := none, sentAt := 0, syncAt := 0, part := none }

/-- A handed-off FST, FATOM or FRED (05 R181): its descriptor bytes, its operands and what its issue recorded. -/
structure Handoff where
  core : Nat
  ty : Nat
  f : SF
  desc : List Byte
  carried : Word
  wm : BitVec 32
  job : Nat
  tcb : Nat                  -- the task held at issue: 0 = none, else its TCB number plus 1; likewise below
  cgen : BitVec 8
  seq : Nat                  -- its number in its stream (R433)
  sent : Option Packet       -- read and waiting for its launch tick
  deriving DecidableEq, Repr

/-- A packet sent and not yet acknowledged (R433). -/
structure Unacked where
  pkt : Packet
  core : Nat
  cgen : BitVec 8
  tcb : Nat
  first : Nat                -- tick of the first transmission, or of the reply that gave it a further window (R444)
  due : Nat                  -- tick of the next retransmission
  backoff : Nat
  ext : Nat                  -- extensions the host granted (R444)
  ev : Option Nat
  deriving DecidableEq, Repr

/-- The outcome kept of a sent packet that carries a task's identity (R439). -/
structure SentRec where
  unit : Nat
  dest : Nat
  vc : Nat
  seq : Nat
  core : Nat
  cgen : BitVec 8
  tcb : Nat
  job : Nat
  wm : Option (BitVec 32)
  deriving DecidableEq, Repr

/-- A destination stream (R433): the next number after those contiguously accepted, how many these are, those accepted or
settled apart from them, and the tick of its last use. A stream idle past its time is forgotten, with all its numbers: what it next
takes is where its count begins again (log 13). -/
structure Dest where
  origin : Nat
  unit : Nat
  vc : Nat
  next : Nat
  run : Nat
  ahead : List Nat
  last : Nat
  job : Nat
  idle : Bool
  deriving DecidableEq, Repr

/-- A packet accepted and not yet committed (R435). -/
structure Hold where
  pkt : Packet
  port : Nat
  tick : Nat                 -- acceptance, or the reply that gave a further window, from which step 1 expires (R443, R444)
  arr : Nat
  released : Bool            -- past step 1
  off : Nat                  -- bytes of the payload committed
  birth : Nat                -- QSEQ as its first part committed (10 R314)
  dropped : Bool             -- some part was dropped
  parts : List Part          -- its parts in unit pages, which apply once it has committed (14 R384, R396)
  known : List Nat           -- the carried watermarks learnt to have landed (R441)
  void : Bool                -- one was learnt to be void (R442)
  ext : Nat
  ev : Option Nat
  deriving DecidableEq, Repr

/-- An origin slot (R439): state 0 free, 1 pending, 2 landed, 3 void. -/
structure Origin where
  state : Nat
  gen : BitVec 8
  job : Nat
  core : Nat
  cgen : BitVec 8
  tcb : Nat
  tick : Nat                 -- of its allocation, then of its settling
  win : Nat                  -- tick from which its expiry window runs (R443, R444)
  queriers : List (Nat × Nat)   -- module and origin unit asked from
  ext : Nat
  ev : Option Nat
  deriving DecidableEq, Repr

def Origin.empty : Origin := ⟨0, 0, 0, 0, 0, 0, 0, 0, [], 0, none⟩

/-- A settled-watermark cache entry (R440). -/
structure Settled where
  wm : BitVec 32
  landed : Bool
  tick : Nat
  deriving DecidableEq, Repr

/-- An outstanding query (R440), and the job it is asked for. -/
structure Query where
  wm : BitVec 32
  job : Nat
  due : Nat
  deriving DecidableEq, Repr

/-- An abandon notice not yet acknowledged (R519). -/
structure Abandon where
  pkt : Packet
  vc : Nat
  seq : Nat
  unit : Nat
  due : Nat
  since : Nat
  deriving DecidableEq, Repr

/-- A reduction window (R446 to R449): state 0 closed, 1 open, 2 complete, 3 poisoned. Bytes delivered by each rank
are listed as (rank, offset, bytes); granules fold in rank order. -/
structure Window where
  state : Nat
  job : Nat
  core : Nat
  cgen : BitVec 8
  tcb : Nat                  -- the opener's task: 0 = none, else its TCB number plus 1 (as in the records above)
  result : Nat
  count : Nat
  len : Nat
  op : Nat
  sem : Option Nat
  openTick : Nat
  timeout : Nat
  bytes : Tbl Nat            -- bytes folded or staged of each rank
  got : List (Nat × Nat × Nat)          -- rank, offset and length delivered
  staged : List (Nat × Nat × List Byte) -- rank, offset and bytes not yet folded
  acc : Tbl (BitVec 32)      -- folded words
  rank : Tbl Nat             -- next rank of each word
  deriving DecidableEq, Repr

def Window.empty : Window :=
  { state := 0, job := 0, core := 0, cgen := 0, tcb := 0, result := 0, count := 0, len := 0, op := 0, sem := none, openTick := 0,
    timeout := 0, bytes := [], got := [], staged := [], acc := [], rank := [] }

structure Fabric where
  route : Tbl Byte           -- 4,096 entries (R427)
  links : Tbl Link
  ctr : Tbl Nat              -- CTR of each origin unit (R430)
  seqNext : Tbl Nat          -- next sequence number of each origin stream: 8192 (256·vc/3 + unit) + destination
  iface : List Handoff       -- the interface queues, oldest first (R433)
  unacked : List Unacked
  sent : List SentRec
  dests : List Dest
  holds : List Hold
  arrivals : Nat
  origins : Tbl Origin
  settled : List Settled
  queries : List Query
  abandons : List Abandon
  windows : Tbl Window
  waiting : List UnitCmd     -- FWINs whose result pages the host serves (08 R271), oldest first
  keys : Tbl (Option (Nat × Nat))   -- job key and expiry window E (R450)
  groupKey : Option Nat
  out : List (Nat × Packet)  -- packets sent, oldest first, with their ports
  train : List (Nat × TrainRec)   -- training records sent, oldest first, with their ports (R452)
  killed : List Nat          -- jobs of which a context on another module has ended with cause 0x13, not yet acted on (R449)
  deriving DecidableEq, Repr

def Fabric.empty : Fabric :=
  { route := [], links := [], ctr := [], seqNext := [], iface := [], unacked := [], sent := [], dests := [], holds := [],
    arrivals := 0, origins := [], settled := [], queries := [], abandons := [], windows := [], waiting := [], keys := [],
    groupKey := none, out := [], train := [], killed := [] }

/-! ### The clock unit (18_group_clock_col.md) -/

/-- What a member holds of a member (R460, R465, R467, R468). -/
structure Member where
  present : Bool
  ceil : Nat
  since : Nat                    -- the effective tick of the ceiling in effect
  pending : Option (Nat × Nat)   -- code and effective tick
  heard : Nat                    -- the tick of its last notice
  seq : Option Nat               -- the newest sequence number held
  silent : Option Nat            -- the earliest SILENT tick
  mute : Bool                    -- it counts as silent
  fallen : Bool                  -- its ceiling is 0 for its silence
  joinAt : Option Nat            -- ADMIT's effective tick, not yet reached
  leaving : Bool                 -- its LEAVE round is open
  leaveAt : Option Nat
  joinSeq : Option Nat           -- the number of the newest JOIN that it flooded as no member (R458, R467)
  evictBy : Option Nat           -- the member that has evicted it; its ceiling counts until the round's tick (R466)
  goneAt : Option Nat            -- that tick
  deriving DecidableEq, Repr

def Member.empty : Member := ⟨false, 0, 0, none, 0, none, none, false, false, none, false, none, none, none, none⟩

/-- The module's own raise round: of a raise (0), a leave (1) or an eviction (2), with the commands that it answers (R463,
R466, R468). -/
structure Round where
  kind : Nat
  code : Nat
  confirmed : List Nat
  sentAt : Nat
  leave : Nat                    -- the requested leave tick
  cmds : List UnitCmd
  deriving DecidableEq, Repr

/-- The module's own join: 0 asked, 1 answered and slewing, 2 flooded (R467). -/
structure Joining where
  sponsor : Nat
  since : Nat
  stage : Nat
  cmd : UnitCmd
  deriving DecidableEq, Repr

structure Clock where
  members : Tbl Member
  seqNext : Nat                  -- own notice number (R458)
  round : Option Round
  openRounds : List (Nat × Nat)  -- raisers whose rounds are open, with the codes of their notices (08 R270, R463)
  joining : Option Joining
  serving : List (Nat × Nat)     -- joins the sponsor serves, in arrival order, with their ticks
  leaving : Option (UnitCmd × Nat)   -- a CLLEAVE and its tick, waiting for the round before it or for its own end
  rise : Option (List UnitCmd)   -- a rise that waits for a LEAVE round or a pending ceiling, with the commands that it answers (R462, R463)
  prot : Nat                     -- protection limit (R461)
  clceil : Nat                   -- the last CLCEIL value
  local_ : Nat                   -- the local ceiling announced last
  lone : Nat                     -- the limit of a lone drop, until the tick below (R464)
  loneUntil : Nat
  lateUntil : Nat                -- out of step after a notice applied late, until the switch window ends (R464)
  offOut : Bool                  -- out of step for its offset (R456)
  linkOut : Bool                 -- out of step for its parent link
  offset : Int                   -- offset estimate towards the parent, in ticks (R456)
  offBad : Option Nat            -- tick from which the estimate has stayed above 20
  slew : Int                     -- ticks still to be corrected towards the parent (R456)
  osc : Nat                      -- nanoseconds of the module's own oscillator
  beat : Nat                     -- tick of the last heartbeat
  out : List ColMsg              -- flits sent, with the port each leaves by
  deriving DecidableEq, Repr

def Clock.reset : Clock :=
  { members := [], seqNext := 0, round := none, openRounds := [], joining := none, serving := [], leaving := none,
    rise := none, prot := 36, clceil := 36, local_ := 36, lone := 36, loneUntil := 0, lateUntil := 0, offOut := false, linkOut := false,
    offset := 0, offBad := none, slew := 0, osc := 0, beat := 0, out := [] }

/-! ### Host interface and power (19_host_boot_power.md) -/

/-- An event that waits for a reply (R474): its number, code, job, the tick of its timeout (none for code 8), and up to
three arguments that say what waits. -/
structure Waiting where
  num : Nat
  code : Nat
  job : Nat
  until_ : Option Nat
  x : Nat
  y : Nat
  z : Nat
  deriving DecidableEq, Repr

/-- What the module sends the host: events and acknowledgements (R473, R474), and RDMA completions of a queue pair (R471). -/
inductive HostMsg where
  | event (num code job : Nat) (args : List Nat)
  | ack (seq : Nat) (payload : List Byte)
  | badType (seq : Nat)
  | rdma (qp : Nat) (ok : Bool) (data : List Byte)
  deriving DecidableEq, Repr

/-- An RDMA access that waits for a page's service (R471, 10 R309), and the data of a write. -/
structure Rdma where
  num : Nat                  -- its number in order of arrival
  key : RdmaKey
  va : Nat
  len : Nat
  data : Option (List Byte)
  deriving DecidableEq, Repr

/-- An acknowledgement that waits for a killed context to end (R473): the SEQ, the core and the context. -/
structure Due where
  seq : Nat
  core : Nat
  job : Nat
  cgen : BitVec 8
  deriving DecidableEq, Repr

structure HostIf where
  powered : Bool
  stage : Nat                    -- HKSTAT.STAGE (R482)
  throt : Bool
  elogNew : Bool
  power : Word                   -- POWER (R481)
  temps : Word                   -- TEMPS
  proj : List (Nat × Nat)        -- the last projection: power and junction of each ceiling code (R480)
  pcap : Nat                     -- PCAP
  hkduty : Byte                  -- HKDUTY
  seqNext : Nat                  -- next host SEQ to apply (R473)
  held : List (Datagram × Nat)   -- datagrams ahead of a gap, with their arrival ticks
  dues : List Due
  rdma : List Rdma               -- RDMA accesses waiting, oldest first
  rdmaNext : Nat                 -- RDMA accesses so far
  evNext : Nat                   -- next event number (R474)
  waiting : List Waiting
  out : List (Nat × HostMsg)     -- what was sent, oldest first, with its port
  seqOut : Nat                   -- the SEQ of the next datagram to the host (R472)
  grams : List Datagram          -- the datagrams that were sent, oldest first
  ethDown : Bool                 -- port 0 is down (R474)
  ethDown1 : Bool
  session : Nat                  -- the host session key (R472)
  flash : List Byte              -- the firmware image in flash (R475)
  incoming : Tbl Byte            -- the image being received (R476)
  incomingLen : Nat
  checking : Option Nat          -- the SEQ of the IMAGE part whose image the boot ROM verifies (R476)
  rollback : Nat                 -- the fused rollback counter (R475)
  sigs : Nat                     -- attestation signatures used (R477)
  clockBusy : List Datagram      -- CLOCK datagrams waiting for their turn (R478)
  clockCur : Option Nat          -- the SEQ of the CLOCK datagram in hand
  svcTimeouts : Nat              -- logged service timeouts (R309)
  log : List (Nat × Nat)         -- other logged events: tick and kind
  deriving DecidableEq, Repr

def HostIf.reset : HostIf :=
  { powered := true, stage := 0, throt := false, elogNew := false, power := 0, temps := 0, proj := [], pcap := 4600, hkduty := 0,
    seqNext := 0, held := [], dues := [], rdma := [], rdmaNext := 0, evNext := 0, waiting := [], out := [], seqOut := 0, grams := [], ethDown := false, ethDown1 := false, session := 0,
    flash := [], incoming := [], incomingLen := 0, checking := none, rollback := 0, sigs := 0, clockBusy := [], clockCur := none,
    svcTimeouts := 0, log := [] }

/-! ### The module -/

/-- An input: the ticks that pass first, and the event that the world or an open order brings (log 1). -/
structure Stim where
  dt : Nat
  what : Instr
  deriving DecidableEq, Repr

/-- One module. `inputs`, `agenda`, `cur`, `turns`, `unit` and `free` are the model's own (log 1, log 5). -/
structure State where
  gtick : Nat                    -- the group tick (18 R455), modulo 2^64 where it is read
  cores : Tbl Core
  semC : Tbl Nat                 -- cluster semaphore 16 + k of cluster c at 16 c + k (01 R33)
  semOwner : Tbl (Option Nat)    -- the job that holds it
  mem : Mem
  sched : Sched
  vat : VatUnit
  comb : Combine
  text : Tbl TextUnit
  fab : Fabric
  clk : Clock
  host : HostIf
  inputs : List Stim
  agenda : List (UnitCtx × Instr)
  cur : Nat
  turns : Nat
  unit : UnitCtx
  free : Nat
  deriving DecidableEq, Repr

/-- The module right after power-on reset. Memories list nothing (log 3); registers without a stated reset value hold
the values of log 4. -/
def State.reset : State :=
  { gtick := 0, cores := [], semC := [], semOwner := [], mem := Mem.empty, sched := Sched.empty, vat := VatUnit.empty,
    comb := ⟨[], [], false⟩, text := [], fab := Fabric.empty, clk := Clock.reset, host := HostIf.reset, inputs := [],
    agenda := [], cur := 0, turns := 0, unit := UnitCtx.empty, free := 0 }

/-- The memory holds its canonical form. -/
abbrev Memory.wf (s : State) : Prop := s.mem.hbm.wf 0

end Sys2Proof.Machine
end

