-- ==== Sys2Proof/Machine/Regs.lean ====
section
/-! DEFINITION. Cores and the accessors of their registers (00_scope.md R2, 01_machine_state.md R15 to R41): every read
and write of a register goes through here, so what is hard-wired is decided once. -/
namespace Sys2Proof.Machine

/-- The type of a core by its number: main cores, then lookup cores, then the housekeeping core (R2). -/
def kindOf (c : Nat) : CoreKind := if c < 64 then .main else if c < 128 then .lookup else .house
/-- The die of a core (R2, R3). -/
def dieOf (c : Nat) : Nat := if c < 64 then c / 16 else if c < 128 then (c - 64) / 16 else 0
/-- The cluster of a main core, counted over the module; other cores belong to none (R2, R33). -/
def clusterOf (c : Nat) : Option Nat := if c < 64 then some (c / 8) else none
/-- CTXID's CORE field (R41), also byte 6 of a packet header (17 R431). -/
def coreField (c : Nat) : Nat := if c < 64 then c else if c < 128 then (c - 64) + 64 else 128

def State.core (s : State) (c : Nat) : Core := s.cores.get Core.empty c
def State.setCore (s : State) (c : Nat) (k : Core) : State := { s with cores := s.cores.set Core.empty c k }
def State.onCore (s : State) (c : Nat) (f : Core → Core) : State := s.setCore c (f (s.core c))
def Core.onCtx (k : Core) (f : Ctx → Ctx) : Core := { k with ctx := f k.ctx }
def Core.onSeq (k : Core) (f : Seqr → Seqr) : Core := { k with seq := f k.seq }
def Core.onEng (k : Core) (f : Eng → Eng) : Core := { k with eng := f k.eng }
def State.onCtx (s : State) (c : Nat) (f : Ctx → Ctx) : State := s.onCore c (·.onCtx f)
def State.onSeq (s : State) (c : Nat) (f : Seqr → Seqr) : State := s.onCore c (·.onSeq f)
def State.onMem (s : State) (f : Mem → Mem) : State := { s with mem := f s.mem }
def State.onSched (s : State) (f : Sched → Sched) : State := { s with sched := f s.sched }
def State.onVat (s : State) (f : VatUnit → VatUnit) : State := { s with vat := f s.vat }
def State.onComb (s : State) (f : Combine → Combine) : State := { s with comb := f s.comb }
def State.onFab (s : State) (f : Fabric → Fabric) : State := { s with fab := f s.fab }
def State.onClk (s : State) (f : Clock → Clock) : State := { s with clk := f s.clk }
def State.onHost (s : State) (f : HostIf → HostIf) : State := { s with host := f s.host }

/-! ### Scalar registers and predicates -/

/-- s0 reads as zero (R15). -/
def Ctx.reg (k : Ctx) (r : Nat) : Word := if r = 0 then 0 else k.sreg.get 0 r
/-- A write to s0 is discarded (R15). -/
def Ctx.setReg (k : Ctx) (r : Nat) (v : Word) : Ctx := if r = 0 then k else { k with sreg := k.sreg.set 0 r v }
/-- A scalar source: s0 to s31, b4 or b5 (03 R97). -/
def Ctx.src (k : Ctx) (code : BitVec 6) : Word :=
  if code.toNat < 32 then k.reg code.toNat
  else if code = 36 then k.latchS.get 0 4
  else if code = 37 then k.latchS.get 0 5
  else 0
/-- p0 always reads V = 1 (R16). -/
def Ctx.pv (k : Ctx) (p : Nat) : Bool := p = 0 || k.predV.getLsbD p
/-- p0 always reads W = 1 (R16). -/
def Ctx.pw (k : Ctx) (p : Nat) : Bool := p = 0 || k.predW.getLsbD p
def setBit {n : Nat} (x : BitVec n) (i : Nat) (b : Bool) : BitVec n :=
  if b then x ||| BitVec.twoPow n i else x &&& ~~~(BitVec.twoPow n i)
/-- Writing a predicate sets V and W; writes to p0 are discarded (R16). -/
def Ctx.setPred (k : Ctx) (p : Nat) (v : Bool) : Ctx :=
  if p = 0 then k else { k with predV := setBit k.predV p v, predW := setBit k.predW p true }
/-- PINV clears W and leaves V (R16). -/
def Ctx.clearW (k : Ctx) (p : Nat) : Ctx := if p = 0 then k else { k with predW := setBit k.predW p false }
/-- A test: V xor negate (03 R103). -/
def Ctx.test (k : Ctx) (t : BitVec 5) : Bool := k.pv (t.extractLsb' 0 4).toNat != t.getLsbD 4
def Ctx.testW (k : Ctx) (t : BitVec 5) : Bool := k.pw (t.extractLsb' 0 4).toNat

/-! ### Partition (R18, R24, R39; 10 R295) -/

/-- Tile rows: TROWS 0 = 32, 1 = 64, 2 = 128 (R39). -/
def Ctx.rows (k : Ctx) : Nat :=
  match (k.pword.extractLsb' 14 2).toNat with
  | 0 => 32 | 1 => 64 | _ => 128
/-- Accumulators (R22, R39). -/
def Ctx.accN (k : Ctx) : Nat := (k.pword.extractLsb' 7 7).toNat
def Ctx.carve (k : Ctx) : Nat := (k.pword.extractLsb' 0 7).toNat
/-- The tile file in bytes (R18). -/
def Ctx.tileBytes (k : Ctx) : Nat := 16 * k.rows * 256
/-- The scratchpad size P of a core (R24, 10 R295). -/
def spadSize (c : Nat) (k : Ctx) : Nat :=
  match kindOf c with
  | .main => 8388608 - k.tileBytes - 65536 * k.accN
  | .lookup => 4194304 - k.tileBytes
  | .house => 1048576
/-- The byte offset in the core's SRAM pool of scratchpad address 0: the tile file and the accumulators come first
(log 4). -/
def spadPool (c : Nat) (k : Ctx) : Nat :=
  match kindOf c with
  | .main => k.tileBytes + 65536 * k.accN
  | .lookup => k.tileBytes
  | .house => 0

/-- The byte offset of an accumulator in the pool (log 4). -/
def Ctx.accPool (k : Ctx) (a : Nat) : Nat := k.tileBytes + 65536 * a

/-! ### Scratchpad -/

/-- `n` bytes from scratchpad address `a` upward. -/
def Tbl.bytes (t : Tbl Byte) (a : Nat) : Nat → List Byte
  | 0 => []
  | n + 1 => t.get 0 a :: Tbl.bytes t (a + 1) n
/-- The bytes of `l` stored from address `a` upward. -/
def Tbl.putBytes (t : Tbl Byte) (a : Nat) : List Byte → Tbl Byte
  | [] => t
  | b :: r => Tbl.putBytes (t.set 0 a b) (a + 1) r
def Ctx.ld (k : Ctx) (a n : Nat) : List Byte := k.spad.bytes a n
def Ctx.st (k : Ctx) (a : Nat) (l : List Byte) : Ctx := { k with spad := k.spad.putBytes a l }
/-- A little-endian 64-bit word of the scratchpad. -/
def Ctx.ld64 (k : Ctx) (a : Nat) : Word := BitVec.ofNat 64 (ofLe (k.ld a 8))

/-! ### Tiles (R18 to R21) -/

/-- Row `j` of register `t`, the index taken modulo rows (R19). -/
def Ctx.tileRow (k : Ctx) (t j : Nat) : Row := k.tile.get 0 (128 * t + j % k.rows)
def Ctx.partner (k : Ctx) (t : Nat) : Option Nat :=
  let m := k.mirror.get 255 t
  if m = 255 then none else some m
/-- A row written to one register alone. -/
def Ctx.setTileRow1 (k : Ctx) (t j : Nat) (v : Row) : Ctx := { k with tile := k.tile.set 0 (128 * t + j % k.rows) v }
/-- A row written to a register, and to its mirror partner in the same cycle (R21). -/
def Ctx.setTileRow (k : Ctx) (t j : Nat) (v : Row) : Ctx :=
  match k.partner t with
  | some m => (k.setTileRow1 t j v).setTileRow1 m j v
  | none => k.setTileRow1 t j v

/-- Lane `i` of width `w` of a row (R53). -/
def lane (w : Nat) (r : Row) (i : Nat) : Nat := (r >>> (w * i)).toNat % 2 ^ w
/-- A row with lane `i` replaced. -/
def setLane (w : Nat) (r : Row) (i v : Nat) : Row :=
  (r &&& ~~~((BitVec.ofNat 2048 (2 ^ w - 1)) <<< (w * i))) ||| (BitVec.ofNat 2048 (v % 2 ^ w) <<< (w * i))
/-- The lanes of a row, lane 0 first. -/
def lanes (w : Nat) (r : Row) : List Nat := (List.range (2048 / w)).map (lane w r)
/-- The row of a list of lanes, lane 0 first; lanes past 256 bytes are dropped. -/
def packLanes (w : Nat) (l : List Nat) : Row :=
  BitVec.ofNat 2048 (l.foldr (fun v acc => acc * 2 ^ w + v % 2 ^ w) 0)
/-- The 256 bytes of a row and back (R4). -/
def rowBytes (r : Row) : List Byte := leBytes 256 r.toNat
def rowOfBytes (l : List Byte) : Row := BitVec.ofNat 2048 (ofLe l)

/-- The column port `tn.c[j]` for element width `w`: lane i is element E j + i of the column-major image (R19). -/
def Ctx.tileCol (k : Ctx) (t j w : Nat) : Row :=
  let e := 2048 / w
  let j := j % k.rows
  packLanes w ((List.range e).map (fun i =>
    let n := e * j + i
    lane w (k.tileRow t (n % k.rows)) (n / k.rows)))
/-- A column-port write places each lane at the same position (R19). -/
def Ctx.setTileCol (k : Ctx) (t j w : Nat) (v : Row) : Ctx :=
  let e := 2048 / w
  let j := j % k.rows
  (List.range e).foldl (fun k i =>
    let n := e * j + i
    k.setTileRow t (n % k.rows) (setLane w (k.tileRow t (n % k.rows)) (n / k.rows) (lane w v i))) k

/-- The slot code bound to a bank: 0 V0, 1 V1, 2 M, 3 C0 and C1 (R20, 04 R150). -/
def bankSlot (banks : BitVec 8) (b : Nat) : Nat := (banks >>> (2 * b)).toNat % 4
/-- A slot may write a register if it is bound to its bank or to the bank of its mirror partner (R20, R21). -/
def Ctx.mayWrite (k : Ctx) (banks : BitVec 8) (slot t : Nat) : Bool :=
  bankSlot banks (t / 4) = slot ||
    (match k.partner t with | some m => bankSlot banks (m / 4) = slot | none => false)

/-! ### Rings and byte barriers (R25 to R27, 07 R214) -/

def Ctx.rg (k : Ctx) (n : Nat) : Ring := k.ring.get Ring.empty n
def Ctx.setRg (k : Ctx) (n : Nat) (r : Ring) : Ctx := { k with ring := k.ring.set Ring.empty n r }
/-- The slot size in bytes; a SLOTB of 0 stands for 4,096 units (R25). -/
def Ring.slotBytes (r : Ring) : Nat := 256 * (if r.slotb = 0 then 4096 else r.slotb)
/-- The scratchpad address of a slot (R25). -/
def Ring.slotAddr (r : Ring) (i : Nat) : Nat := 256 * r.base + r.slotBytes * i
/-- Ready(ring, d): the slot at distance d from HEAD is filled and not yet popped (07 R214). -/
def Ring.ready (r : Ring) (d : Nat) : Bool :=
  r.ph.getLsbD ((r.head + d) % r.nslot) != (r.hl != decide (r.head + d ≥ r.nslot))
/-- Pop(ring) (07 R214). -/
def Ring.pop (r : Ring) : Ring :=
  if r.head + 1 = r.nslot then { r with head := 0, hl := !r.hl } else { r with head := r.head + 1 }
/-- Free(ring) (07 R214). -/
def Ring.free (r : Ring) : Bool := !(r.tail = r.head && r.tl != r.hl)
/-- Claim(ring): the slot is TAIL (07 R214). -/
def Ring.claim (r : Ring) : Ring :=
  if r.tail + 1 = r.nslot then { r with tail := 0, tl := !r.tl } else { r with tail := r.tail + 1 }
/-- Another engine filled the slot or the barrier in this cycle, so that the sum of the cycle's arrivals passes its size (R26);
`at_` is the cycle and the engine. -/
def passes (full : Option (Nat × Nat)) (at_ : Nat × Nat) : Bool :=
  match full with | some f => f.1 = at_.1 && f.2 != at_.2 | none => false
/-- `n` bytes arrive in slot `i`; none where they would pass the slot size (R26). -/
def Ring.arrive (r : Ring) (at_ : Nat × Nat) (i n : Nat) : Option Ring :=
  let t := r.cnt.get 0 i + n
  if t > r.slotBytes || passes (r.full.get none i) at_ then none
  else if t = r.slotBytes then
    some { r with cnt := r.cnt.set 0 i 0, ph := setBit r.ph i (!r.ph.getLsbD i), full := r.full.set none i (some at_) }
  else some { r with cnt := r.cnt.set 0 i t, full := r.full.set none i none }
/-- A byte barrier's target in bytes; 0 stands for 2^24 (R27). -/
def Barrier.goal (b : Barrier) : Nat := if b.target = 0 then 2 ^ 24 else b.target
/-- `n` bytes arrive at a barrier; none where they would pass its target (R27). -/
def Barrier.arrive (b : Barrier) (at_ : Nat × Nat) (n : Nat) : Option Barrier :=
  let t := b.count + n
  if t > b.goal || passes b.full at_ then none
  else if t = b.goal then some { b with count := 0, phase := !b.phase, full := some at_ }
  else some { b with count := t, full := none }

/-! ### Ports (R29) -/

/-- Loop `i`'s count: 0 stands for 65,536 (R29). -/
def Port.count (p : Port) (i : Nat) : Nat :=
  let v := (p.counts >>> (16 * i)).toNat % 65536
  if v = 0 then 65536 else v
def Port.stride (p : Port) (i : Nat) : Int := (p.strides.extractLsb' (16 * i) 16).toInt
def Port.index (p : Port) (i : Nat) : Nat := (p.idx >>> (16 * i)).toNat % 65536
/-- The scratchpad address of the next access (R29). -/
def Port.addr (p : Port) : Int :=
  256 * ((p.base.toNat : Int) + p.index 0 * p.stride 0 + p.index 1 * p.stride 1 + p.index 2 * p.stride 2 +
    p.index 3 * p.stride 3)
/-- Step the loops from loop `i` outward (R29). -/
def portStep (p : Port) : Nat → List Nat → List Nat
  | _, [] => []
  | i, x :: r => if x + 1 = p.count i then 0 :: portStep p (i + 1) r else (x + 1) :: r
/-- The port after an access: loop 0 steps, and a loop that reaches its count resets and steps the next (R29). -/
def Port.step (p : Port) : Port :=
  let l := portStep p 0 [p.index 0, p.index 1, p.index 2, p.index 3]
  { p with idx := BitVec.ofNat 64 (l.foldr (fun v acc => acc * 65536 + v) 0) }

/-! ### Handles (R32) -/

def Ctx.h (k : Ctx) (n : Nat) : Handle := k.handle.get Handle.empty n
def Ctx.setH (k : Ctx) (n : Nat) (h : Handle) : Ctx := { k with handle := k.handle.set Handle.empty n h }
def Handle.valid (h : Handle) : Bool := h.info.getLsbD 63
def Handle.writable (h : Handle) : Bool := h.info.getLsbD 62
def Handle.order (h : Handle) : Nat := (h.info.extractLsb' 60 2).toNat
def Handle.size (h : Handle) : Nat := (h.info.extractLsb' 58 2).toNat
def Handle.die (h : Handle) : Nat := (h.info.extractLsb' 38 2).toNat
def Handle.pbase (h : Handle) : Nat := (h.info.extractLsb' 16 22).toNat
/-- Bytes of a page by its size code (R32, 10 R302). -/
def pageBytes (size : Nat) : Nat := match size with | 0 => 65536 | 1 => 2097152 | _ => 1073741824
/-- The physical place of offset `off` in a handle's page (R32, 05 R158). -/
def Handle.place (h : Handle) (off : Nat) : Place := ⟨h.die, h.pbase * 65536 + off, h.order, h.pbase⟩

/-! ### Special registers (R36 to R41) -/

/-- The status word (R37). -/
def Status.word (s : Status) : Word :=
  s.cause ++ s.prio ++ BitVec.ofBool s.preq ++ BitVec.ofBool s.replay ++ 0#6 ++ BitVec.ofBool s.disc ++
    BitVec.ofBool s.late ++ BitVec.ofBool s.bovr ++ 0#5 ++ s.flags.bits ++ 0#23 ++ BitVec.ofNat 4 s.resume ++
    BitVec.ofNat 4 s.repidx ++ 0#4
/-- A SETS of SW: only the W1C bits respond (R7, R37, 04 R148). -/
def Status.w1c (s : Status) (v : Word) : Status :=
  { s with disc := s.disc && !v.getLsbD 47, late := s.late && !v.getLsbD 46, bovr := s.bovr && !v.getLsbD 45,
           flags := s.flags.clear (Flags.ofBits (v.extractLsb' 35 5)) }
/-- FPCTL as a SETS stores it: reserved bits stay zero, and an RM of 5 to 7 stores 0 (R6, R40). -/
def fpctlOf (v : Word) : Word :=
  (v &&& 0xFFFF1F80#64) ||| (if (v.extractLsb' 0 3) > 4 then 0 else (v.extractLsb' 0 3).setWidth 64)
/-- OVFPTR and DISPRET keep their address bits alone (R6, R36). -/
def ovfptrOf (v : Word) : Word := v &&& 0x01FFFFFFFFFFFFF8#64
def dispretOf (v : Word) : Word := v &&& 0x01FFFFFFFFFFFFFC#64
/-- GETS (R36, 04 R148); an index without a register is an illegal encoding and reads 0 here. -/
def Ctx.special (k : Ctx) (gtick : Nat) (i : Nat) : Word :=
  match i with
  | 0 => k.sw.word
  | 1 => k.pword
  | 2 => k.deadline.setWidth 64
  | 3 => BitVec.ofNat 64 gtick
  | 4 => k.ctxid
  | 5 => k.duty
  | 6 => k.ovfptr
  | 7 => k.seed
  | 8 => k.fpctl
  | 9 => k.dispret
  | _ => 0
/-- SETS at the end of its issue cycle: RO registers and ignored bits stay (R7, R36, 04 R148, R149). -/
def Ctx.setSpecial (k : Ctx) (i : Nat) (v : Word) : Ctx :=
  match i with
  | 0 => { k with sw := k.sw.w1c v }
  | 2 => { k with deadline := v.setWidth 32 }
  | 6 => { k with ovfptr := ovfptrOf v }
  | 7 => { k with seed := v }
  | 8 => { k with fpctl := fpctlOf v }
  | 9 => { k with dispret := dispretOf v }
  | _ => k
def Ctx.fz (k : Ctx) : Bool := k.fpctl.getLsbD 12
def Ctx.ten (k : Ctx) : Flags := Flags.ofBits (k.fpctl.extractLsb' 7 5)
def Ctx.rm (k : Ctx) : Nat := (k.fpctl.extractLsb' 0 3).toNat
def Ctx.fpStream (k : Ctx) : BitVec 16 := k.fpctl.extractLsb' 16 16
def Ctx.addFlags (k : Ctx) (f : Flags) : Ctx := { k with sw := { k.sw with flags := k.sw.flags.or f } }

/-- Every latch cleared: it then reads zero (R31). -/
def Ctx.clearLatches (k : Ctx) : Ctx := { k with latchV := [], latchS := [] }

end Sys2Proof.Machine
end

