-- ==== Sys2Proof/Machine/Translate.lean ====
section
/-! DEFINITION. What the module tells the host (19_host_boot_power.md R474), HBM with its error correction and its
discarded frames (10_memory_translation.md R299, R315 to R317, R520), the page table and its walk (R301 to R305), fault
service (R309, R310), pins and access counters (R306, R311). -/
namespace Sys2Proof.Machine

/-- Who asks for a page: the die that the access counts as coming from (10 R309), and the requester, which the outcome of a
service goes back to (R310). -/
structure Req where
  die : Nat
  who : Nat
  deriving DecidableEq, Repr
/-- A core; a die's text unit; the combine unit; the window logic's commands; a reduction window; a hold; an RDMA access; a write
of the scheduler's; a branch node. -/
def coreReq (c : Nat) : Req := ⟨dieOf c, c⟩
def textReq (die : Nat) : Req := ⟨die, 256 + die⟩
def combReq : Req := ⟨1, 260⟩
def winCmdReq : Req := ⟨0, 262⟩
def windowReq (n : Nat) : Req := ⟨0, 4096 + n⟩
def holdReq (die arr : Nat) : Req := ⟨die, 4 * arr + 65536⟩
def rdmaReq (die num : Nat) : Req := ⟨die, 4 * num + 65537⟩
/-- The scheduler's own accesses to a job's memory count as coming from die 0: R309's table names no die for the scheduler, whose slices
stand on every die (00 R3); a choice of the model (log 43). -/
def schedReq (num : Nat) : Req := ⟨0, 4 * num + 65538⟩
def nodeReq (job n : Nat) : Req := ⟨0, 4 * (2 ^ 20 * job + n) + 65539⟩

/-! ### Jobs and host events -/

def State.job (s : State) (j : Nat) : Option Job := s.sched.jobs.get none j
def State.setJob (s : State) (j : Job) : State := s.onSched (fun d => { d with jobs := d.jobs.set none j.num (some j) })
def State.onJob (s : State) (j : Nat) (f : Job → Job) : State :=
  match s.job j with
  | some b => s.setJob (f b)
  | none => s
/-- The job number of the firmware context (19 R478). -/
def fwJob : Nat := 0xFFFFF
/-- DUTY bit `k` of a job; the firmware context's DUTY is HKDUTY (01 R41, 19 R478). -/
def State.dutyBit (s : State) (j k : Nat) : Bool :=
  if j = fwJob then s.host.hkduty.getLsbD k
  else match s.job j with
    | some b => b.duty.getLsbD k
    | none => false
/-- HOSTTMO in ticks; 0 means 10,000 µs (10 R301). -/
def State.hosttmo (s : State) (j : Nat) : Nat :=
  match s.job j with
  | some b => 1000 * (if b.hosttmo = 0 then 10000 else b.hosttmo)
  | none => 10000000
/-- The Ethernet port that events and answers leave by: port 0, or port 1 while port 0 is down (19 R474). -/
def HostIf.port (h : HostIf) : Nat := if h.ethDown then 1 else 0
/-- The 32 bytes of a datagram's header, and the tag over them and the payload (19 R472). -/
def gramHeader (d : Datagram) : List Byte :=
  leBytes 2 d.magic ++ leBytes 1 d.ty ++ leBytes 1 d.dir ++ leBytes 4 d.seq ++ leBytes 4 d.job ++ leBytes 4 d.len ++ leBytes 8 d.correl ++
    leBytes 8 d.zero
def gramTag (key : Nat) (d : Datagram) : Nat := Config.datagramTag key ((gramHeader d).map (·.toNat)) d.payload
/-- The datagram that carries a message to the host (19 R472 to R474): an event's payload is its code and its arguments, 8 bytes each
(log 15). RDMA completions are none. -/
def HostIf.gramOf (h : HostIf) (m : HostMsg) : Option Datagram :=
  let g := fun (ty job len correl : Nat) (l : List Byte) =>
    let d : Datagram := { magic := 0x5A57, ty := ty, dir := 1, seq := h.seqOut, job := job, len := len, correl := correl, zero := 0,
                          payload := l, tag := 0 }
    some { d with tag := gramTag h.session d }
  match m with
  | .event num code job args => g 0x80 job (8 + 8 * args.length) num (leBytes 8 code ++ args.flatMap (leBytes 8))
  | .ack q l => g 0x81 0 l.length q l
  | .badType q => g 0x81 0 0xFFFFFFFF q []
  | .rdma _ _ _ => none
def State.sendHost (s : State) (m : HostMsg) : State :=
  s.onHost (fun h => { h with out := h.out ++ [(h.port, m)], grams := h.grams ++ (h.gramOf m).toList,
                              seqOut := if (h.gramOf m).isSome then (h.seqOut + 1) % 2 ^ 32 else h.seqOut })
/-- An event datagram, numbered from 0 (19 R474). -/
def State.event (s : State) (code job : Nat) (args : List Nat) : State :=
  (s.sendHost (.event s.host.evNext code job args)).onHost (fun h => { h with evNext := h.evNext + 1 })
/-- An event that waits for a REPLY within HOSTTMO; `timed` is false for code 8 alone (19 R474, 12 R361). -/
def State.askWith (s : State) (code job : Nat) (args : List Nat) (x y z : Nat) (timed : Bool) : State :=
  let n := s.host.evNext
  let w : Waiting := ⟨n, code, job, if timed then some (s.gtick + s.hosttmo job) else none, x, y, z⟩
  (s.event code job args).onHost (fun h => { h with waiting := h.waiting ++ [w] })
def State.ask (s : State) (code job x y z : Nat) (timed : Bool) : State := s.askWith code job [x, y, z] x y z timed
/-- An event no longer waited for. -/
def State.unask (s : State) (n : Nat) : State :=
  s.onHost (fun h => { h with waiting := h.waiting.filter (fun w => w.num != n) })

/-! ### HBM -/

/-- The index of byte `pa` of a die (R299). -/
def hbmKey (die pa : Nat) : Nat := die * 2 ^ 38 + pa
def Place.key (p : Place) : Nat := hbmKey p.die p.pa
/-- The frame of a byte's index, and the block of 64 bytes (R299, R316). -/
def frameOf (key : Nat) : Nat := key / 65536
def blockOf (key : Nat) : Nat := key / 64
def frameId (die pbase : Nat) : Nat := die * 2 ^ 22 + pbase
/-- The blocks that `n` bytes from `key` touch. -/
def blocksOf (key n : Nat) : List Nat :=
  if n = 0 then [] else (List.range (blockOf (key + n - 1) - blockOf key + 1)).map (· + blockOf key)

def Mem.rd (m : Mem) (key n : Nat) : List Byte := m.hbm.bytes key n
def Mem.wr (m : Mem) (key : Nat) (l : List Byte) : Mem := { m with hbm := m.hbm.putBytes key l }
def Mem.rd64 (m : Mem) (key : Nat) : Word := BitVec.ofNat 64 (ofLe (m.rd key 8))
def Mem.wr64 (m : Mem) (key : Nat) (v : Word) : Mem := m.wr key (leBytes 8 v.toNat)

/-- An uncorrectable event: a record in the die's log, which holds the newest 128, and HKSTAT.ELOGNEW (R317, R520). -/
def State.logErr (s : State) (die reader addr : Nat) (ctxid : Word) : State :=
  let n := s.mem.elogN.get 0 die
  let rest := s.mem.elog.filter (fun r => r.die != die || decide (n < r.num + 128))
  ((s.onMem (fun m => { m with elog := ⟨s.gtick, die, reader, n, addr, ctxid⟩ :: rest,
                               elogN := m.elogN.set 0 die (n + 1) })).onHost
    (fun h => { h with elogNew := true })).event 20 0 [die, reader, addr]

/-- A block that a read finds uncorrectable: marked poisoned, where it was not yet found, or already poisoned (R317). -/
def Mem.uncorrectable (m : Mem) (b : Nat) : Bool := m.poison.get false b || m.bad.get false b
/-- The die of a block and the physical address of its first byte (R520). -/
def blockDie (b : Nat) : Nat := b / 2 ^ 32
def blockAddr (b : Nat) : Nat := (b % 2 ^ 32) * 64

/-- The error correction of one block that is read: a correctable error is written back and counted; an uncorrectable one
poisons the block and is logged (R316, R317). The result says that the block is uncorrectable. -/
def State.eccBlock (s : State) (reader : Nat) (ctxid : Word) (b : Nat) : State × Bool :=
  if s.mem.uncorrectable b then
    ((s.onMem (fun m => { m with poison := m.poison.set false b true, bad := m.bad.set false b false })).logErr
      (blockDie b) reader (blockAddr b) ctxid, true)
  else if s.mem.soft.get false b then
    (s.onMem (fun m => { m with soft := m.soft.set false b false,
                                cerr := m.cerr.set 0 (blockDie b) (m.cerr.get 0 (blockDie b) + 1) }), false)
  else (s, false)
def State.ecc (s : State) (reader : Nat) (ctxid : Word) (bs : List Nat) : State × Bool :=
  bs.foldl (fun a b => let r := a.1.eccBlock reader ctxid b; (r.1, a.2 || r.2)) (s, false)

/-- A block of a discarded frame (R315); 1,024 blocks make a frame. -/
def Mem.gone (m : Mem) (b : Nat) : Bool := m.discarded.get false (b / 1024)
/-- Reading `n` bytes: their ECC, then their contents; the bytes of discarded frames read as zeros (R315). The two flags say
that a block was uncorrectable and that a discarded frame was read. -/
def State.readHbm (s : State) (reader : Nat) (ctxid : Word) (key n : Nat) : State × List Byte × Bool × Bool :=
  let bs := blocksOf key n
  if bs.any s.mem.gone then
    let r := s.ecc reader ctxid (bs.filter (fun b => !s.mem.gone b))
    (r.1, (r.1.mem.rd key n).zipIdx.map (fun x => if s.mem.gone (blockOf (key + x.2)) then 0 else x.1), r.2, true)
  else
    let r := s.ecc reader ctxid bs
    (r.1, r.1.mem.rd key n, r.2, false)

/-- The frames that the units keep to themselves: of die 1 for the vat and combine units (14 R381 to R383), and of die 0 for the
fabric interface (17 R438). An ordinary write to them commits with no effect; they are not counted for migration, not quarantined, and
never taken. -/
def unitFrame (f : Nat) : Bool :=
  (decide (frameId 1 0x23D7FF ≤ f) && decide (f ≤ frameId 1 0x23FFFF)) || (decide (frameId 0 0x23F800 ≤ f) && decide (f ≤ frameId 0 0x23FFFF))

/-- A byte whose ordinary writes have no effect: of a discarded frame, or of one that a unit owns. -/
def Mem.inert (m : Mem) (key : Nat) : Bool := m.gone (blockOf key) || unitFrame (frameOf key)
/-- What a write makes of the part of its bytes that lies in one block: a whole block clears its poison, and a partial write of
a poisoned block is dropped and reported (R317). -/
def State.writeBlock (s : State) (reader : Nat) (ctxid : Word) (key : Nat) (l : List Byte) (b : Nat) : State × Bool :=
  let lo := max key (64 * b)
  let hi := min (key + l.length) (64 * b + 64)
  let part := (l.drop (lo - key)).take (hi - lo)
  if s.mem.inert (64 * b) then (s, false)
  else if hi - lo = 64 then
    (s.onMem (fun m => { m.wr lo part with poison := m.poison.set false b false, bad := m.bad.set false b false,
                                           soft := m.soft.set false b false }), false)
  else if s.mem.uncorrectable b then
    ((s.onMem (fun m => { m with poison := m.poison.set false b true, bad := m.bad.set false b false })).logErr
      (blockDie b) reader (blockAddr b) ctxid, true)
  else (s.onMem (fun m => m.wr lo part), false)
/-- Writing bytes, block by block; a request of which a part falls on a discarded frame counts in the job's DISCW (R315). -/
def State.writeHbm (s : State) (job : Nat) (ctxid : Word) (key : Nat) (l : List Byte) (reader : Nat := 11) : State × Bool :=
  let bs := blocksOf key l.length
  let s := if bs.any s.mem.gone then s.onJob job (fun j => { j with discw := j.discw + 1 }) else s
  bs.foldl (fun a b => let r := a.1.writeBlock reader ctxid key l b; (r.1, a.2 || r.2)) (s, false)

/-! ### The page table -/

/-- What a walk finds (R302 to R304). -/
inductive WalkRes where
  | nomap
  | malformed
  | leaf (pte : Nat) (size : Nat) (entry : Word)
  deriving DecidableEq, Repr

/-- The page size code of a leaf at a level (R302). -/
def levelSize (level : Nat) : Nat := level
/-- The index of a level (R302). -/
def levelIndex (level va : Nat) : Nat :=
  match level with
  | 3 => va / 2 ^ 43 % 2 ^ 14
  | 2 => va / 2 ^ 30 % 2 ^ 13
  | 1 => va / 2 ^ 21 % 2 ^ 9
  | _ => va / 2 ^ 16 % 2 ^ 5

/-- An entry with MAP = 1 that breaks a rule of R304 at its level. -/
def pteMalformed (level : Nat) (e : Word) : Bool :=
  let leaf := e.getLsbD 61
  let pres := e.getLsbD 63
  let pb := (e.extractLsb' 16 22).toNat
  (e.extractLsb' 40 8 != 0) ||
  (level = 3 && leaf) || (level = 0 && !leaf) ||
  (if leaf then
     (pres && (e.extractLsb' 0 16 != 0 || e.getLsbD 56 || pb > 0x23FFFF ||
       (level = 1 && pb % 32 != 0) || (level = 2 && pb % 16384 != 0))) ||
     (!pres && e.extractLsb' 0 16 != 0)
   else !pres || e.extractLsb' 0 8 != 0)

/-- The walk below a table at `base`, level by level; `fuel` counts the levels left (R302). An uncorrectable entry counts
as no mapping and is reported as malformed (R304). -/
def walkFrom (m : Mem) (va : Nat) : Nat → Nat → WalkRes
  | fuel, base =>
    let key := base + 8 * levelIndex fuel va
    let e := m.rd64 key
    if (blocksOf key 8).any m.uncorrectable then .malformed
    else if !e.getLsbD 62 then .nomap
    else if pteMalformed fuel e then .malformed
    else if e.getLsbD 61 then .leaf key (levelSize fuel) e
    else match fuel with
      | 0 => .malformed
      | n + 1 => walkFrom m va n (hbmKey (e.extractLsb' 38 2).toNat (256 * (e.extractLsb' 8 30).toNat))

/-- The walk of a job's table from PTROOT (R301, R302). -/
def Job.walk (j : Job) (m : Mem) (va : Nat) : WalkRes :=
  walkFrom m (va % 2 ^ 57) 3 (hbmKey (j.ptroot.extractLsb' 38 2).toNat (131072 * (j.ptroot.extractLsb' 17 21).toNat))

/-- The blocks that a walk reads, in order. -/
def walkBlocksFrom (m : Mem) (va : Nat) : Nat → Nat → List Nat
  | fuel, base =>
    let key := base + 8 * levelIndex fuel va
    let e := m.rd64 key
    if m.uncorrectable (blockOf key) || !e.getLsbD 62 || pteMalformed fuel e || e.getLsbD 61 then [blockOf key]
    else match fuel with
      | 0 => [blockOf key]
      | n + 1 => blockOf key :: walkBlocksFrom m va n (hbmKey (e.extractLsb' 38 2).toNat (256 * (e.extractLsb' 8 30).toNat))
def Job.walkBlocks (j : Job) (m : Mem) (va : Nat) : List Nat :=
  walkBlocksFrom m (va % 2 ^ 57) 3 (hbmKey (j.ptroot.extractLsb' 38 2).toNat (131072 * (j.ptroot.extractLsb' 17 21).toNat))

def pteDie (e : Word) : Nat := (e.extractLsb' 38 2).toNat
def ptePbase (e : Word) : Nat := (e.extractLsb' 16 22).toNat
def pteOrder (e : Word) : Nat := (e.extractLsb' 58 2).toNat
def pteWr (e : Word) : Bool := e.getLsbD 60
def ptePres (e : Word) : Bool := e.getLsbD 63
/-- The first address of a page. -/
def pageOf (size va : Nat) : Nat := va / pageBytes size * pageBytes size
/-- The physical place of an address in a resident leaf's page (R302, R303). -/
def ptePlace (size : Nat) (e : Word) (va : Nat) : Place :=
  ⟨pteDie e, ptePbase e * 65536 + va % pageBytes size, pteOrder e, ptePbase e⟩

/-- The outcome of an access that translates at the moment it is made (08 R250). -/
inductive Tr where
  | ok (size : Nat) (e : Word)           -- the resident leaf
  | nomap
  | absent (pte size : Nat) (e : Word)   -- mapped, not resident
  | marked                               -- the migration engine holds the page (R313)
  deriving DecidableEq, Repr

def Mem.marked (m : Mem) (job va : Nat) : Bool := m.migs.any (fun g => g.job = job && va / 65536 * 65536 = g.page)

/-- A page-table error event (R304). -/
def State.ptError (s : State) (job va : Nat) : State := s.event 18 job [va]

/-- The old translation of a page whose invalidation waits for its pins: its cache entry (R307). -/
def Inval.hits (v : Inval) (job a n : Nat) : Bool := v.job = job && decide (a < v.va + v.len) && decide (v.va < a + n)
def Mem.oldLeaf (m : Mem) (job va : Nat) : Option (Nat × Word) :=
  match m.tcache.find? (fun t => t.job = job && pageOf t.size va = t.page && t.leaf.isSome) with
  | some t => if m.invals.any (·.hits job t.page (pageBytes t.size)) then t.leaf.map (t.size, ·) else none
  | none => none

/-- What an access makes of a walk's result; a malformed entry is no mapping and is reported (R304). -/
def State.found (s : State) (job va : Nat) (w : WalkRes) : State × Tr :=
  match w with
  | .nomap => (s, .nomap)
  | .malformed => (s.ptError job va, .nomap)
  | .leaf pte size e =>
    if s.mem.marked job va then (s, .marked)
    else if ptePres e then (s, .ok size e)
    else (s, .absent pte size e)
/-- A hardware walk of a job's table; its reads of the table pass its error correction (R316, R317). -/
def State.walked (s : State) (j : Job) (job va : Nat) : State × Tr :=
  let s := (s.ecc 6 0 (j.walkBlocks s.mem va)).1
  s.found job va (j.walk s.mem va)
/-- Translate an address of a job. -/
def State.translate (s : State) (job va : Nat) : State × Tr :=
  match s.job job with
  | none => (s, .nomap)
  | some j =>
    match s.mem.oldLeaf job va with
    | some (size, e) => (s, .ok size e)
    | none => s.walked j job va

/-! ### Frames (R301, R309, R314) -/

/-- Where the free-frame ring of a die lies; none where it is absent (R301). -/
def Job.ringKey (j : Job) (die : Nat) : Option Nat :=
  let f := j.flist.getD die 0
  if f = 0 then none else some (hbmKey (f.extractLsb' 38 2).toNat (64 * (f.extractLsb' 6 32).toNat))
/-- The free-frame ring of a die: its address, capacity, HEAD and TAIL; none where it is absent, or counts as empty because
a field is out of range (the flag reports that) (R301). -/
def Job.ring (j : Job) (m : Mem) (die : Nat) : Option (Nat × Nat × Nat × Nat) × Bool :=
  match j.ringKey die with
  | none => (none, false)
  | some key =>
    let n := ofLe (m.rd key 4)
    let head := ofLe (m.rd (key + 4) 4)
    let tail := ofLe (m.rd (key + 8) 4)
    if n < 2 || n > 2 ^ 24 || head ≥ n || tail ≥ n then (none, true) else (some (key, n, head, tail), false)

/-- The error correction of the ring's words: its fields, and the entry at HEAD. A ring with an uncorrectable word counts as empty,
and is reported as one with a field out of range is (R317; log 41). -/
def State.ringEcc (s : State) (j : Job) (die : Nat) : State × Bool :=
  match j.ringKey die with
  | none => (s, false)
  | some key =>
    let e := s.ecc 6 0 (blocksOf key 12)
    let t := e.1.ecc 6 0 (blocksOf (key + 64 + 4 * ofLe (s.mem.rd (key + 4) 4)) 4)
    if e.2 then e else t
/-- The oldest released frame of a job on a die (R314). -/
def State.fromReleased (s : State) (job die : Nat) : State × Option Nat :=
  match s.mem.released.find? (fun q => q.job = job && q.die = die) with
  | some q => (s.onMem (fun m => { m with released := m.released.erase q }), some q.pbase)
  | none => (s, none)
/-- The free-frame ring of a job on a die, as its words read; one that is broken counts as none and is reported (R301, R317). -/
def State.ringNow (s : State) (j : Job) (die : Nat) : State × Option (Nat × Nat × Nat × Nat) :=
  let e := s.ringEcc j die
  let r := if e.2 then (none, true) else j.ring e.1.mem die
  (if r.2 then e.1.ptError j.num die else e.1, r.1)
/-- Take a frame on a die for a job: from its free-frame ring, and from its released list, oldest first, while the ring is
empty (R301, R309, R314). A ring whose next entry names a frame of a unit, which no ring may hold, counts as empty and is reported (14
R381, 17 R438; log 31). -/
def State.takeFrame (s : State) (j : Job) (die : Nat) : State × Option Nat :=
  match s.ringNow j die with
  | (s, some (key, n, head, tail)) =>
    if head = tail then s.fromReleased j.num die
    else
      let pb := ofLe (s.mem.rd (key + 64 + 4 * head) 4)
      if unitFrame (frameId die pb) then
        let t := s.fromReleased j.num die
        (t.1.ptError j.num die, t.2)
      else (s.onMem (fun m => m.wr (key + 4) (leBytes 4 ((head + 1) % n))), some pb)
  | (s, none) => s.fromReleased j.num die

/-- Whole blocks rewritten: what ECC found in them is gone (R317). -/
def Mem.clean (m : Mem) (key n : Nat) : Mem :=
  let keep := fun (t : Tbl Bool) => t.filter (fun e => !(decide (key ≤ 64 * e.1) && decide (64 * e.1 < key + n)))
  { m with poison := keep m.poison, bad := keep m.bad, soft := keep m.soft }
/-- The bytes of whole blocks from `key`, `n` of them, written with zeros. -/
def Mem.zero (m : Mem) (key n : Nat) : Mem :=
  { m.clean key n with hbm := m.hbm.filter (fun e => e.1 < key || key + n ≤ e.1) }

/-- The leaf that hardware service writes: resident in the new frame, GEN one higher (R309). -/
def servedLeaf (e : Word) (die pb : Nat) : Word :=
  (e &&& 0x7E00FF0000000000#64 ||| 0x8000000000000000#64) |||
    ((e.extractLsb' 48 8 + 1).setWidth 64 <<< 48) &&& 0x00FF000000000000#64 ||| (BitVec.ofNat 64 die <<< 38) |||
    (BitVec.ofNat 64 pb <<< 16)

/-- The service of a page that is asked for: hardware service where the duty split and the page allow it (64 KiB, ZERO), and
the host's otherwise (R309). -/
def hwService (s : State) (job size : Nat) (e : Word) : Bool := !s.dutyBit job 1 && size = 0 && e.getLsbD 56

/-- Service by hardware, at once: the leaf made resident, or NOFRAME (R309). -/
def State.serveHw (s : State) (j : Job) (die pte : Nat) (e : Word) : State × Bool :=
  match s.takeFrame j die with
  | (s, none) => (s, false)
  | (s, some pb) =>
    (s.onMem (fun m => ((m.zero (hbmKey die (65536 * pb)) 65536).wr64 pte (servedLeaf e die pb))), true)

/-- A fault service started for a page, once (R309, R310). -/
def State.startService (s : State) (job die va pte size : Nat) (e : Word) : State :=
  let page := pageOf size va
  if s.mem.services.any (fun v => v.job = job && v.page = page) then s
  else
    let host := !hwService s job size e
    let n := s.host.evNext
    let s := if host then s.ask 1 job page die e.toNat true else s
    s.onMem (fun m => { m with services := m.services ++ [⟨job, page, size, pte, die, if host then some n else none, []⟩] })

/-- A requester waits for the service of a page. -/
def Mem.awaited (m : Mem) (job page who : Nat) : Mem :=
  { m with services := m.services.map (fun v =>
      if v.job = job && v.page = page && v.waiters.all (fun w => w.1 != who) then { v with waiters := v.waiters ++ [(who, m.qseq)] }
      else v) }
/-- The outcome of a failed service that a requester waited for: the status it receives, once. -/
def Mem.outcome (m : Mem) (job page who : Nat) : Option Nat :=
  (m.served.find? (fun v => v.job = job && v.page = page && v.waiters.any (fun w => w.1 = who))).map (·.status)
def Mem.told (m : Mem) (job page who : Nat) : Mem :=
  { m with served := (m.served.map (fun v => if v.job = job && v.page = page then { v with waiters := v.waiters.filter (fun w => w.1 != who) }
                       else v)).filter (fun v => !v.waiters.isEmpty) }

/-! ### Translation caches (R305) -/

def TEntry.covers (t : TEntry) (job va : Nat) : Bool := t.job = job && pageOf t.size va = t.page
/-- The entries that a parity error has struck leave the die's cache at the lookup that meets them, and are counted (R316). -/
def Mem.dropBad (m : Mem) (die job va : Nat) : Mem :=
  let hit := fun (t : TEntry) => t.die = die && t.bad && t.covers job va
  let n := (m.tcache.filter hit).length
  if n = 0 then m
  else { m with tcache := m.tcache.map (fun t => if hit t then { t with die := 4, bad := false } else t),
                cerr := m.cerr.set 0 die (m.cerr.get 0 die + n) }
def Mem.lookup (m : Mem) (die job va : Nat) : Option TEntry := m.tcache.find? (fun t => t.die = die && !t.bad && t.covers job va)
/-- Entries of a job's page dropped from every die's cache. -/
def Mem.dropPage (m : Mem) (job page n : Nat) : Mem :=
  { m with tcache := m.tcache.filter (fun t => !(t.job = job && t.page < page + n && page < t.page + pageBytes t.size)) }
/-- An entry filled into a die's cache. -/
def Mem.fill (m : Mem) (t : TEntry) : Mem :=
  { m with tcache := ((m.tcache.filter (fun x =>
      !((x.die = t.die || (x.die = 4 && x.leaf = t.leaf)) && x.job = t.job && x.page = t.page))) ++ [t]) }
/-- A page that a table held is remembered at die 4 until it is invalidated (R314; log 31). -/
def Mem.remember (m : Mem) (job page size : Nat) (e : Word) : Mem :=
  if m.tcache.any (fun x => x.job = job && x.page = page && x.leaf = some e) then m
  else { m with tcache := m.tcache ++ [⟨4, job, page, size, some e, false⟩] }
/-- An entry leaves its cache: no die finds it again, and it stands at die 4 until its page is unmapped (R314; log 31). -/
def Mem.leave (m : Mem) (t : TEntry) : Mem :=
  { m with tcache := m.tcache.map (fun x => if x = t then { x with die := 4 } else x) }
/-- An entry filled into a die's cache of 16,384. Replacement is not architected: an open value says which entry leaves a
full cache (log 5). -/
def State.fillCache (s : State) (t : TEntry) : State :=
  let l := s.mem.tcache.filter (fun x => x.die = t.die && !(x.job = t.job && x.page = t.page))
  if l.length < 16384 then s.onMem (·.fill t)
  else { s.onMem (fun m => (m.leave (l.getD (Config.freeValue 14 s.free).toNat t)).fill t) with free := s.free + 1 }
/-- The handle of a resident leaf (01 R32). -/
def handleOf (size : Nat) (e : Word) (va : Nat) : Handle :=
  let info : Word := 1#1 ++ BitVec.ofBool (pteWr e) ++ e.extractLsb' 58 2 ++ BitVec.ofNat 2 size ++ 0#2 ++
    e.extractLsb' 48 8 ++ 0#8 ++ e.extractLsb' 38 2 ++ e.extractLsb' 16 22 ++ 0#16
  ⟨info, BitVec.ofNat 57 (pageOf size va)⟩

/-! ### Pins and access counters (R306, R311) -/

def Handle.frame (h : Handle) : Nat := frameId h.die h.pbase
def Mem.pin (m : Mem) (f : Nat) : Mem := { m with pins := m.pins.set 0 f (m.pins.get 0 f + 1) }
def Mem.unpin (m : Mem) (f : Nat) : Mem := { m with pins := m.pins.set 0 f (m.pins.get 0 f - 1) }
/-- `n` accesses of a job by a die to a 64 KiB region, saturating (R311). They go through handles, so that the page is pinned:
where the migration engine would move it, its counter is held at the threshold (R312). -/
def State.countAcc (s : State) (job key die n : Nat) : State :=
  let k := 4 * frameOf key + die
  let v := s.mem.acc.get 0 k + n
  let thr := match s.job job with | some j => if s.dutyBit job 0 then 0 else j.migthresh | none => 0
  if unitFrame (frameOf key) then s
  else if thr != 0 && thr ≤ v then s.onMem (fun m => { m with acc := m.acc.set 0 k (min 65535 thr), held := m.held.set false k true })
  else s.onMem (fun m => { m with acc := m.acc.set 0 k (min 65535 v) })

/-! ### Freed frames, and the leaves of a table (R302, R314) -/

/-- A freed frame enters its die's quarantine (R314); a frame that a unit owns never does (14 R381). -/
def State.quarantine (s : State) (job die pb : Nat) : State :=
  if unitFrame (frameId die pb) then s else s.onMem (fun m => { m with quar := m.quar ++ [⟨die, pb, m.qseq, job⟩] })
/-- The frames of a resident leaf's page, freed. -/
def State.quarantinePage (s : State) (job size : Nat) (e : Word) : State :=
  (List.range (pageBytes size / 65536)).foldl (fun s i => s.quarantine job (pteDie e) (ptePbase e + i)) s
/-- The number of entries of a level's table, and the bytes that an entry spans (R302). -/
def levelCount (level : Nat) : Nat := match level with | 3 => 16384 | 2 => 8192 | 1 => 512 | _ => 32
def levelSpan (level : Nat) : Nat := match level with | 3 => 2 ^ 43 | 2 => 2 ^ 30 | 1 => 2 ^ 21 | _ => 2 ^ 16
/-- The entries of a table that are not zero: their indices, ascending. -/
def tableIdx (m : Mem) (base n : Nat) : List Nat :=
  ((m.hbm.filter (fun e => decide (base ≤ e.1) && decide (e.1 < base + 8 * n))).map (fun e => (e.1 - base) / 8)).eraseDups
/-- The leaves below a table that lie in `[lo, hi)`: first address, size code, the entry's index, and the entry. -/
def leavesFrom (m : Mem) (lo hi : Nat) : Nat → Nat → Nat → List (Nat × Nat × Nat × Word)
  | 0, base, va =>
    (tableIdx m base 32).filterMap (fun i =>
      let a := va + i * 65536
      let e := m.rd64 (base + 8 * i)
      if a < hi && lo < a + 65536 && e.getLsbD 62 && !pteMalformed 0 e then some (a, 0, base + 8 * i, e) else none)
  | n + 1, base, va =>
    (tableIdx m base (levelCount (n + 1))).flatMap (fun i =>
      let a := va + i * levelSpan (n + 1)
      let e := m.rd64 (base + 8 * i)
      if a < hi && lo < a + levelSpan (n + 1) && e.getLsbD 62 && !pteMalformed (n + 1) e then
        (if e.getLsbD 61 then [(a, n + 1, base + 8 * i, e)]
         else leavesFrom m lo hi n (hbmKey (e.extractLsb' 38 2).toNat (256 * (e.extractLsb' 8 30).toNat)) a)
      else [])
def Job.leaves (j : Job) (m : Mem) (lo hi : Nat) : List (Nat × Nat × Nat × Word) :=
  leavesFrom m lo hi 3 (hbmKey (j.ptroot.extractLsb' 38 2).toNat (131072 * (j.ptroot.extractLsb' 17 21).toNat)) 0
/-- The host has written memory that was `was`: the resident pages whose leaves its write took out of a table are remembered until
their invalidation, which frees their frames (R307, R314). -/
def State.rememberLeaves (s : State) (was : Mem) : State :=
  s.sched.jobs.foldl (fun s e => match e.2 with
    | none => s
    | some j =>
      let now := j.leaves s.mem 0 (2 ^ 57)
      ((j.leaves was 0 (2 ^ 57)).filter (fun x => ptePres x.2.2.2 && !now.contains x)).foldl (fun s x =>
        s.onMem (·.remember j.num x.1 x.2.1 x.2.2.2)) s) s

end Sys2Proof.Machine
end

