-- ==== Sys2Proof/Machine/Record.lean ====
section
/-! DEFINITION. The bytes that a trap frame and a save image hold (09_traps_preemption_context.md R281, R283, R517) and
their reading back, and the fetch of a bundle (03_bundle_encoding.md R86). -/
namespace Sys2Proof.Machine

/-! ### Bytes -/

def zeros (n : Nat) : List Byte := List.replicate n 0
/-- `n` bytes of a list from byte `a`, zeros past its end. -/
def slice (l : List Byte) (a n : Nat) : List Byte := let r := (l.drop a).take n; r ++ zeros (n - r.length)
/-- The little-endian number in `n` bytes from byte `a`. -/
def num (l : List Byte) (a n : Nat) : Nat := ofLe ((l.drop a).take n)
def b8 (n : Nat) : Byte := BitVec.ofNat 8 n

/-! ### Fetch -/

def Job.inCode (j : Job) (a : Nat) : Bool := j.code.any (fun c => c.1 ≤ a && a < c.1 + c.2)
/-- The code sections of a core's job, and the bytes in them. Those of the firmware context are the image in flash, from address 0
(19 R475; log 37). -/
def State.inCode (s : State) (job a : Nat) : Bool :=
  if job = fwJob then a < s.host.flash.length else match s.job job with | some j => j.inCode a | none => false
def State.codeBytes (s : State) (job a n : Nat) : List Byte :=
  if job = fwJob then slice s.host.flash a n else match s.job job with | some j => j.bytes.bytes a n | none => zeros n
/-- Bytes of a core's job that lie in one of its code sections, which are never writable (R116). -/
def Job.codeMeets (j : Job) (va n : Nat) : Bool := j.code.any (fun c => decide (c.1 < va + n) && decide (va < c.1 + c.2))
def State.codeHit (s : State) (c va n : Nat) : Bool :=
  match (s.core c).job.bind s.job with | some j => j.codeMeets (va % 2 ^ 57) n | none => false
/-- The bundle at an address (R86): one whose first or last byte lies outside every code section is illegal, reported
against the header. Where such a bundle holds an illegal slot word within its section too, report 6 stands, though R115 has the lowest
report code present: a choice of the model (log 42). -/
def State.fetch (s : State) (job : Nat) (k : CoreKind) (a : Nat) : Except DecodeErr Bundle :=
  let len := headerLen (BitVec.ofNat 32 (ofLe (s.codeBytes job a 4)))
  if s.inCode job a && s.inCode job (a + len - 1) then decodeBundle k (s.codeBytes job a 60) else .error (.illegal 6)
/-- The word that unit `u`'s slot has in the bundle at an address, if it has one (R285). -/
def State.slotWordAt (s : State) (job a u : Nat) : Option Word :=
  let h := BitVec.ofNat 32 (ofLe (s.codeBytes job a 4))
  let slots := headerSlots h
  let at0 := a + 4 + (if h.getLsbD 31 then 8 else 0)
  match slots.findIdx? (fun sl => sl.code = (u - 1) / 2) with
  | some i => some (BitVec.ofNat 64 (ofLe (s.codeBytes job (at0 + 8 * i) 8)))
  | none => none

/-! ### Commands (R281) -/

def Slot.ofUnit (u : Nat) : Slot := Slot.all.getD ((u - 1) / 2) .s
/-- The instruction of a command. -/
def Cmd.instr (d : Cmd) : Option Instr := decodeWord (Slot.ofUnit d.unit) d.word
/-- The opcode of a command within its class (R112). -/
def Cmd.op (d : Cmd) : Nat := (d.word.extractLsb' 57 7).toNat
def Cmd.bits (d : Cmd) (lo n : Nat) : Nat := (d.word >>> lo).toNat % 2 ^ n
def Cmd.isM (d : Cmd) : Bool := d.q = 0
def Cmd.gpred (d : Cmd) : Nat := d.bits 43 4
def Cmd.gneg (d : Cmd) : Bool := d.word.getLsbD 47
def Cmd.acq (d : Cmd) : Bool := d.word.getLsbD 42
def Cmd.rel (d : Cmd) : Bool := d.word.getLsbD 41
def Cmd.isRing (d : Cmd) : Bool := !d.isM && d.op = 6
def Cmd.isGather (d : Cmd) : Bool := !d.isM && d.op = 3
/-- CWAIT and CARM (07 R211). -/
def Cmd.isWaitOrArm (d : Cmd) : Bool := !d.isM && (d.op = 9 || d.op = 10)
/-- The command has interrupt steps (07 R216). -/
def Cmd.hasSteps (d : Cmd) : Bool :=
  if d.isM then d.op = 3 || d.op = 4 || d.op = 5 || d.op = 6 || d.op = 7 || d.op = 8 || d.op = 9
  else d.op ≤ 8
/-- The granules delivered form the first ones of the command, so that their count says what is done (R281). -/
def Cmd.inOrder (d : Cmd) : Bool := (List.range d.done.length).all d.done.contains
/-- How many granules the command has delivered before the first that it has not. -/
def Cmd.inRow (d : Cmd) : Nat := ((List.range d.done.length).takeWhile d.done.contains).length
/-- A CBIND whose stream register is full delivers nothing before a pop (01 R28, 07 R241). -/
def Cmd.blocked (k : Ctx) (d : Cmd) : Bool :=
  !d.isM && d.op = 5 && decide (8 ≤ (k.stream.get Stream.empty (d.bits 18 3)).vecs.length)
/-- A started command stands at an interrupt step, where a trap or a save suspends it, or has failed (R280, 13 R369, R371). A
copy's first step is its first granule delivered (07 R216, 20 R487), which a full stream register holds back. -/
def Cmd.atStep (k : Ctx) (d : Cmd) : Bool :=
  d.failed.isSome ||
    (d.hasSteps && !d.finished && (d.isM || (d.inOrder && (d.isGather || !d.done.isEmpty || d.blocked k))))

def slotByte (o : Option Nat) : Nat := match o with | some k => 128 + k | none => 0
/-- Bytes 53 to 63 of a suspension record (R281). -/
def Cmd.progress (d : Cmd) : List Byte :=
  if d.isM then [b8 d.prog0, b8 d.prog1] ++ zeros 9
  else leBytes 8 (if d.isGather then d.inRow else 256 * d.inRow) ++ [b8 (slotByte d.slotNo)] ++ zeros 2
/-- A discard or a suspension record (R281). -/
def Cmd.record (d : Cmd) (susp : Bool) : List Byte :=
  leBytes 8 d.naming ++ [b8 d.unit, b8 d.rep] ++ zeros 2 ++ leBytes 4 d.n ++ leBytes 8 d.issuing ++
  leBytes 8 d.ra.toNat ++ leBytes 8 d.rb.toNat ++ leBytes 8 d.seed.toNat ++
  [b8 (d.rm % 8 + (if d.fz then 8 else 0)), d.banks] ++ leBytes 2 d.stream.toNat ++ [b8 (d.bits 43 5)] ++
  (if susp then d.progress else zeros 11)

def Cmd.empty : Cmd :=
  { q := 0, tag := 0, unit := 7, word := 0, naming := 0, issuing := 0, rep := 0, n := 0, ra := 0, rb := 0, seed := 0,
    rm := 0, fz := false, stream := 0, banks := 0xE4, started := false, failed := none, prog0 := 0, prog1 := 0,
    done := [], slotNo := none, blk := [], aux := [], hs := Handle.empty, hd := Handle.empty, flags := Flags.none,
    finished := false, key := 0, guarded := false, resumed := false, birth := 0, rows := [], dense := [], old := [] }

/-- The queue of a commit unit: 0 M, 1 C0, 2 C1. -/
def unitQueue (u : Nat) : Nat := (u - 1) / 2 - 3

/-- The command a record describes, with the slot word found in its naming bundle (R285). -/
def Cmd.ofRecord (w : Word) (l : List Byte) (susp : Bool) : Cmd :=
  let u := num l 8 1
  let d : Cmd :=
    { Cmd.empty with
      q := unitQueue u, unit := u, word := w, naming := num l 0 8 % 2 ^ 57, rep := num l 9 1, n := num l 12 4,
      issuing := num l 16 8 % 2 ^ 57, ra := BitVec.ofNat 64 (num l 24 8), rb := BitVec.ofNat 64 (num l 32 8),
      seed := BitVec.ofNat 64 (num l 40 8), rm := num l 48 1 % 8, fz := num l 48 1 / 8 % 2 = 1,
      banks := b8 (num l 49 1), stream := BitVec.ofNat 16 (num l 50 2) }
  if !susp then d
  else
  let d := { d with guarded := true, resumed := true }
  if d.isM then { d with prog0 := num l 53 1, prog1 := num l 54 1 }
  else
    let n := num l 53 8
    { d with done := List.range (if d.isGather then n else n / 256),
             slotNo := if num l 61 1 / 128 = 1 then some (num l 61 1 % 32) else none }

/-! ### Pipes (R283, R517) -/

def Pipe.bytes (p : Pipe) : List Byte :=
  leBytes 8 p.word.toNat ++ leBytes 8 p.naming ++ leBytes 4 p.n ++ [b8 p.beats, b8 p.tile, b8 (if p.mem then 1 else 0)] ++
    zeros 9
def Pipe.ofBytes (l : List Byte) (cap : Capture) : Pipe :=
  { mem := num l 22 1 % 2 = 1, word := BitVec.ofNat 64 (num l 0 8), naming := num l 8 8 % 2 ^ 57, n := num l 16 4,
    beats := num l 20 1, tile := num l 21 1, cap := cap, hid := false }
def Capture.bytes (c : Capture) : List Byte :=
  leBytes 8 c.c0.toNat ++ leBytes 8 c.c1.toNat ++ leBytes 8 c.c2.toNat ++ leBytes 2 c.stream.toNat ++ zeros 6
def Capture.ofBytes (l : List Byte) : Capture :=
  ⟨BitVec.ofNat 64 (num l 0 8), BitVec.ofNat 64 (num l 8 8), BitVec.ofNat 64 (num l 16 8), BitVec.ofNat 16 (num l 24 2)⟩

def unitList : List Nat := [1, 2, 3, 4, 5, 6, 7, 8, 9, 10, 11, 12]
def pipesBytes (t : Tbl Pipe) : List Byte := unitList.flatMap (fun u => (t.get Pipe.empty u).bytes)
/-- A pipe's capture record: zero where it remembers nothing, or where its naming issue drew nothing (R517). -/
def Pipe.capBytes (p : Pipe) : List Byte := if p.mem && !p.hid then p.cap.bytes else Capture.empty.bytes
def capsBytes (t : Tbl Pipe) : List Byte := unitList.flatMap (fun u => (t.get Pipe.empty u).capBytes)
def pipesOf (l : List Byte) : Tbl Pipe :=
  unitList.foldl (fun t u => t.set Pipe.empty u
    (Pipe.ofBytes (slice l (64 + 32 * (u - 1)) 32) (Capture.ofBytes (slice l (1088 + 32 * (u - 1)) 32)))) []

/-! ### The sequencer record (R283) -/

/-- A pending transfer. The record gives a jump its target and its push; the kind of another transfer stands in bits
[61:57] (log 10). -/
def xferWord (x : Option Xfer) (skip : Option Nat) : Nat :=
  match x, skip with
  | some (.jump t p), _ => 2 ^ 63 + (if p then 2 ^ 62 else 0) + t % 2 ^ 57
  | some .tend, _ => 2 ^ 63 + 1 * 2 ^ 57
  | some .waittask, _ => 2 ^ 63 + 2 * 2 ^ 57
  | some .yield, _ => 2 ^ 63 + 3 * 2 ^ 57
  | some .trapRet, _ => 2 ^ 63 + 4 * 2 ^ 57
  | none, some t => 2 ^ 63 + 5 * 2 ^ 57 + t % 2 ^ 57
  | none, none => 0
def xferOf (w : Nat) : Option Xfer × Option Nat :=
  if w < 2 ^ 63 then (none, none)
  else
    match w / 2 ^ 57 % 32 with
    | 0 => (some (.jump (w % 2 ^ 57) (w / 2 ^ 62 % 2 = 1)), none)
    | 1 => (some .tend, none)
    | 2 => (some .waittask, none)
    | 3 => (some .yield, none)
    | 4 => (some .trapRet, none)
    | 5 => (none, some (w % 2 ^ 57))
    | _ => (none, none)

/-- Suspended commands, matrix first, then C0 and C1, each in queue order; discarded commands in tag order (R283). -/
def suspList (e : Eng) : List Cmd :=
  [0, 1, 2].flatMap (fun q => (e.fly ++ e.queue.filter (·.resumed)).filter (fun d => d.q = q))
/-- Commands that have not started, and never had: discarded, in tag order (R280). -/
def discList (e : Eng) : List Cmd := e.queue.filter (fun d => !d.resumed)

/-- The sequencer record of a split (R283): 4,096 bytes. -/
def seqRecord (addr resume rep cause : Nat) (q : Seqr) (e : Eng) (i0 i1 : Word) : List Byte :=
  let sl := suspList e
  leBytes 8 addr ++ [b8 resume, b8 rep, b8 (match q.leaf with | some k => 128 + k | none => 0), b8 cause,
    b8 (discList e).length, b8 sl.length] ++ zeros 2 ++ leBytes 8 (xferWord q.xfer q.loopSkip) ++ leBytes 8 i0.toNat ++
    leBytes 8 i1.toNat ++ zeros 24 ++ pipesBytes q.pipes ++ zeros 64 ++
    slice (sl.flatMap (·.record true)) 0 576 ++ capsBytes q.pipes ++ zeros 64 ++
    slice ((discList e).flatMap (·.record false)) 0 2560

/-- A suspended command as it waits in its queue again: one that had started keeps what it read then; a CGATH begins its bag
again (07 R210, 13 R371). -/
def Cmd.revive (d : Cmd) : Cmd :=
  { d with guarded := true, resumed := true, flags := Flags.none, rows := if d.isGather then [] else d.rows,
           prog1 := if d.isGather then 0 else d.prog1 }
/-- The commands of a record: suspended ones and discarded ones, each with its slot word (R284, R285). -/
def recordCmds (s : State) (job : Nat) (l : List Byte) (susp : Bool) : List Cmd :=
  let n := num l (if susp then 13 else 12) 1
  let base := if susp then 512 else 1536
  (List.range n).filterMap (fun k =>
    let r := slice l (base + 64 * k) 64
    (s.slotWordAt job (num r 0 8 % 2 ^ 57) (num r 8 1)).map (fun w => Cmd.ofRecord w r susp))

end Sys2Proof.Machine
end

