-- ==== Sys2Proof/Machine/Ops.lean ====
section
/-! DEFINITION. The shared operations of the machine: raising a fault, committing a unit's effect, scheduling a result
and landing it (03_bundle_encoding.md R90), an access that translates when it is made, semaphores (01 R33), the
return-address store (04 R138, R139), taking a restartable trap (09 R282) and returning from it (09 R284). -/
namespace Sys2Proof.Machine

/-! ### Causes (01 R38) -/

def causeIllegal : Nat := 0x01
def causeSchedule : Nat := 0x02
def causeBind : Nat := 0x03
def causeConfig : Nat := 0x04
def causeRange : Nat := 0x05
def causeHandle : Nat := 0x06
def causeOffset : Nat := 0x07
def causeWrite : Nat := 0x08
def causeAlign : Nat := 0x09
def causeUnder : Nat := 0x0A
def causeEcc : Nat := 0x0B
def causeHang : Nat := 0x0C
def causeSpill : Nat := 0x0D
def causeExpiry : Nat := 0x0E
def causeOp : Nat := 0x0F
def causeRing : Nat := 0x10
def causeSem : Nat := 0x11
def causeWindow : Nat := 0x12
def causeKilled : Nat := 0x13
def causeProbe : Nat := 0x20
def causeArith : Nat := 0x21
def causeSave : Nat := 0x22
def causeTrap : Nat := 0x23

/-! ### Faults and commits -/

def UnitCtx.slot (u : UnitCtx) : Nat := (u.unit - 1) / 2
def UnitCtx.pipe (u : UnitCtx) : Nat := (u.unit - 1) % 2

/-- A fatal cause, unless the context already has one (09 R275); `unit` is the commit unit it comes from, if it comes from
one. -/
def Core.fatal (k : Core) (x : Fatal) (unit : Nat := 16) : Core :=
  if k.seq.fatal.isSome then k else k.onSeq (fun q => { q with fatal := some x, fatalUnit := unit })
/-- A fatal cause of the unit in hand (09 R518). -/
def Core.fault (k : Core) (u : UnitCtx) (cause : Nat) (detail : Nat := 0) : Core :=
  k.fatal ⟨cause, u.slot, detail, u.bundle⟩ u.unit
/-- The tick of detection of the fatal cause a core has just taken (09 R294). -/
def Core.noteFatal (k : Core) (tick : Nat) : Core :=
  if k.seq.fatal.isSome && k.seq.fatalTick.isNone then k.onSeq (fun q => { q with fatalTick := some tick }) else k
/-- A fatal cause that comes after those of the commit units of the cycle under way (09 R275). -/
def Core.fatalLater (k : Core) (x : Fatal) : Core := if k.seq.later.isSome then k else k.onSeq (fun q => { q with later := some x })
/-- The cycle ends: such a cause is taken, unless a commit unit's was. -/
def Core.takeLater (k : Core) : Core :=
  match k.seq.later with
  | none => k
  | some x => (k.fatal x).onSeq (fun q => { q with later := none })
/-- A cause that arises outside a bundle and is delivered to a context (09 R518); a core with no context takes none. In an open
cycle it comes after the causes of the commit units (09 R275). -/
def State.deliver (s : State) (c cause detail : Nat) : State :=
  if (s.core c).job.isNone then s
  else s.onCore c (fun k =>
    if k.seq.opened then k.fatalLater ⟨cause, 6, detail, 0⟩ else (k.fatal ⟨cause, 6, detail, 0⟩).noteFatal s.gtick)
/-- A restartable trap of the unit in hand (09 R276). -/
def Core.trap (k : Core) (t : Trap) : Core := k.onSeq (fun q => { q with trap := some t })

/-- Flags that a unit raises in this cycle: set at its end (02 R66). -/
def Core.raiseFlags (k : Core) (unit : Nat) (f : BitVec 5) : Core :=
  if f = 0 then k else k.onSeq (fun q => { q with pend := q.pend ++ [⟨1, q.issue, unit, .flags f⟩] })

/-- What becomes of a unit's effect `k'` on core `k` (09 R275 to R277): nothing after a fatal cause; of an uncommitted
unit, only its fatal cause, or its trap with the flags an arithmetic trap sets. -/
def commitGate (k k' : Core) : Core :=
  if k.seq.fatal.isSome then k
  else match k'.seq.fatal with
    | some x => k.onSeq (fun q => { q with fatal := some x, fatalUnit := k'.seq.fatalUnit })
    | none =>
      if k.seq.trap.isSome then k
      else match k'.seq.trap with
        | some t =>
          let k1 := k.onSeq (fun q => { q with trap := some t })
          if t.cause = causeArith then k1.raiseFlags t.unit (t.info0.extractLsb' 0 5) else k1
        | none => k'

/-- Commit an effect on the unit's own core. -/
def commitCore (s : State) (f : Core → Core) : Host.Outcome State Fault Refusal :=
  .next (s.onCore s.unit.core (fun k => (commitGate k (f k)).noteFatal s.gtick))

/-- Commit an effect that reaches beyond the core: an uncommitted unit leaves all but its own cause undone, and what the
memory side found on its behalf: error records, page-table events, services (10 R304, R317). -/
def commitState (s : State) (f : State → State) : Host.Outcome State Fault Refusal :=
  let c := s.unit.core
  let k := s.core c
  let s' := f s
  let k' := s'.core c
  .next (if k.seq.fatal.isSome || k.seq.trap.isSome then s.setCore c ((commitGate k k').noteFatal s.gtick)
    else if k'.seq.fatal.isSome || k'.seq.trap.isSome then
      { s.setCore c ((commitGate k k').noteFatal s.gtick) with mem := s'.mem, host := s'.host }
    else s')

/-! ### Scheduling results -/

/-- A result that becomes visible at the end of the `l`-th issue cycle (R90). -/
def Core.after (k : Core) (u : UnitCtx) (l : Nat) (e : LandEff) : Core :=
  k.onSeq (fun q => { q with pend := q.pend ++ [⟨l, q.issue, u.unit, e⟩] })
/-- A result that becomes visible in the cycle of this issue before every other one of the issue (05 R178). What an earlier issue has
landing in that cycle is there before it: BLOCK clears such a latch too, a choice of the model (log 43). -/
def Core.first (k : Core) (u : UnitCtx) (e : LandEff) : Core :=
  k.onSeq (fun q => { q with pend := q.pend.filter (fun p => p.issue != q.issue) ++ [⟨1, q.issue, u.unit, e⟩] ++
                                     q.pend.filter (fun p => p.issue = q.issue) })
/-- The register a scalar word writes: none with WS = 1, none for s0 (R97, 01 R15). -/
def sDst (f : SF) : Option Nat := if f.ws = 1 || f.dst = 0 then none else some f.dst.toNat
/-- The latch of a scalar pipe: b4 or b5 (04 R126). -/
def UnitCtx.sLatch (u : UnitCtx) : Nat := 4 + u.pipe
/-- A scalar result to its register and the pipe's latch, with a predicate where one is written too (04 R126). -/
def Core.result (k : Core) (u : UnitCtx) (f : SF) (l : Nat) (v : Word) (pred : Option (Nat × Bool) := none) : Core :=
  k.after u l (.scalar (sDst f) (some u.sLatch) v pred)
/-- The order of writes to one register: issues, and units within one (05 R161). -/
def writeKey (issue unit : Nat) : Nat := issue * 16 + unit

/-- A scalar register has been written by an operation of the issue order `key` (05 R161). -/
def Seqr.wrote (q : Seqr) (r key : Nat) : Seqr := { q with regIssue := q.regIssue.set 0 r (max key (q.regIssue.get 0 r)) }
/-- The scratchpad at the end of this issue cycle, before the writes of this issue (05 R164, 11 R335). -/
def Core.spadNow (k : Core) : Ctx :=
  k.seq.pend.foldl (fun x p =>
    match p.eff with
    | .spad a l => if p.left = 1 && p.issue != k.seq.issue then x.st a l else x
    | _ => x) k.ctx

/-- A TMIRROR of the register is still copying, so that a write to it faults (04 R152). -/
def Core.pairing (k : Core) (t : Nat) : Bool :=
  k.seq.pend.any (fun p => match p.eff with | .pair a b => a = t || b = t | _ => false)
/-- The partner that a register has, or will have once the TMIRROR in flight has copied (01 R21, 04 R152). -/
def Core.pairedWith (k : Core) (t : Nat) : Option Nat :=
  k.seq.pend.foldl (fun r p => match p.eff with
    | .pair a b => if a = t then some b else if b = t then some a else r
    | _ => r) (k.ctx.partner t)

/-! ### What a started command sees of the scratchpad (05 R164) -/

/-- Bytes of the scratchpad change under a started command: it goes on with those that it found. -/
def Cmd.keepOld (x : Ctx) (a n : Nat) (d : Cmd) : Cmd :=
  if !d.started then d
  else { d with old := d.old ++ ((List.range n).filter (fun i => d.old.all (fun e => e.1 != a + i))).map (fun i =>
    (a + i, x.spad.get 0 (a + i))) }
def Eng.mapAll (e : Eng) (f : Cmd → Cmd) : Eng :=
  { e with queue := e.queue.map f, fly := e.fly.map f, kept := e.kept.map (fun x => (x.1, x.2.map f)) }
/-- An STS is about to land: no command that has started will see it (R164). -/
def Core.keepOld (k : Core) (a n : Nat) : Core := k.onEng (fun e => e.mapAll (Cmd.keepOld k.ctx a n))
/-- An engine writes scratchpad bytes of a core, which every command sees. -/
def Cmd.dropOld (a n : Nat) (d : Cmd) : Cmd := { d with old := d.old.filter (fun e => decide (e.1 < a) || decide (a + n ≤ e.1)) }
/-- The scratchpad as a started command reads it. -/
def Ctx.under (k : Ctx) (d : Cmd) : Ctx :=
  if d.old.isEmpty then k else { k with spad := d.old.foldl (fun t e => t.set 0 e.1 e.2) k.spad }

/-- The effect of a result on the core alone. -/
def Core.landLocal (k : Core) (p : Pending) : Core :=
  match p.eff with
  | .scalar dst latch v pred =>
    let k := match dst with
      | some r => (k.onCtx (·.setReg r v)).onSeq (·.wrote r (writeKey p.issue p.unit))
      | none => k
    let k := match latch with | some b => k.onCtx (fun x => { x with latchS := x.latchS.set 0 b v }) | none => k
    match pred with | some (n, b) => k.onCtx (·.setPred n b) | none => k
  | .pred n b latch =>
    let k := k.onCtx (·.setPred n b)
    match latch with
    | some i => k.onCtx (fun x => { x with latchS := x.latchS.set 0 i (if b then 1 else 0) })
    | none => k
  | .pinv n => k.onCtx (·.clearW n)
  | .row latch tile v =>
    let k := k.onCtx (fun x => { x with latchV := x.latchV.set 0 latch v })
    match tile with
    | some (t, j, col, w) => k.onCtx (fun x => if col then x.setTileCol t j w v else x.setTileRow t j v)
    | none => k
  | .spad a l => (if p.unit ≤ 2 then k.keepOld a l.length else k).onCtx (·.st a l)
  | .special i v => k.onCtx (·.setSpecial i v)
  | .flags f => k.onCtx (·.addFlags (Flags.ofBits f))
  | .bank b slot => k.onCtx (fun x => { x with bank := (x.bank &&& ~~~(3#8 <<< (2 * b))) ||| (BitVec.ofNat 8 slot <<< (2 * b)) })
  | .pair a b => k.onCtx (fun x =>
      let x := (List.range x.rows).foldl (fun x j => x.setTileRow1 b j (x.tileRow a j)) x
      { x with mirror := (x.mirror.set 255 a b).set 255 b a })
  | .unpair a => k.onCtx (fun x =>
      match x.partner a with
      | some b => { x with mirror := (x.mirror.set 255 a 255).set 255 b 255 }
      | none => x)
  | .portcfg n q => k.onCtx (fun x => { x with port := x.port.set Port.empty n q })
  | .ringcfg n r => k.onCtx (·.setRg n r)
  | .clearLatch => k.onCtx (·.clearLatches)
  | _ => k

/-! ### Accesses that translate when they are made (08 R250, 10 R305 to R310) -/

/-- The outcome of such an access. -/
inductive Acc where
  | ok (p : Place)
  | nomap
  | noperm
  | noframe
  | wait
  deriving DecidableEq, Repr

/-- What a leaf gives an access of `n` bytes: a page not writable, or a code section (03 R116), takes no write. -/
def State.reach (s : State) (job va n : Nat) (wr : Bool) (size : Nat) (e : Word) : Acc :=
  if wr && (!pteWr e || (match s.job job with | some j => j.codeMeets va n | none => false)) then .noperm else .ok (ptePlace size e va)
/-- The walk of an access that its die's cache does not answer: what it reaches fills the cache (10 R305). -/
def State.accessWalk (s : State) (job : Nat) (rq : Req) (va n : Nat) (wr : Bool) : State × Acc :=
  match s.translate job va with
  | (s, .ok size e) => (s.fillCache ⟨rq.die, job, pageOf size va, size, some e, false⟩, s.reach job va n wr size e)
  | (s, .nomap) => (s.fillCache ⟨rq.die, job, pageOf 0 va, 0, none, false⟩, .nomap)
  | (s, .marked) => (s, .wait)
  | (s, .absent pte size e) =>
    let page := pageOf size va
    if wr && !pteWr e then (s, .noperm)
    else match s.mem.outcome job page rq.who with
      | some st => (s.onMem (·.told job page rq.who), if st = 5 then .noframe else .nomap)
      | none =>
        if s.mem.services.any (fun v => v.job = job && v.page = page) || !hwService s job size e then
          ((s.startService job rq.die va pte size e).onMem (·.awaited job page rq.who), .wait)
        else match s.job job with
          | none => (s, .nomap)
          | some j =>
            match s.serveHw j rq.die pte e with
            | (s, false) => (s, .noframe)
            | (s, true) => match s.translate job va with
              | (s, .ok size e) => (s.fillCache ⟨rq.die, job, pageOf size va, size, some e, false⟩, s.reach job va n wr size e)
              | (s, _) => (s, .noframe)
/-- Translate for an access of `n` bytes, a write where `wr`: by the cache of the requester's die, or by a walk. A page that is
being served is waited for; the hardware's service of a page that nobody waits for is done at once (10 R305, R309, R310). -/
def State.access (s : State) (job : Nat) (rq : Req) (va n : Nat) (wr : Bool) : State × Acc :=
  let va := va % 2 ^ 57
  let s := s.onMem (·.dropBad rq.die job va)
  if s.mem.marked job va then (s, .wait)
  else match s.mem.lookup rq.die job va with
    | some t => match t.leaf with
      | some e => (s, s.reach job va n wr t.size e)
      | none => (s, .nomap)
    | none => s.accessWalk job rq va n wr

/-! ### The SRAM pool's error correction (10 R316, R317, R520) -/

/-- The address of a pool word in the error log. -/
def sramAddr (c w : Nat) : Nat :=
  2 ^ 63 + (if kindOf c = .lookup then 2 ^ 62 + (c - 64) % 64 * 2 ^ 56 else c % 64 * 2 ^ 56) + 8 * w
/-- A read of `n` bytes of a core's pool from byte `lo`: correctable words are corrected and counted, an uncorrectable one
is reported and fails the read. -/
def State.sram (s : State) (c reader lo n : Nat) : State × Bool :=
  let hit := fun (e : Nat × Bool) => decide (2 ^ 20 * c + lo / 8 ≤ e.1) && decide (8 * e.1 < 8 * (2 ^ 20 * c) + lo + n)
  let soft := s.mem.sramSoft.filter hit
  let bad := s.mem.sramBad.filter hit
  if soft.isEmpty && bad.isEmpty then (s, false)
  else
    let s := s.onMem (fun m => { m with sramSoft := m.sramSoft.filter (fun e => !hit e), sramBad := m.sramBad.filter (fun e => !hit e),
                                        cerr := m.cerr.set 0 (dieOf c) (m.cerr.get 0 (dieOf c) + soft.length) })
    (bad.foldl (fun s e => s.logErr (dieOf c) reader (sramAddr c (e.1 - 2 ^ 20 * c)) (s.core c).ctx.ctxid) s, !bad.isEmpty)

/-- The words of a core outside its pool that an operation reads: scalar register `r` at `r`, stream register `q` at 256 + `q` for
the vector popped next, and the engine queue `q` at 512 + `q` for the command at its head. -/
def coreWord (c w : Nat) : Nat := 2 ^ 28 + 2 ^ 12 * c + w
/-- Their error correction (10 R316): correctable words are corrected and counted; an uncorrectable one is logged, at an address that
no rule gives, and fails the read (log 41). -/
def State.coreEcc (s : State) (c reader : Nat) (ws : List Nat) : State × Bool :=
  let hit := fun (e : Nat × Bool) => ws.any (fun w => coreWord c w = e.1)
  let soft := s.mem.sramSoft.filter hit
  let bad := s.mem.sramBad.filter hit
  if soft.isEmpty && bad.isEmpty then (s, false)
  else
    let s := s.onMem (fun m => { m with sramSoft := m.sramSoft.filter (fun e => !hit e), sramBad := m.sramBad.filter (fun e => !hit e),
                                        cerr := m.cerr.set 0 (dieOf c) (m.cerr.get 0 (dieOf c) + soft.length) })
    if bad.isEmpty then (s, false)
    else ({ s.logErr (dieOf c) reader (Config.freeValue 64 s.free).toNat (s.core c).ctx.ctxid with free := s.free + 1 }, true)

/-- The error correction of several ranges of the pool. -/
def State.sramAll (s : State) (c reader : Nat) (l : List (Nat × Nat)) : State × Bool :=
  l.foldl (fun a r => let x := a.1.sram c reader r.1 r.2; (x.1, a.2 || x.2)) (s, false)

/-! ### Semaphores (01 R33, R43; 05 R173, R174) -/

def State.jobOf (s : State) (c : Nat) : Option Nat := (s.core c).job
/-- The index of cluster semaphore `k` (16 to 31) as a core names it. -/
def semIndex (c k : Nat) : Option Nat := (clusterOf c).map (fun cl => 16 * cl + (k - 16))
/-- The semaphore exists for the core's context: its own, or one of its cluster that its job holds (R33). -/
def State.semOk (s : State) (c k : Nat) : Bool :=
  k < 16 || (match semIndex c k with
    | some i => (s.jobOf c).isSome && s.semOwner.get none i = s.jobOf c
    | none => false)
def State.semGet (s : State) (c k : Nat) : Nat :=
  if k < 16 then (s.core c).ctx.sem.get 0 k
  else match semIndex c k with | some i => s.semC.get 0 i | none => 0
def State.semPut (s : State) (c k v : Nat) : State :=
  if k < 16 then s.onCtx c (fun x => { x with sem := x.sem.set 0 k v })
  else match semIndex c k with | some i => { s with semC := s.semC.set 0 i v } | none => s
/-- A signal; none where the count would pass 65,535 (R33). -/
def State.semAdd (s : State) (c k n : Nat) : Option State :=
  if s.semGet c k + n > 65535 then none else some (s.semPut c k (s.semGet c k + n))

/-! ### Pins and the accesses in flight (10 R306, R314; 05 R168) -/

def Place.frame (p : Place) : Nat := frameOf p.key
/-- An access of `n` bytes touches one of the `m` frames from frame `f` on. -/
def Place.meets (p : Place) (n f m : Nat) : Bool := decide (p.key < 65536 * (f + m)) && decide (65536 * f < p.key + n)
/-- An access of a core to the `m` frames from `f` on is in flight: issued through a handle, or a command's (R168, R314). -/
def Core.uses (k : Core) (f m : Nat) : Bool :=
  k.seq.loads.any (fun l => l.place.meets l.size f m) || k.seq.stores.any (fun x => x.place.meets x.bytes.length f m)
/-- A page of `m` frames from frame `f` on is pinned: by a handle or a started command, or by an access issued through a
handle given up since (R168, R169). -/
def State.pinned (s : State) (f m : Nat) : Bool := s.mem.pins.get 0 f != 0 || s.cores.any (fun e => e.2.uses f m)
/-- A handle written: the old page loses its pin, the new page gains one (R168). -/
def State.writeHandle (s : State) (c n : Nat) (h : Handle) : State :=
  let old := (s.core c).ctx.h n
  let s := if old.valid then s.onMem (·.unpin old.frame) else s
  let s := if h.valid then s.onMem (·.pin h.frame) else s
  s.onCtx c (·.setH n h)
/-- A handle released (R169): VALID cleared, the page's pin dropped. -/
def State.releaseHandle (s : State) (c n : Nat) : State :=
  let h := (s.core c).ctx.h n
  if h.valid then (s.onMem (·.unpin h.frame)).onCtx c (·.setH n { h with info := h.info &&& 0x7FFFFFFFFFFFFFFF#64 }) else s
def handleList : List Nat := List.range 16
def State.releaseHandles (s : State) (c : Nat) (mask : BitVec 16) : State :=
  handleList.foldl (fun s n => if mask.getLsbD n then s.releaseHandle c n else s) s

/-! ### Invalidations and acknowledgements that wait (10 R307, R308; 19 R473) -/

def State.ackHost (s : State) (seq : Nat) (payload : List Byte) : State := s.sendHost (.ack seq payload)
/-- A page of a job is in an operation of the module: a service or a migration (10 R307). -/
def Mem.inService (m : Mem) (job page n : Nat) : Bool :=
  m.services.any (fun v => v.job = job && decide (v.page < page + n) && decide (page < v.page + pageBytes v.size)) ||
    m.migs.any (fun g => g.job = job && decide (g.page < page + n) && decide (page < g.page + 65536))
/-- A page whose invalidation waits: pinned, or in an operation. -/
def State.pageHeld (s : State) (job page size : Nat) (leaf : Option Word) : Bool :=
  s.mem.inService job page (pageBytes size) ||
    (match leaf with
     | some e => ptePres e && s.pinned (frameId (pteDie e) (ptePbase e)) (pageBytes size / 65536)
     | none => false)
/-- The frame of an entry that has left the caches is freed, unless the page's leaf, as a walk finds it, still names it. -/
def State.leaveFrame (s : State) (t : TEntry) (e : Word) (w : WalkRes) : State :=
  match w with
  | .leaf _ _ e' => if ptePres e' && pteDie e' = pteDie e && ptePbase e' = ptePbase e then s else s.quarantinePage t.job t.size e
  | _ => s.quarantinePage t.job t.size e
/-- An entry leaves the caches (10 R307, R314, R315). -/
def State.dropEntry (s : State) (t : TEntry) : State :=
  let s := s.onMem (·.dropPage t.job t.page (pageBytes t.size))
  match t.leaf, s.job t.job with
  | some e, some j => s.leaveFrame t e (j.walk s.mem t.page)
  | _, _ => s
/-- A mapped page of a forced unmap: unmapped, its frame freed (10 R308). -/
def State.unmapLeaf (s : State) (job : Nat) (x : Nat × Nat × Nat × Word) : State :=
  let s := s.onMem (fun m => (m.wr64 x.2.2.1 0).dropPage job x.1 (pageBytes x.2.1))
  if ptePres x.2.2.2 then s.quarantinePage job x.2.1 x.2.2.2 else s
/-- A waiting range goes as far as its pages are free; when it is through, and it was the last of its datagram, that is
acknowledged. -/
def State.invalTry (s : State) (v : Inval) : State :=
  let mine := fun (s : State) => s.mem.tcache.filter (fun t => v.hits t.job t.page (pageBytes t.size))
  let s := (mine s).foldl (fun s t =>
    if s.pageHeld t.job t.page t.size t.leaf || !s.mem.tcache.contains t then s else s.dropEntry t) s
  let leaves := fun (s : State) => match s.job v.job with
    | some j => if v.force then j.leaves s.mem v.va (v.va + v.len) else []
    | none => []
  let s := (leaves s).foldl (fun s x =>
    if s.pageHeld v.job x.1 x.2.1 (some x.2.2.2) then s else s.unmapLeaf v.job x) s
  if !(mine s).isEmpty || !(leaves s).isEmpty || s.mem.inService v.job v.va v.len then s
  else
    let s := s.onMem (fun m => { m with invals := m.invals.filter (· != v) })
    if s.mem.invals.any (fun w => w.seq = v.seq) then s else s.ackHost v.seq []
/-- What waits for pins, or for a context's end, goes on. -/
def State.hostGo (s : State) : State :=
  if s.mem.invals.isEmpty && s.host.dues.isEmpty then s
  else
    let s := s.mem.invals.foldl (fun s v => s.invalTry v) s
    let ended := fun (s : State) (d : Due) => !((s.core d.core).job = some d.job && (s.core d.core).cgen = d.cgen)
    let s := (s.host.dues.filter (ended s)).foldl (fun s d => s.ackHost d.seq []) s
    s.onHost (fun h => { h with dues := h.dues.filter (fun d => !ended s d) })

/-! ### Translation lookups of TRN and PROBE (05 R167 to R171, 10 R305) -/

/-- A background walk for a page, once (R305). -/
def State.startWalk (s : State) (die job va : Nat) : State :=
  let page := va / 65536
  if s.mem.walks.any (fun w => w.die = die && w.job = job && w.va / 65536 = page) ||
      s.mem.services.any (fun v => v.job = job && pageOf v.size va = v.page) then s
  else s.onMem (fun m => { m with walks := m.walks ++ [⟨die, job, va, m.qseq⟩] })

/-- The status code of R167 that a lookup in the die's cache gives, and the handle on OK: 1 where the page is not in the
cache, or is marked by the migration engine (10 R313). -/
def State.lookup (s : State) (c : Nat) (wr : Bool) (va : Nat) : Nat × Option Handle :=
  match s.jobOf c with
  | none => (2, none)
  | some job =>
    if s.mem.marked job va then (1, none)
    else match s.mem.lookup (dieOf c) job va with
      | none => (1, none)
      | some t => match t.leaf with
        | none => (2, none)
        | some e => if wr && !pteWr e then (3, none) else (0, some (handleOf t.size e va))

/-- A lookup by a core meets the entries of its die that a parity error has struck (10 R316). -/
def State.seeCache (s : State) (c va : Nat) : State :=
  match s.jobOf c with
  | some j => s.onMem (·.dropBad (dieOf c) j va)
  | none => s
/-- TRN at L (R168): at which of its 48 cycles the cache is looked up and a missed walk starts is a choice, the last (log 10). -/
def State.landTrn (s : State) (c : Nat) (p : Pending) (hn pd : Nat) (wr : Bool) (va : BitVec 57) (dst latch : Option Nat) :
    State :=
  let r := s.lookup c wr va.toNat
  let s := s.seeCache c va.toNat
  let s := match s.jobOf c with
    | some j => if r.1 = 1 && !s.mem.marked j va.toNat then s.startWalk (dieOf c) j va.toNat else s
    | none => s
  let s := match r.2 with | some h => s.writeHandle c hn h | none => s
  s.onCore c (fun k => k.landLocal { p with eff := .scalar dst latch (BitVec.ofNat 64 r.1) (some (pd, r.1 = 0)) })

/-! ### Landing (R90) -/

/-- A fault found when a result lands: among the fatal causes of one issue cycle that of the lowest commit unit is taken; a
context that is already ending keeps its cause (09 R275). -/
def Core.landFault (k : Core) (cause unit : Nat) : Core :=
  let k' := k.onSeq (fun q => { q with fatal := some ⟨cause, (unit - 1) / 2, 0, k.seq.pc⟩, fatalUnit := unit })
  match k.seq.fatal with
  | none => k'
  | some _ => if k.seq.phase = .run && unit < k.seq.fatalUnit then k' else k

/-- One result becomes visible. -/
def State.landOne (s : State) (c : Nat) (p : Pending) : State :=
  match p.eff with
  | .semAdd k v => match s.semAdd c k v with
    | some s => s
    | none => s.onCore c (·.landFault causeSem p.unit)
  | .semSet k v => s.semPut c k v
  | .hrel mask => s.releaseHandles c mask
  | .trn hn pd wr va dst latch => s.landTrn c p hn pd wr va dst latch
  | .scalar _ _ _ _ => s.onCore c (·.landLocal p)
  | .pred _ _ _ => s.onCore c (·.landLocal p)
  | .pinv _ => s.onCore c (·.landLocal p)
  | .row _ _ _ => s.onCore c (·.landLocal p)
  | .spad _ _ => s.onCore c (·.landLocal p)
  | .special _ _ => s.onCore c (·.landLocal p)
  | .flags _ => s.onCore c (·.landLocal p)
  | .bank _ _ => s.onCore c (·.landLocal p)
  | .pair _ _ => s.onCore c (·.landLocal p)
  | .unpair _ => s.onCore c (·.landLocal p)
  | .portcfg _ _ => s.onCore c (·.landLocal p)
  | .ringcfg _ _ => s.onCore c (·.landLocal p)
  | .clearLatch => s.onCore c (·.landLocal p)

def LandEff.isFlags (e : LandEff) : Bool := match e with | .flags _ => true | _ => false
/-- One issue cycle passes for the results in flight: those at the end of their latency land, in issue order and unit
order within one issue (R42, R90); the flags raised in it come last (02 R66). -/
def State.landCycle (s : State) (c : Nat) : State :=
  let all := (s.core c).seq.pend.map (fun p => { p with left := p.left - 1 })
  let now := all.filter (fun p => p.left = 0)
  let s := s.onSeq c (fun q => { q with pend := all.filter (fun p => p.left != 0) })
  ((now.filter (fun p => !p.eff.isFlags) ++ now.filter (fun p => p.eff.isFlags)).foldl (fun s p => s.landOne c p) s).onCore c
    (·.takeLater.noteFatal s.gtick)

/-! ### The return-address store (04 R138, R139) -/

/-- Where entry `n` of the stack lies: a scratchpad address, or a job virtual address (R138). -/
def Ctx.rasPlace (k : Ctx) (c n : Nat) : Bool × Nat :=
  if n < 512 then (true, spadSize c k - 4096 + 8 * n)
  else (false, (k.ovfptr.toNat % 2 ^ 57 / 8 * 8 + 8 * (n - 512)) % 2 ^ 57)

/-- The fault of an HBM spill or refill that finds no page to use (R139). -/
def accCause : Acc → Nat
  | .noperm => causeWrite
  | _ => causeHandle

/-- Write an entry to its place; the cause where its page cannot take it (R139). -/
def State.rasSpill (s : State) (c n v : Nat) : State × Option Nat :=
  match (s.core c).ctx.rasPlace c n with
  | (true, a) => (s.onCtx c (·.st a (leBytes 8 v)), none)
  | (false, va) =>
    let job := ((s.core c).job).getD fwJob
    match s.access job (coreReq c) va 8 true with
    | (s, .ok p) =>
      let r := s.writeHbm job (s.core c).ctx.ctxid p.key (leBytes 8 v)
      (r.1, if r.2 then some causeEcc else none)
    | (s, a) => (s, some (accCause a))

/-- A push (R138, R139): the oldest on-chip entry makes room first. -/
def State.rasPush (s : State) (u : UnitCtx) (v : Nat) : State :=
  let k := (s.core u.core).ctx
  let put := fun (s : State) => s.onCtx u.core (fun k => { k with ras := v :: k.ras.take 15, depth := k.depth + 1 })
  if k.depth = 0xFFFFFFFF then s.onCore u.core (·.fault u causeConfig)
  else if k.ras.length < 16 then put s
  else match s.rasSpill u.core (k.depth - 16) (k.ras.getD 15 0) with
    | (s, none) => put s
    | (s, some cause) => s.onCore u.core (·.fault u cause)

/-- A pop of the on-chip store (R138). -/
def Ctx.rasPop (k : Ctx) : Ctx := { k with ras := k.ras.drop 1, depth := k.depth - 1 }

/-! ### Trap entry and return (09 R278, R282, R284) -/

/-- The drains of R278 are over: nothing in flight lockstep, no LD, ATOM or requested COP reply outstanding, every started
command at an interrupt step or retired. -/
def Core.drained (k : Core) : Bool :=
  k.seq.pend.isEmpty && k.seq.loads.isEmpty && k.seq.cops.all (fun x => x.dst = 0) && k.eng.fly.all (·.atStep k.ctx)

/-- The handler of a cause (R274). -/
def Job.handler (j : Job) (cause : Nat) : Nat :=
  if cause = causeProbe then j.probev else if cause = causeArith then j.arithv else j.trapv
def State.handlerOf (s : State) (c cause : Nat) : Nat :=
  match (s.jobOf c).bind s.job with | some j => j.handler cause | none => 0

/-- Suspended and discarded commands leave the engines (R280): their records stand in the frame. A suspended command
sets the flags of its steps (07 R216). -/
def Core.clearEngines (k : Core) : Core :=
  let fl := Flags.all (k.eng.fly.map (·.flags))
  (k.onEng (fun e => { e with queue := [], fly := [] })).onCtx (·.addFlags fl)
def State.unpinCmd (s : State) (d : Cmd) : State :=
  let s := if d.started && d.hs.valid then s.onMem (·.unpin d.hs.frame) else s
  if d.started && d.hd.valid then s.onMem (·.unpin d.hd.frame) else s
/-- The commands that a core's engines and its trap frames hold. -/
def Eng.holds (e : Eng) : List Cmd := e.fly ++ e.queue ++ e.kept.flatMap (·.2)
def Core.setKept (k : Core) (t : Tbl (List Cmd)) : Core := k.onEng (fun e => { e with kept := t })
/-- Every command of the core is given up, and with it the pages of those that have started (07 R210). -/
def State.dropFlights (s : State) (c : Nat) : State :=
  ((s.core c).eng.holds.foldl (fun s d => s.unpinCmd d) s).onCore c (fun k => k.clearEngines.setKept [])
/-- The suspended commands of a trap go with frame `n`; they keep their handles' pages (07 R210). -/
def State.suspend (s : State) (c n : Nat) : State :=
  let e := (s.core c).eng
  ((e.kept.get [] n).foldl (fun s d => s.unpinCmd d) s).onCore c (fun k =>
    k.clearEngines.setKept (e.kept.set [] n ((suspList e).map (·.revive))))

/-- The pipes without their remembered operations: a busy one counts its beats to their end (01 R48, 03 R91). -/
def forgetOps (t : Tbl Pipe) : Tbl Pipe :=
  unitList.foldl (fun r u => r.set Pipe.empty u { Pipe.empty with beats := (t.get Pipe.empty u).beats }) []
/-- Every pipe forgets its operation, every latch is cleared (R278, R282, R288; 01 R48). -/
def Core.clearPipes (k : Core) : Core :=
  (k.onSeq (fun q => { q with pipes := forgetOps q.pipes, pipes0 := [] })).onCtx (·.clearLatches)

/-- Take the restartable trap that the core holds, its drains over (R282): the sequencer record goes to the frame, TDEPTH
and CAUSE change, the trap-return entry is pushed, the handler is entered. -/
def State.takeTrap (s : State) (c : Nat) : State :=
  let k := s.core c
  match k.seq.trap with
  | none => s
  | some t =>
    let u : UnitCtx := { UnitCtx.empty with core := c, unit := if t.cause = causeTrap then t.unit - 1 else t.unit, bundle := k.seq.pc }
    let h := s.handlerOf c t.cause
    if k.ctx.tdepth = 3 || h = 0 then s.onCore c (·.fault u causeOp t.cause)
    else
      let f := spadSize c k.ctx - 4096 - 4096 * (k.ctx.tdepth + 1)
      let rec0 := seqRecord k.seq.pc t.unit k.seq.rep t.cause k.seq k.eng t.info0 t.info1
      let s := s.suspend c (k.ctx.tdepth + 1)
      let s := s.onCtx c (fun x =>
        { x.st f rec0 with tdepth := x.tdepth + 1,
                           sw := { x.sw with cause := BitVec.ofNat 6 t.cause, resume := t.unit, repidx := k.seq.rep } })
      let s := s.rasPush u (k.seq.pc % 2 ^ 57 / 4 * 4 + 1)
      s.onCore c (fun k => k.clearPipes.onSeq (fun q =>
        { q with trap := none, phase := .run, pc := h, rep := 0, resume := 0, leaf := none, xfer := none, loopSkip := none,
                 stall := none, idleCycles := 0, probe := none, waitTick := none }))

/-- The suspended commands of a record: the one kept with it where the record still says what was suspended, else the one that
the record describes (R281, R284). -/
def resumedCmds (s : State) (job : Nat) (l : List Byte) (kept : List Cmd) : List Cmd :=
  (recordCmds s job l true).zipIdx.map (fun d =>
    match kept[d.2]? with
    | some x => if x.record true = d.1.record true && x.word = d.1.word then x else d.1
    | none => d.1)
/-- The sequencer and the queues as a record leaves them (R284 from the requeue on): suspended commands wait at the heads
of their queues, discarded ones are entered again, and the return point is re-entered (R276, R285). `n` says where the
suspended ones were kept: a trap frame, or 0 for a save. -/
def State.resumeFrom (s : State) (c n : Nat) (l : List Byte) : State :=
  let job := ((s.core c).job).getD fwJob
  let kept := (s.core c).eng.kept.get [] n
  let susp := resumedCmds s job l kept
  let s := ((kept.filter (fun d => !susp.contains d)).foldl (fun s d => s.unpinCmd d) s).onCore c (fun k =>
    k.setKept (k.eng.kept.set [] n []))
  let disc := recordCmds s job l false
  let resume := num l 8 1 % 16
  let x := xferOf (num l 16 8)
  s.onCore c (fun k =>
    let n := k.eng.tagNext
    let tagged := susp.zipIdx.map (fun d => { d.1 with tag := n + d.2, key := writeKey (k.seq.issue + 1) 0 })
    let again := disc.zipIdx.map (fun d => { d.1 with tag := n + susp.length + d.2, key := writeKey (k.seq.issue + 1) 0 })
    ((k.onEng (fun e => { e with queue := tagged, fly := [], replay := again, tagNext := n + susp.length + disc.length })).onSeq
      (fun q => { q with phase := if disc.isEmpty then .run else .replay, pc := num l 0 8 % 2 ^ 57, resume := resume,
                         rep := if resume = 0 then 0 else num l 9 1 % 16,
                         leaf := if resume != 0 && num l 10 1 / 128 = 1 then some (num l 10 1 % 8) else none,
                         xfer := x.1, loopSkip := x.2, pipes := pipesOf l, pipes0 := pipesOf l, trap := none, frozen := true,
                         stall := none, idleCycles := 0, probe := none, waitTick := none })).onCtx
      (fun y => { y with sw := { y.sw with replay := !disc.isEmpty, resume := resume,
                                           repidx := if resume = 0 then 0 else num l 9 1 % 16 } }))

/-- A record that a return refuses with cause 0x01: a RESUME of 13 to 15, more than 40 discard records or more than 9
suspension records (R284). -/
def recordBad (l : List Byte) : Bool := num l 8 1 % 16 > 12 || num l 12 1 > 40 || num l 13 1 > 9

/-- The trap return, its waits over (R284); its read of the frame is logged with a refill's reader code (log 10). A refusal
reports the original cause: the record's, or with no frame left that of the last trap, in SW.CAUSE (R294; log 10). -/
def State.trapReturn (s : State) (c : Nat) : State :=
  let k := s.core c
  let u : UnitCtx := { UnitCtx.empty with core := c, bundle := k.seq.pc }
  if k.ctx.tdepth = 0 then s.onCore c (·.fault u causeOp k.ctx.sw.cause.toNat)
  else
    let f := spadSize c k.ctx - 4096 - 4096 * k.ctx.tdepth
    let l := k.ctx.ld f 4096
    let e := s.sram c 1 (spadPool c k.ctx + f) 4096
    let s := e.1
    if e.2 then s.onCore c (·.fault u causeEcc)
    else if recordBad l then s.onCore c (·.fault u causeIllegal (num l 11 1 % 64))
    else (s.onCtx c (fun x => { x with tdepth := x.tdepth - 1 })).resumeFrom c k.ctx.tdepth l

end Sys2Proof.Machine
end

