-- ==== Sys2Proof/Machine/Watermark.lean ====
section
/-! DEFINITION. Watermarks as this module knows them, the origin table (17_fabric_watermarks.md R439, R440), and the
sending of packets and control messages (R427, R430 to R432). -/
namespace Sys2Proof.Machine

def ownModule : Nat := Config.moduleNumber.toNat
def wmModule (w : Nat) : Nat := w / 2 ^ 20 % 4096
def wmSlot (w : Nat) : Nat := w / 2 ^ 8 % 4096
def wmGen (w : Nat) : Nat := w % 256
/-- The expiry window E of a job (R443). -/
def Fabric.expiry (f : Fabric) (job : Nat) : Nat :=
  match f.keys.get none job with | some (_, e) => e | none => 2000000

/-- What is known of a watermark asked for by a job: landed, void, or nothing yet (R183, R184, R440). -/
def Fabric.known (f : Fabric) (wm job : Nat) : Option Bool :=
  if wmModule wm = ownModule then
    let o := f.origins.get Origin.empty (wmSlot wm)
    if o.state = 0 || o.state = 2 || o.job != job || o.gen.toNat != wmGen wm then some true
    else if o.state = 3 then some false else none
  else (f.settled.find? (fun e => e.wm.toNat = wm)).map (·.landed)

/-- The carried watermarks of a packet. -/
def carriedOf (p : Packet) : List Nat := (if 1 ≤ p.nwm then [p.c0] else []) ++ (if p.nwm = 2 then [p.c1] else [])
/-- A hold in step 1 learns what became of a watermark that it carries, and keeps it (R441, R442). -/
def Hold.learn (h : Hold) (wm : Nat) (landed : Bool) : Hold :=
  if h.released || !(carriedOf h.pkt).contains wm then h
  else if landed then { h with known := wm :: h.known } else { h with void := true }
/-- An outcome enters the cache of settled watermarks, which holds the newest 16,384 (R440), and the holds that wait for it. -/
def Fabric.cache (f : Fabric) (wm : Nat) (landed : Bool) (tick : Nat) : Fabric :=
  let l := f.settled.filter (fun e => e.wm.toNat != wm) ++ [⟨BitVec.ofNat 32 wm, landed, tick⟩]
  { f with settled := l.drop (l.length - 16384), queries := f.queries.filter (fun q => q.wm.toNat != wm),
           holds := f.holds.map (·.learn wm landed) }

/-! ### Packets -/

/-- The virtual channel of a packet (R428). -/
def Packet.vc (ty : Nat) : Nat := if ty = 2 then 3 else if ty ≤ 1 then 0 else 1
/-- What the tag covers: the nonce and the header with HOPS taken as zero (R430). -/
def pktAad (p : Packet) : List Nat :=
  [p.ty, p.aop, p.sz64.toNat, p.hasWm.toNat, p.nwm, p.dest, p.origin, p.unit, p.job, p.payload.length, p.addr, p.ownWm, p.c0,
    p.c1, p.seq, p.opb, p.expd, p.ctr]
/-- The flits of a packet: the header's, then the payload and the tag packed into the following ones (R428). -/
def Packet.flits (p : Packet) : Nat := 1 + (p.payload.length + 16 + 63) / 64
/-- The key of a packet: its job's; the group key for a NOTICE that concerns no job, which has job 0 where that job has no key
(R430; log 13). -/
def Fabric.keyOf (f : Fabric) (p : Packet) : Option Nat :=
  match f.keys.get none p.job with
  | some e => some e.1
  | none => if p.ty = 8 && p.job = 0 then f.groupKey else none
/-- The packet passes its check (R430): its job has a key, and the tag holds. -/
def Fabric.authentic (f : Fabric) (p : Packet) : Bool :=
  match f.keyOf p with
  | some key => Config.packetTag key (pktAad p) p.payload = p.tag
  | none => false

def pktZero : Packet :=
  { ty := 0, aop := 0, sz64 := false, hasWm := false, nwm := 0, dest := 0, origin := 0, unit := 128, hops := 0, job := 0,
    addr := 0, ownWm := 0, c0 := 0, c1 := 0, seq := 0, opb := 0, expd := 0, ctr := 0, payload := [], tag := 0, port := 16 }
/-- A control message with its bytes 16 to 27 (R432). -/
def ctrlMsg (ty dest job unit a b c : Nat) : Packet :=
  { pktZero with ty := ty, dest := dest, origin := ownModule, unit := unit, job := job, addr := a + b * 2 ^ 32, ownWm := c }
def pktA (p : Packet) : Nat := p.addr % 2 ^ 32
def pktB (p : Packet) : Nat := p.addr / 2 ^ 32 % 2 ^ 32

/-- What an own packet becomes at this module's own interface, which it reaches without a port: 16 stands for none (R427). -/
def deliverOwn (p : Packet) : Instr :=
  match p.ty with
  | 3 => .ack p
  | 4 => .nack p
  | 5 => .landed p
  | 6 => .query p
  | 7 => .release p
  | 8 => .notice p
  | _ => .packetAccept 16 p
/-- A packet fails its check: the port it came by counts it (R430). -/
def State.badAuth (s : State) (port : Nat) : State :=
  if 16 ≤ port then s
  else s.onFab (fun f =>
    let l := f.links.get Link.empty port
    { f with links := f.links.set Link.empty port { l with authErr := l.authErr + 1 } })

def State.logKind (s : State) (kind : Nat) : State := s.onHost (fun h => { h with log := h.log ++ [(s.gtick, kind)] })

/-! ### Ports and their credits (R428, R454; 13 R377) -/

/-- The credits of a link that starts (R428). -/
def freshCredits : Tbl Nat := [(0, 2048), (1, 256), (2, 64), (3, 1024)]
/-- The link holds the credits for all flits of a packet. -/
def Link.pays (l : Link) (p : Packet) : Bool := decide (Packet.flits p ≤ l.credit.get 0 (Packet.vc p.ty))
def Link.spend (l : Link) (p : Packet) : Link :=
  let v := Packet.vc p.ty
  { l with credit := l.credit.set 0 v (l.credit.get 0 v - Packet.flits p) }
/-- What a link sends of the packets of one channel in its buffer, oldest first, while it holds their credits. -/
def Link.drain (l : Link) (v : Nat) : List Packet → Link × List Packet
  | [] => (l, [])
  | p :: rest =>
    if Packet.vc p.ty != v then l.drain v rest
    else if l.pays p then
      let r := ({ l with buffer := l.buffer.erase p }.spend p).drain v rest
      (r.1, p :: r.2)
    else (l, [])
/-- What a link that runs sends: VC1 goes before VC3, and VC3 before VC0 (13 R377). -/
def Link.send (l : Link) : Link × List Packet :=
  let a := l.drain 1 l.buffer
  let b := a.1.drain 3 a.1.buffer
  let c := b.1.drain 0 b.1.buffer
  (c.1, a.2 ++ b.2 ++ c.2)
/-- What it sends of VC2: flits of two, a header and a tag (18 R457), which go before all others. -/
def Link.sendCol (l : Link) : List ColMsg → Link × List ColMsg
  | [] => (l, [])
  | m :: rest =>
    if 2 ≤ l.credit.get 0 2 then
      let r := { l with col := l.col.drop 1, credit := l.credit.set 0 2 (l.credit.get 0 2 - 2) }.sendCol rest
      (r.1, m :: r.2)
    else (l, [])
def Link.sendAll (l : Link) : Link × List ColMsg × List Packet :=
  let a := l.sendCol l.col
  let b := a.1.send
  (b.1, a.2, b.2)
/-- Credits come back from the other end: how many have is an open value (log 8). -/
def Link.repaid (l : Link) (n : Nat) : Link :=
  { l with credit := freshCredits.foldl (fun t e =>
      t.set 0 e.1 (min e.2 (t.get 0 e.1 + (Config.freeValue 12 (4 * n + e.1)).toNat))) l.credit }
/-- A port sends what its buffer holds and its credits pay for; where they are short, those that have come back are counted
first. -/
def State.flush (s : State) (port : Nat) : State :=
  let l := s.fab.links.get Link.empty port
  if !l.up then s
  else
    let short := l.sendAll.1.buffer != [] || l.sendAll.1.col != []
    let r := (if short then l.repaid s.free else l).sendAll
    { (s.onFab (fun f => { f with links := f.links.set Link.empty port r.1, out := f.out ++ r.2.2.map (fun p => (port, p)) })).onClk
        (fun c => { c with out := c.out ++ r.2.1 }) with
      free := if short then s.free + 1 else s.free }
/-- Every port tries again what it holds: the timers of the fabric and of the clock unit begin so (log 8). -/
def State.pump (s : State) : State :=
  (List.range 16).foldl (fun s p =>
    let l := s.fab.links.get Link.empty p
    if l.buffer.isEmpty && l.col.isEmpty then s else s.flush p) s
/-- A packet handed to a port: it waits in the port's buffer for the link and for its credits (R428, R454). -/
def State.toPort (s : State) (port : Nat) (p : Packet) : State :=
  (s.onFab (fun f =>
    let l := f.links.get Link.empty port
    { f with links := f.links.set Link.empty port { l with buffer := l.buffer ++ [p] } })).flush port

/-- A packet is dropped on its way: a NOTICE with reason 1 is logged at the origin when that is this module, or sent to it
when a route back exists (R427). -/
def State.hopLimit (s : State) (p : Packet) : State :=
  if p.origin = ownModule then s.logKind 1
  else
    let b := s.fab.route.get 0 p.origin
    if b.getLsbD 7 then
      let n := ctrlMsg 8 p.origin p.job p.unit 1 p.seq 0
      let ctr := s.fab.ctr.get 0 n.unit + 1
      let n := { n with ctr := ctr }
      let n := { n with tag := match s.fab.keyOf n with | some k => Config.packetTag k (pktAad n) [] | none => 0 }
      (s.onFab (fun f => { f with ctr := f.ctr.set 0 n.unit ctr })).toPort (b.toNat % 16) n
    else s
/-- A packet on its way: to the own interface, or by the port of its destination's entry; one that meets an entry that is
not valid is dropped (R427). -/
def State.routePkt (s : State) (p : Packet) : State :=
  if p.dest = ownModule then { s with inputs := s.inputs ++ [⟨0, deliverOwn p⟩] }
  else
    let e := s.fab.route.get 0 p.dest
    if e.getLsbD 7 then s.toPort (e.toNat % 16) p else s.hopLimit p

/-- A packet of another module on its way: HOPS steps, and one whose HOPS would reach 16 is dropped (R427). -/
def State.forwardPkt (s : State) (p : Packet) : State :=
  if p.dest = ownModule then s.routePkt p
  else if 16 ≤ p.hops + 1 then s.hopLimit p
  else s.routePkt { p with hops := p.hops + 1 }

/-- Send a packet of this module: its unit's CTR steps, and the tag is made (R430). -/
def State.sendPkt (s : State) (p : Packet) : State :=
  let ctr := s.fab.ctr.get 0 p.unit + 1
  let p := { p with ctr := ctr }
  let p := { p with tag := match s.fab.keyOf p with | some k => Config.packetTag k (pktAad p) p.payload | none => 0 }
  (s.onFab (fun f => { f with ctr := f.ctr.set 0 p.unit ctr })).routePkt p

/-- A QUERY for a watermark, unless one is outstanding (R440). -/
def State.askWm (s : State) (wm job : Nat) : State :=
  if s.fab.queries.any (fun q => q.wm.toNat = wm) then s
  else
    (s.onFab (fun f => { f with queries := f.queries ++ [⟨BitVec.ofNat 32 wm, job, s.gtick + 100000⟩] })).sendPkt
      (ctrlMsg 6 (wmModule wm) job 128 wm 0 0)

/-! ### The origin table (R439) -/

def Fabric.freeSlot (f : Fabric) (n : Nat) : Bool := (f.origins.get Origin.empty n).state = 0
/-- The table is full: no slot is free. -/
def Fabric.originFull (f : Fabric) : Bool := (List.range 4096).all (fun n => !f.freeSlot n)
/-- The task a core holds, as the records keep it: 0 for none, else its TCB number plus 1. -/
def Core.tcbHeld (k : Core) : Nat := match k.holds with | some t => t.node + 1 | none => 0
/-- Allocate a free slot for a context of core `c`; which one is an open value (R439, log 5). -/
def State.allocWm (s : State) (c job tcb : Nat) : State × Option Nat :=
  let r := (Config.freeValue 12 s.free).toNat
  match ((List.range 4096).map (fun k => (r + k) % 4096)).find? s.fab.freeSlot with
  | none => (s, none)
  | some n =>
    let o := s.fab.origins.get Origin.empty n
    let g := o.gen + 1
    let new : Origin := { Origin.empty with state := 1, gen := g, job := job, core := c, cgen := (s.core c).cgen, tcb := tcb,
                                            tick := s.gtick, win := s.gtick }
    ({ s.onFab (fun f => { f with origins := f.origins.set Origin.empty n new }) with free := s.free + 1 },
      some (ownModule * 2 ^ 20 + n * 256 + g.toNat))

/-- A pending slot settles: landed or void; the deferred queriers are answered (R439, R440). -/
def State.settleSlot (s : State) (n : Nat) (landed : Bool) : State :=
  let o := s.fab.origins.get Origin.empty n
  if o.state != 1 then s
  else
    let wm := ownModule * 2 ^ 20 + n * 256 + o.gen.toNat
    let new : Origin := { o with state := if landed then 2 else 3, tick := s.gtick, queriers := [], ev := none }
    let s := s.onFab (fun f => { f with origins := f.origins.set Origin.empty n new })
    let s := match o.ev with | some e => s.unask e | none => s
    o.queriers.foldl (fun s q => s.sendPkt (ctrlMsg 7 q.1 o.job q.2 wm (if landed then 0 else 1) 0)) s
/-- A watermark of this module settles, where its slot still holds that allocation. -/
def State.settleWm (s : State) (wm : Nat) (landed : Bool) : State :=
  if (s.fab.origins.get Origin.empty (wmSlot wm)).gen.toNat = wmGen wm then s.settleSlot (wmSlot wm) landed else s

end Sys2Proof.Machine
end

