-- ==== Sys2Proof/Machine/InStep.lean ====
section
/-! DEFINITION. The group tick and its rate (18_group_clock_col.md R455, R456), the members of the group and their ceilings at a
tick (R460), and whether the module is in step (R456, R464, R467 to R469). -/
namespace Sys2Proof.Machine

def Clock.mem (c : Clock) (m : Nat) : Member := c.members.get Member.empty m
def Clock.setMem (c : Clock) (m : Nat) (x : Member) : Clock := { c with members := c.members.set Member.empty m x }
def Clock.present (c : Clock) : List Nat := (c.members.filter (fun e => e.2.present)).map (·.1)
def Clock.isMember (c : Clock) : Bool := (c.mem ownModule).present
/-- The ceiling of a member at a tick. -/
def Member.at (x : Member) (t : Nat) : Nat :=
  if (match x.silent with | some u => decide (u ≤ t) | none => false) && !x.fallen then 0
  else match x.pending with | some (c, u) => if u ≤ t then c else x.ceil | none => x.ceil
/-- A member at a tick. -/
def Member.in (x : Member) (t : Nat) : Bool :=
  (x.present || (match x.joinAt with | some u => decide (u ≤ t) | none => false)) &&
    (match x.leaveAt with | some u => decide (t < u) | none => true)
/-- Its ceiling counts at a tick: it is a member, or it has been evicted and the round's tick has not come (R466). -/
def Member.counts (x : Member) (t : Nat) : Bool :=
  x.in t || (x.evictBy.isSome && (match x.goneAt with | some u => decide (t < u) | none => true))
def minCode (l : List Nat) : Nat := match l with | [] => 0 | a :: r => r.foldl min a
/-- The group ceiling at a tick (R460). -/
def Clock.groupAt (c : Clock) (t : Nat) : Nat := minCode ((c.members.filter (fun e => e.2.counts t)).map (fun e => e.2.at t))

/-- The parent link: the port towards the lowest-numbered member, for a member that is not it (R456). -/
def State.parentPort (s : State) : Option Nat :=
  let root := minCode ((s.clk.members.filter (fun e => e.2.in s.gtick)).map (·.1))
  if !(s.clk.mem ownModule).in s.gtick || root = ownModule then none else some ((s.fab.route.get 0 root).toNat % 16)
/-- It has been down for 100 µs (R456). -/
def State.parentLost (s : State) : Bool :=
  match s.parentPort with
  | none => false
  | some p =>
    let l := s.fab.links.get Link.empty p
    !l.up && decide (l.downAt + 100000 ≤ s.gtick)
/-- The estimate towards the parent has stayed above 20 ns for 100 µs (R456). -/
def Clock.offLate (c : Clock) (t : Nat) : Bool := match c.offBad with | some u => decide (u + 100000 ≤ t) | none => false
/-- The module is out of step (R456, R464, R467, R468), once its boot ROM has run (19 R482). -/
def State.outStep (s : State) : Bool :=
  let c := s.clk
  s.host.stage != 0 &&
    (!(c.mem ownModule).in s.gtick || c.offOut || c.offLate s.gtick || c.linkOut || s.parentLost || decide (s.gtick < c.loneUntil) ||
      decide (s.gtick < c.lateUntil))

/-- Time passes: the tick counts the nanoseconds, one more or one fewer in every 10,000 while it is being corrected towards the
parent's (R455, R456; log 16). -/
def State.passed (s : State) (dt : Nat) : State :=
  let c := s.clk
  let n := min ((c.osc + dt) / 10000 - c.osc / 10000) c.slew.natAbs
  let d : Int := if 0 ≤ c.slew then n else -n
  { s with gtick := ((s.gtick + dt : Nat) + d).toNat, clk := { c with osc := c.osc + dt, slew := c.slew - d } }

end Sys2Proof.Machine
end

