-- ==== Sys2Proof/Machine/Num.lean ====
section
/-! DEFINITION. Exact values, element types and the one rounding function (02_arithmetic.md R49 to R58, R63 to R70).
Values are exact: a finite value is a sign, a natural mantissa and a power of two; results round once. -/
namespace Sys2Proof.Machine

/-- The element types (R49). -/
inductive ETy where
  | f32 | bf16 | f16 | e4m3 | e5m2 | e2m1 | i8 | i16 | i32 | u32 | b1 | e8m0
  deriving DecidableEq, Repr

/-- The type of a 4-bit code; the codes 12 to 15 are illegal encodings (R49). -/
def ETy.ofCode : Nat → ETy
  | 0 => .f32 | 1 => .bf16 | 2 => .f16 | 3 => .e4m3 | 4 => .e5m2 | 5 => .e2m1 | 6 => .i8 | 7 => .i16 | 8 => .i32
  | 9 => .u32 | 10 => .b1 | _ => .e8m0

/-- The width in bits (R49). -/
def ETy.w : ETy → Nat
  | .f32 => 32 | .bf16 => 16 | .f16 => 16 | .e4m3 => 8 | .e5m2 => 8 | .e2m1 => 4 | .i8 => 8 | .i16 => 16 | .i32 => 32
  | .u32 => 32 | .b1 => 1 | .e8m0 => 8

/-- Lanes of a 256-byte row (R49). -/
def ETy.lanes (t : ETy) : Nat := 2048 / t.w

/-- A floating-point format: fraction bits, exponent bits, bias, and which special values it has (R50, R51). -/
structure Fmt where
  mb : Nat
  eb : Nat
  bias : Nat
  hasInf : Bool
  hasNan : Bool
  deriving DecidableEq, Repr

def Fmt.f32 : Fmt := ⟨23, 8, 127, true, true⟩
def Fmt.bf16 : Fmt := ⟨7, 8, 127, true, true⟩
def Fmt.f16 : Fmt := ⟨10, 5, 15, true, true⟩
def Fmt.e4m3 : Fmt := ⟨3, 4, 7, false, true⟩
def Fmt.e5m2 : Fmt := ⟨2, 5, 15, true, true⟩
def Fmt.e2m1 : Fmt := ⟨1, 2, 1, false, false⟩
/-- The 11-bit form of an immediate broadcast: sign, 5-bit exponent of bias 15, 5-bit fraction (R100). -/
def Fmt.imm11 : Fmt := ⟨5, 5, 15, true, true⟩

def ETy.fmt? : ETy → Option Fmt
  | .f32 => some .f32 | .bf16 => some .bf16 | .f16 => some .f16 | .e4m3 => some .e4m3 | .e5m2 => some .e5m2
  | .e2m1 => some .e2m1 | _ => none

/-- FPCTL.FZ flushes denormals of FP32, BF16 and FP16 only (R65). -/
def ETy.flushes : ETy → Bool
  | .f32 => true | .bf16 => true | .f16 => true | _ => false

/-- The position of the sign bit. -/
def Fmt.sign (f : Fmt) : Nat := 2 ^ (f.mb + f.eb)
/-- The code of +infinity, or of the first code above the largest finite value (R51). -/
def Fmt.maxFin (f : Fmt) : Nat :=
  if f.hasInf then (2 ^ f.eb - 1) * 2 ^ f.mb - 1 else if f.hasNan then 2 ^ (f.mb + f.eb) - 2 else 2 ^ (f.mb + f.eb) - 1
def Fmt.infCode (f : Fmt) : Nat := (2 ^ f.eb - 1) * 2 ^ f.mb
/-- The canonical NaN (R51). -/
def Fmt.nan (f : Fmt) : Nat :=
  if f.hasInf then f.infCode + 2 ^ (f.mb - 1) else if f.hasNan then 2 ^ (f.mb + f.eb) - 1 else 0

/-- An extended real with a signed zero: the value (−1)^neg · man · 2^exp. -/
inductive FVal where
  | nan
  | inf (neg : Bool)
  | fin (neg : Bool) (man : Nat) (exp : Int)
  deriving DecidableEq, Repr

def FVal.zero (neg : Bool) : FVal := .fin neg 0 0
def FVal.ofInt (i : Int) : FVal := .fin (decide (i < 0)) i.natAbs 0
def FVal.isNan : FVal → Bool
  | .nan => true
  | _ => false
def FVal.isZero : FVal → Bool
  | .fin _ 0 _ => true
  | _ => false
def FVal.neg : FVal → FVal
  | .nan => .nan
  | .inf s => .inf (!s)
  | .fin s m e => .fin (!s) m e
def FVal.signBit : FVal → Bool
  | .nan => false
  | .inf s => s
  | .fin s _ _ => s

/-- Two's complement reading of the low `w` bits. -/
def sextNat (w x : Nat) : Int := (BitVec.ofNat w x).toInt

/-- The low `w` bits of an integer, as a code. -/
def wrapInt (w : Nat) (i : Int) : Nat := (BitVec.ofInt w i).toNat

/-- The value of a code of a format (R50, R51). -/
def Fmt.val (f : Fmt) (code : Nat) : FVal :=
  let s := code.testBit (f.mb + f.eb)
  let mag := code % f.sign
  let e := mag / 2 ^ f.mb
  let m := mag % 2 ^ f.mb
  if f.hasInf && mag = f.infCode then .inf s
  else if mag > f.maxFin then .nan
  else if e = 0 then .fin s m (1 - f.bias - f.mb)
  else .fin s (m + 2 ^ f.mb) ((e : Int) - f.bias - f.mb)

/-- The code denotes a nonzero denormal of the format (R50). -/
def Fmt.denormal (f : Fmt) (code : Nat) : Bool :=
  let mag := code % f.sign
  mag != 0 && mag < 2 ^ f.mb

/-- The value of an E8M0 code (R52). -/
def e8m0Val (e : Nat) : FVal := if e = 255 then .nan else .fin false 1 ((e : Int) - 127)

/-- The value of an element's code (R50 to R53). -/
def ETy.val (t : ETy) (code : Nat) : FVal :=
  match t.fmt? with
  | some f => f.val code
  | none =>
    match t with
    | .e8m0 => e8m0Val code
    | .b1 => .ofInt (code % 2 : Nat)
    | .u32 => .ofInt (code % 2 ^ 32 : Nat)
    | t => .ofInt (sextNat t.w code)

/-- An input after FZ: a denormal of FP32, BF16 or FP16 becomes zero of the same sign, without a flag (R65). -/
def ETy.valFz (fz : Bool) (t : ETy) (code : Nat) : FVal :=
  match t.fmt? with
  | some f => if fz && t.flushes && f.denormal code then .zero (code.testBit (f.mb + f.eb)) else f.val code
  | none => t.val code

/-- Bits of a nonzero mantissa; 0 for 0. -/
def bitLen (m : Nat) : Nat := if m = 0 then 0 else m.log2 + 1

/-- floor(log2 |x|) of a nonzero finite value. -/
def log2Val (m : Nat) (e : Int) : Int := (bitLen m : Int) - 1 + e

/-- Whether the discarded part `rem` of `2^sh`, below the kept magnitude `k`, rounds the magnitude up (R57, R58).
`rb` is the 16-bit draw of stochastic rounding. -/
def roundsUp (mode : Rm) (rb : Nat) (neg : Bool) (k rem sh : Nat) : Bool :=
  match mode with
  | .rne => 2 * rem > 2 ^ sh || (2 * rem = 2 ^ sh && k % 2 = 1)
  | .rtz => false
  | .rup => rem ≠ 0 && !neg
  | .rdn => rem ≠ 0 && neg
  | .sr => rem ≠ 0 && rem * 2 ^ 16 / 2 ^ sh + rb ≥ 2 ^ 16

/-- The multiple of 2^q next to man · 2^exp that the mode picks, and whether it is inexact (R57, R58). -/
def roundAt (mode : Rm) (rb : Nat) (neg : Bool) (man : Nat) (exp q : Int) : Nat × Bool :=
  if q ≤ exp then (man * 2 ^ (exp - q).toNat, false)
  else
    let sh := (q - exp).toNat
    let k := man / 2 ^ sh
    let rem := man % 2 ^ sh
    (if roundsUp mode rb neg k rem sh then k + 1 else k, rem != 0)

/-- The result of an overflow (R68): formats without an infinity give their largest finite value in every mode. -/
def Fmt.overflow (f : Fmt) (mode : Rm) (neg : Bool) : Nat :=
  let sat := (if neg then f.sign else 0) + f.maxFin
  let inf := (if neg then f.sign else 0) + f.infCode
  if !f.hasInf then sat
  else match mode with
    | .rne => inf
    | .sr => inf
    | .rtz => sat
    | .rup => if neg then sat else inf
    | .rdn => if neg then inf else sat

/-- RoundTo(fmt, x, mode), with the flags of R63 and the flush of FZ where it applies (R57, R58, R64, R65, R68). -/
def Fmt.round (f : Fmt) (mode : Rm) (rb : Nat) (fz : Bool) (x : FVal) : Nat × Flags :=
  match x with
  | .nan => if f.hasNan then (f.nan, Flags.none) else (0, Flags.IV)
  | .inf s =>
    if f.hasInf then ((if s then f.sign else 0) + f.infCode, Flags.none)
    else ((if s then f.sign else 0) + f.maxFin, Flags.OFNX)
  | .fin s m e =>
    let sg := if s then f.sign else 0
    if m = 0 then (sg, Flags.none)
    else
      let emin : Int := 1 - f.bias
      let q := max (log2Val m e) emin - f.mb
      let (k, inexact) := roundAt mode rb s m e q
      let code := (q - (emin - f.mb)).toNat * 2 ^ f.mb + k
      if code > f.maxFin then (f.overflow mode s, Flags.OFNX)
      else if fz && code != 0 && code < 2 ^ f.mb then (sg, Flags.UFNX)
      else (sg + code, { Flags.none with uf := inexact && code != 0 && decide (code < 2 ^ f.mb), nx := inexact })

/-- The smallest and the largest value of an integer type (R53). -/
def ETy.range : ETy → Int × Int
  | .u32 => (0, 2 ^ 32 - 1)
  | .b1 => (0, 1)
  | t => (-(2 ^ (t.w - 1)), 2 ^ (t.w - 1) - 1)

/-- A value clamped to a range. -/
def clampInt (r : Int × Int) (i : Int) : Int := if i < r.1 then r.1 else if i > r.2 then r.2 else i

/-- A floating-point value to an integer type: RoundTo with an ulp of 1, saturating with IV (R69). -/
def ETy.roundInt (t : ETy) (mode : Rm) (rb : Nat) (x : FVal) : Nat × Flags :=
  match x with
  | .nan => (0, Flags.IV)
  | .inf s => (wrapInt t.w (if s then t.range.1 else t.range.2), Flags.IV)
  | .fin s m e =>
    let (k, inexact) := roundAt mode rb s m e 0
    let i : Int := if s then -(k : Int) else k
    let j := clampInt t.range i
    if j = i then (wrapInt t.w i, { Flags.none with nx := inexact }) else (wrapInt t.w j, Flags.IV)

/-- A conversion to E8M0 (R70). -/
def toE8m0 (x : FVal) : Nat × Flags :=
  match x with
  | .nan => (255, Flags.IV)
  | .inf _ => (255, Flags.IV)
  | .fin _ m e =>
    if m = 0 then (0, Flags.UFNX)
    else
      let c := clampInt (0, 254) (log2Val m e + 127)
      let exact := decide (m = 2 ^ (bitLen m - 1)) && decide (log2Val m e + 127 = c)
      (c.toNat, if exact then Flags.none else Flags.NX)

/-- The integer types; B1 counts as one when it is converted (R53, R69). -/
def ETy.isInt : ETy → Bool
  | .i8 => true | .i16 => true | .i32 => true | .u32 => true | .b1 => true | _ => false

/-- The conversion of an already read value to a type (R68 to R70). `fromInt` says that the source is an integer type,
so that a saturation raises no flag. -/
def ETy.ofVal (t : ETy) (mode : Rm) (rb : Nat) (fz fromInt : Bool) (x : FVal) : Nat × Flags :=
  match t.fmt? with
  | some f => f.round mode rb (fz && t.flushes) x
  | none =>
    match t with
    | .e8m0 => toE8m0 x
    | .b1 => (if x.isZero then 0 else 1, Flags.none)
    | t => let r := t.roundInt mode rb x
           if fromInt then (r.1, Flags.none) else r

/-- Cvt(dst, code, mode): one element converted from type `src` to type `dst` (R65, R68 to R70, R200). -/
def cvt (dst src : ETy) (mode : Rm) (rb : Nat) (fz : Bool) (code : Nat) : Nat × Flags :=
  dst.ofVal mode rb fz src.isInt (src.valFz fz code)

/-- An exact sum. A zero sum of opposite signs is +0, and −0 under RDN (R57). -/
def addExact (mode : Rm) (s₁ : Bool) (m₁ : Nat) (e₁ : Int) (s₂ : Bool) (m₂ : Nat) (e₂ : Int) : FVal :=
  let e := if m₁ = 0 then e₂ else if m₂ = 0 then e₁ else min e₁ e₂
  let a : Int := if m₁ = 0 then 0 else (m₁ * 2 ^ (e₁ - e).toNat : Nat)
  let b : Int := if m₂ = 0 then 0 else (m₂ * 2 ^ (e₂ - e).toNat : Nat)
  let t := (if s₁ then -a else a) + (if s₂ then -b else b)
  if t = 0 then .zero (if m₁ = 0 ∧ m₂ = 0 ∧ s₁ = s₂ then s₁ else mode = .rdn)
  else .fin (decide (t < 0)) t.natAbs e

/-- x + y exactly, with IV for ∞ − ∞ (R63, R64). -/
def FVal.add (mode : Rm) (x y : FVal) : FVal × Flags :=
  match x, y with
  | .nan, _ => (.nan, Flags.none)
  | _, .nan => (.nan, Flags.none)
  | .inf a, .inf b => if a = b then (.inf a, Flags.none) else (.nan, Flags.IV)
  | .inf a, .fin _ _ _ => (.inf a, Flags.none)
  | .fin _ _ _, .inf b => (.inf b, Flags.none)
  | .fin s₁ m₁ e₁, .fin s₂ m₂ e₂ => (addExact mode s₁ m₁ e₁ s₂ m₂ e₂, Flags.none)

/-- x × y exactly, with IV for 0 × ∞ (R63, R64). -/
def FVal.mul (x y : FVal) : FVal × Flags :=
  match x, y with
  | .nan, _ => (.nan, Flags.none)
  | _, .nan => (.nan, Flags.none)
  | .inf a, .inf b => (.inf (a != b), Flags.none)
  | .inf a, .fin s m _ => if m = 0 then (.nan, Flags.IV) else (.inf (a != s), Flags.none)
  | .fin s m _, .inf b => if m = 0 then (.nan, Flags.IV) else (.inf (s != b), Flags.none)
  | .fin s₁ m₁ e₁, .fin s₂ m₂ e₂ => (.fin (s₁ != s₂) (m₁ * m₂) (e₁ + e₂), Flags.none)

/-- x × y + z exactly, never rounded between (R71). A NaN among the inputs raises no IV (R63). -/
def FVal.fma (mode : Rm) (x y z : FVal) : FVal × Flags :=
  let p := x.mul y
  let r := p.1.add mode z
  (r.1, if z.isNan then Flags.none else p.2.or r.2)

/-- The order of two values that are not NaN: −0 stands below +0 only where `zeros` says so (R64, R197). -/
def FVal.lt (zeros : Bool) (x y : FVal) : Bool :=
  match x, y with
  | .nan, _ => false
  | _, .nan => false
  | .inf a, .inf b => a && !b
  | .inf a, .fin _ _ _ => a
  | .fin _ _ _, .inf b => !b
  | .fin s₁ m₁ e₁, .fin s₂ m₂ e₂ =>
    if m₁ = 0 ∧ m₂ = 0 then zeros && s₁ && !s₂
    else
      let d := (addExact .rne s₁ m₁ e₁ (!s₂) m₂ e₂)
      match d with
      | .fin s m _ => s && m != 0
      | _ => false

/-- Equality as values: −0 equals +0, and NaN equals nothing (R197). -/
def FVal.eqv (x y : FVal) : Bool := !x.isNan && !y.isNan && !x.lt false y && !y.lt false x

/-- The larger or the smaller of two values; NaN if either is, and −0 below +0 (R64). -/
def FVal.maxMin (isMax : Bool) (x y : FVal) : FVal :=
  if x.isNan || y.isNan then .nan
  else if isMax then (if x.lt true y then y else x) else (if y.lt true x then y else x)

end Sys2Proof.Machine
end

