-- ==== Sys2Proof/Machine/Cells.lean ====
section
/-! DEFINITION. The array's cell programs: mould images and the ROM moulds (07_matrix_copy_instructions.md R217 to R220), the
arithmetic of a K-block (02_arithmetic.md R72 to R79), the alignment recurrence (R228) and MDRAIN's conversion (R230). -/
namespace Sys2Proof.Machine

/-! ### Moulds (R217 to R220) -/

/-- A validated mould image. -/
structure Mould where
  family : Nat
  aty : ETy
  bty : ETy
  psel : Nat
  gap : Int
  pre : List Nat
  cost : List Int            -- T[a][b] at 16 a + b
  deriving DecidableEq, Repr

def bytesZero (l : List Byte) : Bool := l.all (· == 0)
/-- The element types a family takes (R218). -/
def familyTypes (fam a b : Nat) : Bool :=
  match fam with
  | 0 => (3 ≤ a && a ≤ 5 && 3 ≤ b && b ≤ 5) || (a = 1 && b = 1) || (a = 2 && b = 2)
  | 1 => a = 6 && b = 6
  | 2 => a = 0 && b = 0
  | 3 => (a = 0 && b = 0) || (a = 8 && b = 8)
  | 4 => (a = 0 && b = 0) || (a = 8 && b = 8)
  | 5 => a = 0 && b = 0
  | 6 => a = 10 && b = 10
  | 7 => a = 8 && b = 8
  | 8 => a = 8 && b = 8
  | _ => false
/-- PSEL's rules (R217). -/
def pselOk (p : Nat) : Bool :=
  p < 16 && p / 4 != 3 && (if p / 4 = 0 then p % 4 != 0 else p % 4 = 0)
/-- The pre-operation list: the codes before the first zero, none where a code follows a zero or is illegal (R219). -/
def preList (l : List Nat) : Option (List Nat) :=
  let ops := l.takeWhile (· != 0)
  if (l.drop ops.length).all (· = 0) && ops.all (· ≤ 7) then some ops else none
/-- The mould of a 512-byte image, none where MMOULD refuses it (R217). -/
def Mould.ofImage (l : List Byte) : Option Mould :=
  let at8 := fun i => (l.getD i 0).toNat
  let fam := at8 0
  let score := fam = 7 || fam = 8
  match preList [at8 8, at8 9, at8 10, at8 11] with
  | none => none
  | some pre =>
    if familyTypes fam (at8 1) (at8 2) && bytesZero ((l.drop 6).take 2) && bytesZero ((l.drop 12).take 52) &&
        bytesZero ((l.drop 320).take 192) && (pre.isEmpty || !(fam = 0 || fam = 1 || fam = 6)) &&
        (if score then pselOk (at8 3)
         else at8 3 = 0 && bytesZero ((l.drop 4).take 2) && bytesZero ((l.drop 64).take 256)) then
      some { family := fam, aty := ETy.ofCode (at8 1), bty := ETy.ofCode (at8 2), psel := at8 3,
             gap := sextNat 16 (at8 4 + 256 * at8 5), pre := pre,
             cost := ((l.drop 64).take 256).map (fun b => b.toInt) }
    else none

/-- The image of a ROM mould (R220). -/
def romImage (code : Nat) : List Byte :=
  let plain := fun (f a b : Nat) => ([f, a, b].map (BitVec.ofNat 8)) ++ List.replicate 509 0
  let score := fun (f : Nat) (same other : Int) (gap : Int) =>
    [BitVec.ofNat 8 f, 8, 8, 8, BitVec.ofInt 8 gap, BitVec.ofInt 8 (gap / 256)] ++ List.replicate 58 0 ++
      (List.range 256).map (fun i => BitVec.ofInt 8 (if i / 16 = i % 16 then same else other)) ++ List.replicate 192 0
  match code with
  | 0 => plain 0 5 5
  | 1 => plain 0 3 3
  | 2 => plain 0 4 4
  | 3 => plain 0 3 5
  | 4 => plain 0 1 1
  | 5 => plain 0 2 2
  | 6 => plain 1 6 6
  | 7 => plain 2 0 0
  | 8 => plain 3 0 0
  | 9 => plain 3 8 8
  | 10 => plain 4 0 0
  | 11 => plain 4 8 8
  | 12 => plain 5 0 0
  | 13 => plain 6 10 10
  | 14 => score 7 2 (-1) (-2)
  | _ => score 8 0 1 1

/-- MX operands: E4M3, E5M2 and E2M1 in family 0 (R218). -/
def Mould.mx (m : Mould) : Bool := m.family = 0 && (m.aty != .bf16 && m.aty != .f16)
/-- The K-block (R218). -/
def Mould.blk (m : Mould) : Nat := if m.family = 1 || (m.family = 0 && !m.mx) then 16 else 32
/-- The word kind: 0 FP32, 1 INT32, 2 score, 3 packed B1 (R218, 01 R22). -/
def Mould.kind (m : Mould) : Nat :=
  match m.family with
  | 0 => 0 | 1 => 1 | 2 => 0 | 5 => 0 | 6 => 3 | 7 => 2 | 8 => 2
  | _ => if m.aty = .i32 then 1 else 0
/-- The ⊕ identity (02 R75). -/
def Mould.identity (m : Mould) : BitVec 32 :=
  match m.family with
  | 3 => if m.aty = .i32 then 0x7FFFFFFF else 0x7F800000
  | 4 => if m.aty = .i32 then 0x80000000 else 0xFF800000
  | 5 => 0xFF800000
  | 7 => 0x80000000
  | 8 => 0x7FFFFFFC
  | _ => 0

/-! ### Words -/

def f32Val (c : Nat) : FVal := Fmt.f32.val c
/-- An exact value rounded RNE to FP32; the array honours denormals (02 R65). -/
def f32Rne (x : FVal) : Nat × Flags := Fmt.f32.round .rne 0 false x
def i32Of (c : Nat) : Int := sextNat 32 c
def sat32 (i : Int) : Nat := wrapInt 32 (clampInt (-(2 ^ 31), 2 ^ 31 - 1) i)
/-- A score word's score, and a word of a score and a pointer code (02 R77). -/
def scoreOf (c : Nat) : Int := sextNat 30 (c / 4)
def sat30 (i : Int) : Int := clampInt (-(2 ^ 29), 2 ^ 29 - 1) i
def scoreWord (v : Int) (p : Nat) : Nat := wrapInt 30 v * 4 + p

/-! ### Pre-operations (R219) -/

/-- One operation on an element: 1 negation, 3 magnitude, 6 max with +0, on the domain of the mould. -/
def preElem (m : Mould) (op c : Nat) : Nat :=
  if m.kind = 2 then
    let v := scoreOf c
    scoreWord (sat30 (match op with | 1 => -v | 3 => (v.natAbs : Int) | _ => max v 0)) (c % 4)
  else if m.aty = .i32 then
    if c = m.identity.toNat then c
    else
      let v := i32Of c
      sat32 (match op with | 1 => -v | 3 => (v.natAbs : Int) | _ => max v 0)
  else
    let x := f32Val c
    (f32Rne (match op with | 1 => x.neg | 3 => (if x.signBit then x.neg else x) | _ => x.maxMin true (.zero false))).1
def preStep (m : Mould) (xy : Nat × Nat) (op : Nat) : Nat × Nat :=
  match op with
  | 1 => (preElem m 1 xy.1, xy.2)
  | 2 => (xy.1, preElem m 1 xy.2)
  | 3 => (preElem m 3 xy.1, xy.2)
  | 4 => (xy.1, preElem m 3 xy.2)
  | 5 => (xy.2, xy.1)
  | 6 => (preElem m 6 xy.1, xy.2)
  | _ => (xy.1, preElem m 6 xy.2)

/-! ### Cell updates (02 R75 to R77) -/

/-- ⊕ of two score words: the better score, and the lower pointer code on a tie. -/
def selectScore (isMax : Bool) (a b : Nat) : Nat :=
  let x := scoreOf a
  let y := scoreOf b
  if x = y then (if b % 4 < a % 4 then b else a)
  else if (if isMax then x < y else y < x) then b else a
/-- The candidate of ⊗ on score words, with the pointer code PSEL gives (R217). -/
def scoreCand (m : Mould) (x y : Nat) : Nat :=
  scoreWord (sat30 (scoreOf x + scoreOf y)) (match m.psel / 4 with | 0 => m.psel % 4 | 1 => x % 4 | _ => y % 4)
/-- One ⊗ and one ⊕ on the word `a`, for families 2 to 5, 7 and 8. -/
def cellStep (m : Mould) (a x y : Nat) : Nat × Flags :=
  let xy := m.pre.foldl (preStep m) (x, y)
  if m.kind = 2 then (selectScore (m.family = 7) a (scoreCand m xy.1 xy.2), Flags.none)
  else if m.aty = .i32 then
    let absorb := m.identity.toNat
    let p := if xy.1 = absorb || xy.2 = absorb then absorb else sat32 (i32Of xy.1 + i32Of xy.2)
    (if m.family = 3 then (if i32Of p < i32Of a then p else a) else (if i32Of a < i32Of p then p else a), Flags.none)
  else
    let t := if m.family = 2 || m.family = 5 then (f32Val xy.1).mul (f32Val xy.2) else (f32Val xy.1).add .rne (f32Val xy.2)
    let p := f32Rne t.1
    let fl := t.2.or p.2
    if m.family = 2 then
      let s := (f32Val a).add .rne (f32Val p.1)
      let r := f32Rne s.1
      (r.1, (fl.or s.2).or r.2)
    else ((f32Rne ((f32Val a).maxMin (m.family != 3) (f32Val p.1))).1, fl)

/-! ### A K-block of one accumulator word -/

/-- What one word's K-block is made of: the kept elements of A's row with their positions, their scale, and the elements
of B's row with theirs. -/
structure KBlock where
  a : List (Nat × Nat)
  sa : Nat
  b : Nat → Nat
  sb : Nat

/-- The exact block sum of family 0, scaled, with the rules of 02 R73. -/
def blockSum (m : Mould) (k : KBlock) : FVal × Flags :=
  let xy := k.a.map (fun e => (m.aty.val e.2, m.bty.val (k.b e.1)))
  if xy.any (fun v => v.1.isNan || v.2.isNan) || (m.mx && (k.sa = 255 || k.sb = 255)) then (.nan, Flags.none)
  else
    let ps := xy.map (fun v => v.1.mul v.2)
    match ps with
    | [] => (.zero false, Flags.none)
    | p :: r =>
      let s := r.foldl (fun t q => let v := t.1.add .rne q.1; (v.1, (t.2.or q.2).or v.2)) p
      if !m.mx then s
      else match s.1 with
        | .fin n man e => (.fin n man (e + k.sa + k.sb - 254), s.2)
        | x => (x, s.2)
/-- The block update of family 0 (02 R72). -/
def blockF (m : Mould) (mode : Rm) (rb acc : Nat) (k : KBlock) : Nat × Flags :=
  let s := blockSum m k
  let r := f32Rne s.1
  let t := (f32Val acc).add mode (f32Val r.1)
  let u := Fmt.f32.round mode rb false t.1
  (u.1, ((s.2.or r.2).or t.2).or u.2)
/-- The dense result of a block, whatever the family (02 R72, R75); none kept leaves the word. -/
def blockDense (m : Mould) (mode : Rm) (rb : Nat) (sat : Bool) (acc : Nat) (k : KBlock) : Nat × Flags :=
  if k.a.isEmpty then (acc, Flags.none)
  else match m.family with
  | 0 => blockF m mode rb acc k
  | 1 =>
    let s := (k.a.map (fun e => sextNat 8 e.2 * sextNat 8 (k.b e.1))).foldl (· + ·) 0
    (if sat then sat32 (i32Of acc + s) else wrapInt 32 (i32Of acc + s), Flags.none)
  | _ => k.a.foldl (fun t e => let r := cellStep m t.1 e.2 (k.b e.1); (r.1, t.2.or r.2)) (acc, Flags.none)

/-- The exact products of a floating-point block: scaled in family 0, after the pre-operations in family 2 (R73, R219). -/
def blockProds (m : Mould) (k : KBlock) : List FVal :=
  k.a.map (fun e =>
    if m.family = 2 then
      let xy := m.pre.foldl (preStep m) (e.2, k.b e.1)
      ((f32Val xy.1).mul (f32Val xy.2)).1
    else if m.mx && (k.sa = 255 || k.sb = 255) then .nan
    else match (m.aty.val e.2).mul (m.bty.val (k.b e.1)) with
      | (.fin n man ex, _) => if m.mx then .fin n man (ex + k.sa + k.sb - 254) else .fin n man ex
      | (x, _) => x)

/-! ### Sums of a sparse block, whose order is not architected (02 R78) -/

def FVal.isFin : FVal → Bool
  | .fin _ _ _ => true
  | _ => false
def FVal.mag (x : FVal) : FVal := if x.signBit then x.neg else x
/-- x ≤ y, of numbers. -/
def FVal.atMost (x y : FVal) : Bool := !x.isNan && !y.isNan && !y.lt false x
def sumExact (l : List FVal) (x : FVal) : FVal := l.foldl (fun t y => (t.add .rne y).1) x

/-- What a block's sum depends on: the element it belongs to and the block's place in the command, the accumulator word, and
the kept products. -/
structure SparseIn where
  element : Nat
  block : Nat
  acc : BitVec 32
  prods : List FVal
/-- No infinity and no NaN among what is added. -/
def SparseIn.finite (x : SparseIn) : Bool := (f32Val x.acc.toNat).isFin && x.prods.all FVal.isFin
def SparseIn.exact (x : SparseIn) : FVal := sumExact x.prods (f32Val x.acc.toNat)
/-- The exact sum, rounded once. -/
def SparseIn.rounded (x : SparseIn) : BitVec 32 := BitVec.ofNat 32 (f32Rne x.exact).1
/-- Σ|p|, the accumulator word among the terms. -/
def SparseIn.size (x : SparseIn) : FVal := sumExact (x.prods.map FVal.mag) (f32Val x.acc.toNat).mag
/-- A finite word within 2^−23 · Σ|p| of the exact sum. Over n blocks these errors add up to less than (n + 1) · 2^−23 · Σ|p| of
the whole command, n being at most 2,048. -/
def SparseIn.within (x : SparseIn) (c : BitVec 32) : Bool :=
  match x.size with
  | .fin _ man e => (f32Val c.toNat).isFin && ((f32Val c.toNat).add .rne x.exact.neg).1.mag.atMost (.fin false man (e - 23))
  | _ => false
def SparseIn.nonneg (x : SparseIn) : Bool := (f32Val x.acc.toNat :: x.prods).all (fun p => FVal.atMost (.zero false) p)
/-- The same block with no term lower. -/
def SparseIn.below (x y : SparseIn) : Bool :=
  decide (x.element = y.element) && decide (x.block = y.block) && decide (x.prods.length = y.prods.length) &&
    ((f32Val x.acc.toNat :: x.prods).zip (f32Val y.acc.toNat :: y.prods)).all (fun p => p.1.atMost p.2)
/-- What R78 asks of a part's sums, block by block: the error bound (save where FP32 itself cannot meet it, at the ends of its
range), a block of zero products leaving the word, and that of non-negative terms none raised lowers the sum. -/
structure SparseIn.R78 (f : SparseIn → BitVec 32) : Prop where
  bound : ∀ x, x.finite = true → f x = x.rounded ∨ x.within (f x) = true
  zeros : ∀ x, x.prods.all FVal.isZero = true → f x = x.rounded
  rising : ∀ x y, x.finite = true → y.finite = true → x.nonneg = true → x.below y = true →
    (f32Val (f x).toNat).atMost (f32Val (f y).toNat) = true
/-- The part's way to sum: the exact sum rounded once, or any other that meets R78. -/
inductive SparseSum where
  | once
  | own (f : SparseIn → BitVec 32) (ok : SparseIn.R78 f)
  deriving Inhabited
def SparseSum.of (p : SparseSum) (x : SparseIn) : BitVec 32 :=
  match p with
  | .once => x.rounded
  | .own f _ => f x

end Sys2Proof.Machine

namespace Sys2Proof.Config
/-- How this part sums the kept products of a K-block (02_arithmetic.md R78): an open value, of which nothing is known but what
its type says (log 5). -/
opaque sparseSum : Machine.SparseSum
end Sys2Proof.Config

namespace Sys2Proof.Machine

/-- A block of MRUNS: the new word, the word of the dense computation over the kept products, which goes on beside it, and that
computation's flags (02 R78, R79; log 5). A sum in floating point is the part's own where every term is finite; where one is
not, and in every other family, it is the dense one. -/
def blockSparse (m : Mould) (sat : Bool) (element block acc dense : Nat) (k : KBlock) : Nat × Nat × Flags :=
  let d := blockDense m .rne 0 sat dense k
  if (m.family = 0 || m.family = 2) && !k.a.isEmpty then
    let x : SparseIn := ⟨element, block, BitVec.ofNat 32 acc, blockProds m k⟩
    (if x.finite then (Config.sparseSum.of x).toNat else (blockDense m .rne 0 sat acc k).1, d)
  else ((blockDense m .rne 0 sat acc k).1, d)

/-- The word of or-and: bit b of word (i, c) takes in column 32 c + b (02 R74). -/
def orAndWord (acc : Nat) (a : List (Nat × Nat)) (cols : Nat → Nat → Nat) : Nat :=
  (List.range 32).foldl (fun w b =>
    if a.any (fun e => e.2 = 1 && cols b e.1 = 1) then (BitVec.ofNat 32 w ||| BitVec.twoPow 32 b).toNat else w) acc

/-! ### A K-block of a whole accumulator -/

/-- An element of a packed row, the row's bytes read as one number (02 R53). -/
def elemAt (w row k : Nat) : Nat := row / 2 ^ (w * k) % 2 ^ w
/-- The rows of a panel, `n` of them of `pitch` bytes, as numbers. -/
def panelRows (l : List Byte) (pitch : Nat) : Nat → List Nat
  | 0 => []
  | n + 1 => ofLe (l.take pitch) :: panelRows (l.drop pitch) pitch n

/-- A panel pair as the engine sees it: kept elements of A by row, B's rows, and the scales. -/
structure Panels where
  a : Nat → List (Nat × Nat)    -- row i: positions and elements of the K-block
  sa : Nat → Nat
  b : Nat → Nat → Nat           -- row j, position k
  sb : Nat → Nat

/-- The K-block of accumulator word `n`, (128 i + j) of family 0 to 5. -/
def Panels.block (p : Panels) (n : Nat) : KBlock := ⟨p.a (n / 128), p.sa (n / 128), p.b (n % 128), p.sb (n % 128)⟩
/-- Or-and on word (i, c), which takes in the columns from 32 c on. -/
def Panels.orAnd (p : Panels) (n acc : Nat) : Nat := orAndWord acc (p.a (n / 128)) (fun b k => p.b (32 * (n % 128) + b) k)
/-- The update of an accumulator by one K-block; `rb` is the draw of an element (02 R62). -/
def blockAll (m : Mould) (mode : Rm) (rb : Nat → Nat → Nat) (sat : Bool) (p : Panels) (acc : List (BitVec 32)) :
    List (BitVec 32) × Flags :=
  let r := acc.zipIdx.map (fun x =>
    if m.family = 6 then (p.orAnd x.2 x.1.toNat, Flags.none)
    else blockDense m mode (rb (x.2 / 128) (x.2 % 128)) sat x.1.toNat (p.block x.2))
  (r.map (fun x => BitVec.ofNat 32 x.1), Flags.all (r.map (·.2)))
/-- The update by the `block`-th sparse K-block of the command, of an accumulator and of the dense computation beside it. -/
def blockAllSparse (m : Mould) (sat : Bool) (block : Nat) (p : Panels) (acc dense : List (BitVec 32)) :
    List (BitVec 32) × List (BitVec 32) × Flags :=
  let r := (acc.zip dense).zipIdx.map (fun x =>
    if m.family = 6 then (p.orAnd x.2 x.1.1.toNat, p.orAnd x.2 x.1.2.toNat, Flags.none)
    else blockSparse m sat x.2 block x.1.1.toNat x.1.2.toNat (p.block x.2))
  (r.map (fun x => BitVec.ofNat 32 x.1), r.map (fun x => BitVec.ofNat 32 x.2.1), Flags.all (r.map (·.2.2)))

/-! ### The alignment recurrence (R228) -/

/-- One cell: the best of the three candidates. -/
def wfCell (m : Mould) (diag up left cost : Int) : Nat :=
  let isMax := m.family = 7
  selectScore isMax (selectScore isMax (scoreWord (sat30 (diag + cost)) 1) (scoreWord (sat30 (up + m.gap)) 2))
    (scoreWord (sat30 (left + m.gap)) 3)
/-- One row, from the row above it (with H[i−1][−1] first), and the left boundary. -/
def wfRow (m : Mould) (a : Nat) (bs : List Nat) : List Int → Int → List Nat
  | diag :: up :: r, left =>
    match bs with
    | b :: bs =>
      let c := wfCell m diag up left (m.cost.getD (16 * a + b) 0)
      c :: wfRow m a bs (up :: r) (scoreOf c)
    | [] => []
  | _, _ => []
/-- All rows: `left` holds H[i][−1], `above` the row above with its corner. -/
def wfRows (m : Mould) (bs : List Nat) : List (Nat × Int) → List Int → List Nat
  | [], _ => []
  | (a, left) :: r, above =>
    let row := wfRow m a bs above left
    row ++ wfRows m bs r (left :: row.map scoreOf)
/-- The accumulator that the recurrence leaves, from the A slot's and the B slot's bytes. -/
def wavefront (m : Mould) (aslot bslot : List Byte) : List (BitVec 32) :=
  let word := fun (l : List Byte) (at0 : Nat) => scoreOf (ofLe ((l.drop at0).take 4))
  let as := ((aslot.take 128).map (fun b => b.toNat % 16)).zip ((List.range 128).map (fun i => word aslot (128 + 4 * i)))
  let top := word aslot 640 :: (List.range 128).map (fun j => word bslot (128 + 4 * j))
  (wfRows m ((bslot.take 128).map (fun b => b.toNat % 16)) as top).map (BitVec.ofNat 32)

/-! ### MDRAIN (R230) -/

/-- MDRAIN takes a type, and a scale, for a word kind. -/
def drainOk (kind : Nat) (t : ETy) (scaled : Bool) : Bool :=
  match kind with
  | 0 => t = .f32 || t = .bf16 || t = .f16 || t = .e4m3 || t = .e5m2 || t = .i8 || t = .i16 || t = .i32
  | 1 => ((t = .i8 || t = .i16 || t = .i32) && !scaled) || t = .f32 || t = .bf16 || t = .f16
  | 2 => t = .i32 && !scaled
  | _ => t = .b1 && !scaled
/-- One word converted. -/
def drainWord (kind : Nat) (t : ETy) (mode : Rm) (fz : Bool) (scale : Nat) (w : Nat) : Nat × Flags :=
  match kind with
  | 0 =>
    let p := (ETy.f32.valFz fz w).mul (ETy.f32.valFz fz scale)
    let r := t.ofVal mode 0 fz false p.1
    (r.1, p.2.or r.2)
  | 1 =>
    if t.isInt then t.ofVal mode 0 fz true (.ofInt (i32Of w))
    else
      let p := (FVal.ofInt (i32Of w)).mul (ETy.f32.valFz fz scale)
      let r := t.ofVal mode 0 fz false p.1
      (r.1, p.2.or r.2)
  | _ => (w, Flags.none)
/-- The bytes of a converted row, and its flags. -/
def drainRow (kind : Nat) (t : ETy) (mode : Rm) (fz : Bool) (scale : Nat) (l : List (BitVec 32)) : List Byte × Flags :=
  let r := l.map (fun w => drainWord kind t mode fz scale w.toNat)
  let w := if 2 ≤ kind then 32 else t.w
  (leBytes (16 * w) (r.foldr (fun v acc => acc * 2 ^ w + v.1 % 2 ^ w) 0), Flags.all (r.map (·.2)))

end Sys2Proof.Machine
end

