-- ==== Sys2Proof/Machine/Cmds.lean ====
section
/-! DEFINITION. Decoupled commands: the fields of their words (07_matrix_copy_instructions.md R212, R222, R236, R240),
the copy parameter block (R233, R234), what a command references (01 R44), and its entry into a queue (03 R87). -/
namespace Sys2Proof.Machine

/-! ### Fields -/

def cmdRA (w : Word) : Nat := (w >>> 33).toNat % 32
def cmdRB (w : Word) : Nat := (w >>> 28).toNat % 32
def Cmd.ck (d : Cmd) : Nat := d.bits 26 2
def Cmd.cn (d : Cmd) : Nat := d.bits 21 5
def Cmd.scope (d : Cmd) : Nat := d.bits 38 3
/-- Which wait a CWAIT or MWAIT makes (R240). -/
def Cmd.wKind (d : Cmd) : Nat := d.bits 27 2
def Cmd.wNum (d : Cmd) : Nat := d.bits 22 5
def Cmd.wVal (d : Cmd) : Nat := d.bits 6 16
def Cmd.wSig (d : Cmd) : Option Nat := if d.word.getLsbD 5 then some (d.bits 0 5) else none
def Cmd.isWait (d : Cmd) : Bool := d.op = 10

/-- Which scalar registers a command captures at issue: RA and RB (R210, R222, R236). -/
def capA (q op : Nat) (w : Word) : Bool :=
  if q = 0 then op = 1 && !w.getLsbD 30 || op = 4 && w.getLsbD 8 || op = 6 || op = 7 || op = 8
  else op != 10
def capB (q op : Nat) (w : Word) : Bool :=
  if q = 0 then op = 6 && !w.getLsbD 21 else op != 9 && op != 10

/-! ### The parameter block -/

/-- A dimension: count, source stride, destination stride. -/
structure Dim where
  count : Nat
  ss : Int
  ds : Int
  deriving DecidableEq, Repr

/-- A copy parameter block (R233). -/
structure Blk where
  src : Nat
  dst : Nat
  cvt : Bool
  rnd : Nat
  dty : Nat
  sty : Nat
  status : Nat
  sstep : Int
  dstep : Int
  dims : List Dim
  reservedOk : Bool
  deriving DecidableEq, Repr

/-- A signed number of `n` bytes. -/
def numS (l : List Byte) (a n : Nat) : Int := sextNat (8 * n) (num l a n)

/-- The fields of a block's 160 bytes (R233). -/
def Blk.ofBytes (l : List Byte) : Blk :=
  let conv := num l 16 2
  { src := num l 0 8, dst := num l 8 8, cvt := conv / 1024 % 2 = 1, rnd := conv / 256 % 4, dty := conv / 16 % 16,
    sty := conv % 16, status := num l 20 4, sstep := numS l 24 8, dstep := numS l 32 8,
    dims := (List.range 7).map (fun d =>
      let n := num l (40 + 16 * d) 4
      ⟨if n = 0 then 1 else n, numS l (44 + 16 * d) 6, numS l (50 + 16 * d) 6⟩),
    reservedOk := conv / 2048 = 0 && num l 18 2 = 0 && num l 152 8 = 0 }

def epKind (w : Nat) : Nat := w / 2 ^ 61 % 8
def epNum (w : Nat) : Nat := w / 2 ^ 57 % 16
def epBase (w : Nat) : Nat := w % 2 ^ 57
def Blk.dim (b : Blk) (d : Nat) : Dim := b.dims.getD d ⟨1, 0, 0⟩
def Blk.count (b : Blk) (d : Nat) : Nat := (b.dim d).count

/-- A copy command that has a parameter block (R233). -/
def Cmd.hasBlk (d : Cmd) : Bool := !d.isM && d.op ≤ 8 && d.op ≥ 1
/-- The block as the command reads it at its start, or as it stands before that (R210). -/
def Cmd.blkOf (k : Ctx) (d : Cmd) : Blk := Blk.ofBytes (if d.started then d.blk else k.ld d.ra.toNat 160)

/-! ### References (01 R44) -/

/-- The rings an unfinished command references. -/
def Cmd.rings (d : Cmd) : List Nat :=
  if d.isM then
    match d.op with
    | 4 => [d.bits 24 3, d.bits 21 3]
    | 5 => [d.bits 29 3, d.bits 26 3, d.bits 23 3]
    | 9 => [d.bits 0 3]
    | 10 => if d.wKind = 3 then [d.wNum % 8] else []
    | _ => []
  else
    match d.op with
    | 6 => if d.word.getLsbD 17 then [] else [d.bits 18 3]
    | 10 => if d.wKind = 3 then [d.wNum % 8] else []
    | _ => []
/-- The stream registers it references. -/
def Cmd.streams (d : Cmd) : List Nat := if !d.isM && d.op = 5 then [d.bits 18 3] else []
/-- The tile registers it references. -/
def Cmd.tiles (k : Ctx) (d : Cmd) : List Nat :=
  if d.isM then (if d.op = 6 && d.word.getLsbD 21 then [d.bits 28 4] else [])
  else if d.hasBlk then
    let b := d.blkOf k
    (if epKind b.src = 2 then [epNum b.src] else []) ++ (if epKind b.dst = 2 && d.op != 5 then [epNum b.dst] else [])
  else []
def Core.unfinished (k : Core) : List Cmd := k.eng.queue ++ k.eng.fly
def Core.refsRing (k : Core) (n : Nat) : Bool := k.unfinished.any (fun d => d.rings.contains n)
/-- A remote CRING that holds a slot that it claimed in ring `n` of core `c` (07 R242). -/
def Cmd.claims (d : Cmd) (c n : Nat) : Bool :=
  d.isRing && d.word.getLsbD 17 && d.slotNo.isSome && d.rb.toNat = c && d.bits 18 3 = n
/-- Another core's unfinished remote CRING holds a slot of ring `n` of core `c`: in its engines, or suspended in a trap frame or
in a saved task (15 R409). -/
def State.remoteHolds (s : State) (c n : Nat) : Bool :=
  s.cores.any (fun e => (e.2.unfinished ++ e.2.eng.kept.flatMap (·.2)).any (·.claims c n)) ||
    (match (s.core c).job.bind s.job with
     | some j => j.saved.any (fun v => (v.kept.flatMap (·.2)).any (·.claims c n))
     | none => false)
/-- A remote CRING in some core's engines holds a slot of a ring of core `c`: the drain of its save waits, for the copy is
bounded (15 R409). -/
def State.remoteClaims (s : State) (c : Nat) : Bool :=
  (List.range 8).any (fun n => s.cores.any (fun e => e.2.unfinished.any (·.claims c n)))
def Core.refsStream (k : Core) (n : Nat) : Bool := k.unfinished.any (fun d => d.streams.contains n)
def Core.refsBank (k : Core) (b : Nat) : Bool := k.unfinished.any (fun d => (d.tiles k.ctx).any (fun t => t / 4 = b))
def Core.refsTile (k : Core) (t : Nat) : Bool := k.unfinished.any (fun d => (d.tiles k.ctx).contains t)

/-! ### Queues (03 R87) -/

/-- The depth of a queue (R87). -/
def queueDepth (q : Nat) : Nat := if q = 0 then 8 else 16
/-- The commands of a queue that have not retired: a started one keeps its place until then (R211, R280, R286). -/
def Eng.count (e : Eng) (q : Nat) : Nat := ((e.queue ++ e.fly).filter (fun d => d.q = q)).length

/-- Enter a command in its slot's queue: it captures its registers, the bank bindings and the arithmetic control as they
stand at its issue, or carries what its pipe captured at the naming issue (R210, R215; 09 R281, R285). -/
def Core.enqueue (k : Core) (u : UnitCtx) : Core :=
  let q := unitQueue u.unit
  let op := (u.word >>> 57).toNat
  let ra := if u.n = 0 then (if capA q op u.word then k.ctx.reg (cmdRA u.word) else 0) else u.cap.c0
  let rb := if u.n = 0 then (if capB q op u.word then k.ctx.reg (cmdRB u.word) else 0) else u.cap.c1
  let d : Cmd :=
    { Cmd.empty with
      q := q, tag := k.eng.tagNext, unit := u.unit, word := u.word, naming := u.naming, issuing := u.bundle, rep := u.rep,
      n := u.n, ra := ra, rb := rb, seed := k.ctx.seed, rm := k.ctx.rm, fz := k.ctx.fz, stream := k.ctx.fpStream,
      banks := k.ctx.bank, key := writeKey k.seq.issue u.unit }
  let cap : Capture := ⟨ra, rb, 0, 0⟩
  (k.onEng (fun e => { e with queue := e.queue ++ [d], tagNext := e.tagNext + 1 })).onSeq (fun s =>
    { s with pipes := s.pipes.set Pipe.empty u.unit
               (let p := s.pipes.get Pipe.empty u.unit
                if p.mem && u.n = 0 then { p with cap := cap } else p) })

/-! ### Guards (03 R102) -/

/-- The binding of a CBIND ends with its command (01 R28, 07 R241). -/
def Core.unbind (k : Core) (d : Cmd) : Core :=
  k.onCtx (fun x => d.streams.foldl (fun x n =>
    { x with stream := x.stream.set Stream.empty n { x.stream.get Stream.empty n with bound := false } }) x)
/-- Evaluate the guard of the command at the head of queue `q`, once, when its predicate is valid; a false guard drops it
and the next command reaches the head. -/
def Core.guardHead (k : Core) (q : Nat) : Nat → Core
  | 0 => k
  | n + 1 =>
    match k.eng.queue.find? (fun d => d.q = q) with
    | none => k
    | some d =>
      if d.guarded || !k.ctx.pw d.gpred then k
      else if k.ctx.pv d.gpred != d.gneg then
        k.onEng (fun e => { e with queue := e.queue.map (fun x => if x.tag = d.tag then { x with guarded := true } else x) })
      else (((k.onEng (fun e => { e with queue := e.queue.filter (fun x => x.tag != d.tag) })).unbind d).guardHead q n)
def Core.guardHeads (k : Core) : Core := ((k.guardHead 0 20).guardHead 1 20).guardHead 2 20

end Sys2Proof.Machine
end

