-- ==== Sys2Proof/Machine/Philox.lean ====
section
/-! DEFINITION. The generator Philox4x32-10 and the draws made with it (02_arithmetic.md R59 to R62). -/
namespace Sys2Proof.Machine

/-- A 32-bit word of the generator. -/
abbrev W32 := BitVec 32

/-- The four counter words. -/
structure Ctr where
  c0 : W32
  c1 : W32
  c2 : W32
  c3 : W32
  deriving DecidableEq, Repr

/-- The 64-bit product of two words. -/
def mulWide (a b : W32) : BitVec 64 := a.setWidth 64 * b.setWidth 64
def hi32 (x : BitVec 64) : W32 := x.extractLsb' 32 32
def lo32 (x : BitVec 64) : W32 := x.extractLsb' 0 32

/-- One round under the round keys (R59). -/
def philoxRound (k0 k1 : W32) (c : Ctr) : Ctr :=
  let p0 := mulWide 0xD2511F53 c.c0
  let p1 := mulWide 0xCD9E8D57 c.c2
  ⟨hi32 p1 ^^^ c.c1 ^^^ k0, lo32 p1, hi32 p0 ^^^ c.c3 ^^^ k1, lo32 p0⟩

/-- `n` rounds, the keys stepping between them (R59). -/
def philoxLoop : Nat → W32 → W32 → Ctr → Ctr
  | 0, _, _, c => c
  | n + 1, k0, k1, c => philoxLoop n (k0 + 0x9E3779B9) (k1 + 0xBB67AE85) (philoxRound k0 k1 c)

/-- Philox(key, ctr) (R59). -/
def philox (key : BitVec 64) (c : Ctr) : Ctr := philoxLoop 10 (lo32 key) (hi32 key) c

def Ctr.word (c : Ctr) (i : Nat) : W32 :=
  match i with
  | 0 => c.c0 | 1 => c.c1 | 2 => c.c2 | _ => c.c3

/-- What a draw is made with: key, stream, position and sequence id (R61). -/
structure Draw where
  key : BitVec 64
  stream : BitVec 16
  pos : BitVec 48
  sq : BitVec 16
  deriving DecidableEq, Repr

/-- The draw of a key, a stream and a draw word (R61). -/
def Draw.ofWord (key : BitVec 64) (stream : BitVec 16) (w : BitVec 64) : Draw :=
  ⟨key, stream, w.extractLsb' 0 48, w.extractLsb' 48 16⟩

/-- The draw of the n-th issue after the naming one (R61). -/
def Draw.step (d : Draw) (n : Nat) : Draw := { d with pos := d.pos + BitVec.ofNat 48 n }

/-- The generator word of lane `l` of row `row` (R61). -/
def Draw.word (d : Draw) (row l : Nat) : W32 :=
  (philox d.key ⟨BitVec.ofNat 32 (l % 256 / 4 + 64 * row), d.pos.extractLsb' 0 32,
    d.stream ++ d.pos.extractLsb' 32 16, d.sq.setWidth 32⟩).word (l % 4)

/-- The 16-bit draw of lane `l` of row `row` (R61). -/
def Draw.rb (d : Draw) (row l : Nat) : Nat :=
  let w := d.word row l
  if l < 256 then (w.extractLsb' 0 16).toNat else (w.extractLsb' 16 16).toNat

end Sys2Proof.Machine
end

