-- ==== Sys2Proof/Machine/Matrix.lean ====
section
/-! DEFINITION. The matrix slot: the issue of its commands (07_matrix_copy_instructions.md R210, R222) and what the matrix
engine does with each, from its start checks to its last step (R223 to R232, 13_engines_arbitration.md R369). -/
namespace Sys2Proof.Machine

/-! ### Issue -/

/-- A command enters its slot's queue (R210). -/
def issueCmd (s : State) : Host.Outcome State Fault Refusal := commitCore s (fun k => k.enqueue s.unit)
def execMmould (_ : DF) (s : State) : Host.Outcome State Fault Refusal := issueCmd s
def execMflow (_ : DF) (s : State) : Host.Outcome State Fault Refusal := issueCmd s
def execMinit (_ : DF) (s : State) : Host.Outcome State Fault Refusal := issueCmd s
def execMrun (_ : DF) (s : State) : Host.Outcome State Fault Refusal := issueCmd s
def execMruns (_ : DF) (s : State) : Host.Outcome State Fault Refusal := issueCmd s
/-- The bank of a tile destination is checked at issue (01 R20). -/
def execMdrain (f : DF) (s : State) : Host.Outcome State Fault Refusal :=
  commitCore s (fun k =>
    let t := (f.cmd.extractLsb' 28 4).toNat
    if f.cmd.getLsbD 21 && !k.ctx.mayWrite k.ctx.bank 2 t then k.fault { s.unit with bundle := s.unit.naming } causeBind
    else k.enqueue s.unit)
def execMsave (_ : DF) (s : State) : Host.Outcome State Fault Refusal := issueCmd s
def execMrest (_ : DF) (s : State) : Host.Outcome State Fault Refusal := issueCmd s
def execMpop (_ : DF) (s : State) : Host.Outcome State Fault Refusal := issueCmd s
def execMwait (_ : DF) (s : State) : Host.Outcome State Fault Refusal := issueCmd s

/-! ### State the engine works on -/

def Ctx.mouldAt (k : Ctx) (n : Nat) : Option (BitVec 4096) := k.mould.get none n
def mouldBytes (b : BitVec 4096) : List Byte := leBytes 512 b.toNat
def Ctx.setMould (k : Ctx) (n : Nat) (l : List Byte) : Ctx :=
  { k with mould := k.mould.set none n (some (BitVec.ofNat 4096 (ofLe l))) }
/-- The words of an accumulator, in logical row order (01 R22). -/
def Ctx.accWords (k : Ctx) (a : Nat) : List (BitVec 32) := k.acc.read 0 (16384 * a) 16384
def Ctx.setAcc (k : Ctx) (a : Nat) (l : List (BitVec 32)) : Ctx := { k with acc := k.acc.setRange 0 (16384 * a) l }
def Ctx.kindOfAcc (k : Ctx) (a : Nat) : Nat := k.accKind.get 0 a
def Ctx.setKinds (k : Ctx) (a n v : Nat) : Ctx :=
  { k with accKind := (List.range n).foldl (fun t i => t.set 0 (a + i) v) k.accKind }
def wordsBytes (l : List (BitVec 32)) : List Byte := l.flatMap (fun w => leBytes 4 w.toNat)
/-- The 32-bit words of a list of bytes. -/
def bytesWords : List Byte → List (BitVec 32)
  | a :: b :: c :: d :: r => (d ++ c ++ b ++ a) :: bytesWords r
  | _ => []
def Ctx.stRange (k : Ctx) (a : Nat) (l : List Byte) : Ctx := { k with spad := k.spad.setRange 0 a l }
def Ctx.ldRange (k : Ctx) (a n : Nat) : List Byte := k.spad.read 0 a n
/-- An engine's write of scratchpad bytes of core `c`. -/
def State.engStore (s : State) (c a : Nat) (l : List Byte) : State :=
  s.onCore c (fun k => (k.onCtx (·.stRange a l)).onEng (·.mapAll (Cmd.dropOld a l.length)))
/-- What command `d` in flight sees of its core's registers and scratchpad (05 R164). -/
def Core.view (k : Core) (d : Cmd) : Ctx := k.ctx.under ((k.eng.fly.find? (fun x => x.tag = d.tag)).getD d)
/-- Bytes of a tile register's row-major image, and their writing, row by row, to it and its mirror partner (R234). -/
def Ctx.tileBytesAt (k : Ctx) (t o n : Nat) : List Byte :=
  (List.range n).map (fun i => BitVec.ofNat 8 (lane 8 (k.tileRow t ((o + i) / 256)) ((o + i) % 256)))
def Ctx.setTileBytes (k : Ctx) (t o : Nat) : List Byte → Ctx
  | [] => k
  | b :: r => (k.setTileRow t (o / 256) (setLane 8 (k.tileRow t (o / 256)) (o % 256) b.toNat)).setTileBytes t (o + 1) r

/-! ### Fields of MRUN and MRUNS (R222) -/

structure RunF where
  acc : Nat
  rga : Nat
  rgb : Nat
  rgm : Option Nat
  ml : Nat
  np : Nat
  k : Nat
  n : Nat
  m : Nat
  sr : Bool
  sat : Bool
  ka : Bool
  kb : Bool
  deriving DecidableEq, Repr

def Cmd.run (d : Cmd) : RunF :=
  if d.op = 4 then
    { acc := d.bits 27 6, rga := d.bits 24 3, rgb := d.bits 21 3, rgm := none, ml := d.bits 19 2, np := d.bits 13 6 + 1,
      k := 32 * (d.bits 9 4 + 1), n := 1, m := 1, sr := d.word.getLsbD 8, sat := d.word.getLsbD 7, ka := d.word.getLsbD 6,
      kb := d.word.getLsbD 5 }
  else
    { acc := d.bits 32 6, rga := d.bits 29 3, rgb := d.bits 26 3, rgm := some (d.bits 23 3), ml := d.bits 21 2,
      np := d.bits 15 6 + 1, k := 32 * (d.bits 11 4 + 1), n := d.bits 4 5 + 1, m := 2 ^ (d.bits 9 2 + 2), sr := false,
      sat := d.word.getLsbD 3, ka := d.word.getLsbD 2, kb := d.word.getLsbD 1 }

/-- Row pitches of A, B and the metadata, B's rows, and the scale bytes per row (R226, R229). -/
def RunF.pitchA (r : RunF) (m : Mould) : Nat := r.k * r.n * m.aty.w / (8 * r.m)
def RunF.pitchB (r : RunF) (m : Mould) : Nat := r.k * m.bty.w / 8
def RunF.pitchM (r : RunF) : Nat := 4 * ((r.k * r.n * Nat.log2 r.m + 32 * r.m - 1) / (32 * r.m))
def rowsB (m : Mould) : Nat := if m.family = 6 then 4096 else 128
def RunF.scales (r : RunF) (m : Mould) : Nat := if m.mx then r.k / 32 else 0
def RunF.panelA (r : RunF) (m : Mould) : Nat := 128 * (r.pitchA m + r.scales m)
def RunF.panelB (r : RunF) (m : Mould) : Nat := rowsB m * (r.pitchB m + r.scales m)
/-- K-blocks of a panel. -/
def RunF.blocks (r : RunF) (m : Mould) : Nat := r.k / m.blk
def flowPat (k : Ctx) : Nat := (k.flow.extractLsb' 0 2).toNat

/-- The mould a command began with. -/
def Cmd.mould (d : Cmd) : Option Mould := Mould.ofImage d.aux
/-- The mould in a slot; naming an empty slot faults (01 R23). -/
def slotMould (k : Ctx) (ml : Nat) : Except Nat (List Byte × Mould) :=
  match k.mouldAt ml with
  | none => .error causeConfig
  | some b => match Mould.ofImage (mouldBytes b) with
    | some m => .ok (mouldBytes b, m)
    | none => .error causeConfig

/-- The start checks of MRUN and MRUNS (R222, R224, R226, R228, R229). -/
def runCheck (k : Ctx) (r : RunF) (m : Mould) : Option Nat :=
  let a := k.rg r.rga
  let b := k.rg r.rgb
  let g := match r.rgm with | some n => k.rg n | none => a
  let sparse := r.rgm.isSome
  if k.accN ≤ r.acc || a.nslot = 0 || b.nslot = 0 || g.nslot = 0 then some causeConfig
  else if (r.sr && m.family != 0) || (r.sat && m.family != 1) then some causeOp
  else if flowPat k = 2 then
    if sparse || !(m.family = 7 || m.family = 8) || r.np != 1 || a.slotBytes < 1024 || b.slotBytes < 1024 then some causeOp
    else none
  else if r.k * r.n * m.aty.w % (8 * r.m) != 0 || r.m < r.n || 256 < r.pitchA m || 256 < r.pitchB m ||
      a.slotBytes < r.panelA m || b.slotBytes < r.panelB m ||
      (sparse && (256 < r.pitchM || g.slotBytes < 128 * r.pitchM)) ||
      (r.ka && (a.nslot < r.np || g.nslot < r.np)) || (r.kb && b.nslot < r.np) then some causeOp
  else none

/-! ### Starts (R210, R223 to R232) -/

def ringSlot (r : Ring) (d : Nat) : Nat := r.slotAddr ((r.head + d) % r.nslot)

/-- The cores that an MMOULD of core `c` with ALL = 1 reaches: the main cores of its cluster that hold a context of its
job, itself left out (R223). -/
def State.mouldPeers (s : State) (c : Nat) : List Nat :=
  (List.range 64).filter (fun p => p != c && clusterOf p = clusterOf c && (s.core p).job.isSome && (s.core p).job = (s.core c).job)
/-- The mould slot that a started matrix command uses (R223). -/
def Cmd.usesMould (d : Cmd) (ml : Nat) : Bool :=
  d.isM && (match d.op with | 1 => false | 3 => d.bits 19 2 = ml | 4 => d.run.ml = ml | 5 => d.run.ml = ml | _ => false)

/-- Start a matrix command: what it reads at its start, its checks, and the work of single-step commands. The cause of a
fault, or the state and the command as it goes on. -/
def State.matStart (s : State) (c : Nat) (d : Cmd) : Except Nat (State × Cmd) :=
  let k := (s.core c).ctx
  match d.op with
  | 1 =>
    let ml := d.bits 31 2
    let img := if d.word.getLsbD 30 then romImage (d.bits 26 4) else k.ldRange d.ra.toNat 512
    if !d.word.getLsbD 30 && d.ra.toNat % 64 != 0 then .error causeAlign
    else if !d.word.getLsbD 30 && spadSize c k < d.ra.toNat + 512 then .error causeRange
    else match Mould.ofImage img with
      | none => .error causeOp
      | some _ => .ok (s.onCtx c (·.setMould ml img), { d with aux := img, finished := !d.word.getLsbD 25 })
  | 2 => .ok (s.onCtx c (fun x => { x with flow := d.word.extractLsb' 0 5 }), { d with finished := true })
  | 3 =>
    let a := d.bits 27 6
    let n := d.bits 21 6 + 1
    if k.accN < a + n then .error causeConfig
    else match slotMould k (d.bits 19 2) with
      | .error e => .error e
      | .ok (img, m) => .ok (s.onCtx c (·.setKinds a n m.kind), { d with aux := img, finished := decide (n ≤ d.prog0) })
  | 4 => start k d
  | 5 => start k d
  | 6 =>
    let t := ETy.ofCode (d.bits 17 4)
    let rows := 8 * (d.bits 6 4 + 1)
    let kind := k.kindOfAcc (d.bits 22 6)
    let total := rows * (if kind = 3 then 512 else 16 * t.w)
    let rm := if d.bits 14 3 = 7 then d.rm else d.bits 14 3
    if k.accN ≤ d.bits 22 6 then .error causeConfig
    else if rm = 4 || !drainOk kind t (cmdRA d.word != 0) then .error causeOp
    else if d.word.getLsbD 21 then
      if 256 * k.rows < (d.n + 1) * total then .error causeConfig else .ok (s, { d with finished := decide (rows / 8 ≤ d.prog0) })
    else if spadSize c k < d.rb.toNat + (d.n + 1) * total then .error causeRange
    else .ok (s, { d with finished := decide (rows / 8 ≤ d.prog0) })
  | 9 => if (k.rg (d.bits 0 3)).nslot = 0 then .error causeConfig
         else .ok (s, { d with finished := decide (d.bits 3 5 + 1 ≤ d.prog0) })
  | 10 => .ok (s, { d with finished := true })
  | _ =>
    let a := d.bits 27 6
    let n := d.bits 21 6 + 1
    if k.accN < a + n then .error causeConfig
    else if d.ra.toNat % 256 != 0 then .error causeAlign
    else if spadSize c k < d.ra.toNat + 65536 * n then .error causeRange
    else .ok (s, { d with finished := decide (n ≤ d.prog0) })
where
  /-- MRUN and MRUNS set the kind of their accumulator at their start (01 R22). -/
  start (k : Ctx) (d : Cmd) : Except Nat (State × Cmd) :=
    match slotMould k d.run.ml with
    | .error e => .error e
    | .ok (img, m) => match runCheck k d.run m with
      | some e => .error e
      | none => .ok (s.onCtx c (·.setKinds d.run.acc 1 m.kind), { d with aux := img })

/-! ### Panels (R226 to R229) -/

/-- Metadata indices of a row: kept element `e`'s place in its group. -/
def metaIdx (r : RunF) (row e : Nat) : Nat := elemAt (Nat.log2 r.m) row e
/-- The indices of every group are strictly ascending (R229). -/
def metaOk (r : RunF) (rows : List Nat) : Bool :=
  rows.all (fun row => (List.range (r.k / r.m)).all (fun g =>
    (List.range (r.n - 1)).all (fun t => decide (metaIdx r row (g * r.n + t) < metaIdx r row (g * r.n + t + 1)))))
/-- The kept elements of a row of A in the K-block from `k0`. -/
def keptOf (r : RunF) (m : Mould) (row idx k0 : Nat) : List (Nat × Nat) :=
  if r.rgm.isNone then (List.range m.blk).map (fun t => (k0 + t, elemAt m.aty.w row (k0 + t)))
  else
    (List.range ((k0 + m.blk - 1) / r.m - k0 / r.m + 1)).flatMap (fun gi =>
      let g := k0 / r.m + gi
      (List.range r.n).filterMap (fun t =>
        let p := g * r.m + metaIdx r idx (g * r.n + t)
        if k0 ≤ p && p < k0 + m.blk then some (p, elemAt m.aty.w row (g * r.n + t)) else none))
/-- The panels' K-block `kb`, from the bytes of the slots. -/
def panelsAt (r : RunF) (m : Mould) (al bl gl : List Byte) (kb : Nat) : Panels :=
  let ar := (panelRows al (r.pitchA m) 128).toArray
  let br := (panelRows bl (r.pitchB m) (rowsB m)).toArray
  let gr := (panelRows gl r.pitchM 128).toArray
  let sa := (al.drop (128 * r.pitchA m)).toArray
  let sb := (bl.drop (rowsB m * r.pitchB m)).toArray
  let k0 := kb * m.blk
  let kept := ((List.range 128).map (fun i => keptOf r m (ar.getD i 0) (gr.getD i 0) k0)).toArray
  { a := fun i => kept.getD i [], sa := fun i => (sa.getD (i * r.scales m + kb) 0).toNat,
    b := fun j k => elemAt m.bty.w (br.getD j 0) k, sb := fun j => (sb.getD (j * r.scales m + kb) 0).toNat }

/-- The draw of element (i, j) in the `kb`-th K-block of the command (02 R62, R215). -/
def Cmd.accDraw (d : Cmd) (acc kb i j : Nat) : Nat :=
  ((Draw.ofWord d.seed d.stream d.ra).step (4096 * d.n + kb)).rb (128 * acc + i) j

/-- `n` K-blocks of the panel in hand. -/
def runBlocks (d : Cmd) (r : RunF) (m : Mould) (al bl gl : List Byte) : Nat → Nat → List (BitVec 32) × Flags → List (BitVec 32) × Flags
  | 0, _, a => a
  | n + 1, kb, a =>
    let rb := fun i j => if r.sr then d.accDraw r.acc (d.prog0 * r.blocks m + kb) i j else 0
    let x := blockAll m (if r.sr then .sr else .rne) rb r.sat (panelsAt r m al bl gl kb) a.1
    runBlocks d r m al bl gl n (kb + 1) (x.1, a.2.or x.2)
/-- The same of MRUNS, with the dense computation beside it, which begins with the accumulator as the command finds it
(02 R79). -/
def runSparse (d : Cmd) (r : RunF) (m : Mould) (al bl gl : List Byte) :
    Nat → Nat → List (BitVec 32) × List (BitVec 32) × Flags → List (BitVec 32) × List (BitVec 32) × Flags
  | 0, _, a => a
  | n + 1, kb, a =>
    let x := blockAllSparse m r.sat (d.prog0 * r.blocks m + kb) (panelsAt r m al bl gl kb) a.1 a.2.1
    runSparse d r m al bl gl n (kb + 1) (x.1, x.2.1, a.2.2.or x.2.2)

/-- The pops of a finished panel (R226, R227, R229). -/
def popPanel (k : Ctx) (r : RunF) : Ctx :=
  let k := if r.ka then k else k.setRg r.rga (k.rg r.rga).pop
  let k := match r.rgm with | some g => if r.ka then k else k.setRg g (k.rg g).pop | none => k
  if r.kb then k else k.setRg r.rgb (k.rg r.rgb).pop

/-- A waiting MRUN or MRUNS goes on by `n` K-blocks of its panel, once Ready holds; none while it waits. -/
def State.runPanel (s : State) (c : Nat) (d : Cmd) (n : Nat) : Option (State × Except Nat Cmd) :=
  match d.mould with
  | none => none
  | some m =>
    let k := (s.core c).view d
    let r := d.run
    let da := if r.ka then d.prog0 else 0
    let db := if r.kb then d.prog0 else 0
    let ra := k.rg r.rga
    let rb := k.rg r.rgb
    if !(ra.ready da && rb.ready db && (match r.rgm with | some g => (k.rg g).ready da | none => true)) then none
    else
      let wf := flowPat k = 2
      let na := if wf then 644 else r.panelA m
      let nb := if wf then 640 else r.panelB m
      let al := k.ldRange (ringSlot ra da) na
      let bl := k.ldRange (ringSlot rb db) nb
      let gl := match r.rgm with | some g => k.ldRange (ringSlot (k.rg g) da) (128 * r.pitchM) | none => []
      let slots := [(spadPool c k + ringSlot ra da, na), (spadPool c k + ringSlot rb db, nb), (k.accPool r.acc, if wf then 0 else 65536)] ++
        (match r.rgm with | some g => [(spadPool c k + ringSlot (k.rg g) da, gl.length)] | none => [])
      let e := s.sramAll c 3 slots
      let s := e.1
      if e.2 then some (s, .error causeEcc)
      else if wf then
        some (s.onCtx c (fun x => popPanel (x.setAcc r.acc (wavefront m al bl)) r), .ok { d with prog0 := 1, finished := true })
      else if r.rgm.isSome && d.prog1 = 0 && !metaOk r (panelRows gl r.pitchM 128) then some (s, .error causeOp)
      else
        let n := min n (r.blocks m - d.prog1)
        let acc := k.accWords r.acc
        let x := if r.rgm.isNone then
            let y := runBlocks d r m al bl gl n d.prog1 (acc, Flags.none)
            (y.1, d.dense, y.2)
          else runSparse d r m al bl gl n d.prog1 (acc, if d.dense.isEmpty then acc else d.dense, Flags.none)
        let d := { d with flags := d.flags.or x.2.2, prog1 := d.prog1 + n, dense := x.2.1 }
        let s := s.onCtx c (·.setAcc r.acc x.1)
        if d.prog1 < r.blocks m then some (s, .ok d)
        else some (s.onCtx c (popPanel · r), .ok { d with prog0 := d.prog0 + 1, prog1 := 0, finished := decide (r.np ≤ d.prog0 + 1) })

/-! ### Steps of the other commands (R216) -/

/-- The pool bytes that a step of MDRAIN, MSAVE or MREST reads (10 R317). -/
def Cmd.stepReads (c : Nat) (k : Ctx) (d : Cmd) : List (Nat × Nat) :=
  match d.op with
  | 6 =>
    let rows := 8 * (d.bits 6 4 + 1)
    (List.range 8).map (fun i => (k.accPool (d.bits 22 6) + 512 * ((8 * d.bits 10 4 + d.n * rows + 8 * d.prog0 + i) % 128), 512))
  | 7 => [(k.accPool (d.bits 27 6 + d.prog0), 65536)]
  | 8 => [(spadPool c k + d.ra.toNat + 65536 * d.prog0, 65536)]
  | _ => []
/-- The effect of one engine step of a started matrix command; none while it waits (MPOP) or where it has none. -/
def State.matMove (s : State) (c : Nat) (d : Cmd) : Option (State × Cmd) :=
  let k := (s.core c).view d
  let next := fun (n : Nat) => { d with prog0 := d.prog0 + 1, finished := decide (n ≤ d.prog0 + 1) }
  match d.op with
  | 3 =>
    match d.mould with
    | none => none
    | some m => some (s.onCtx c (·.setAcc (d.bits 27 6 + d.prog0) (List.replicate 16384 m.identity)), next (d.bits 21 6 + 1))
  | 6 =>
    let t := ETy.ofCode (d.bits 17 4)
    let rows := 8 * (d.bits 6 4 + 1)
    let a := d.bits 22 6
    let kind := k.kindOfAcc a
    let rb := if kind = 3 then 512 else 16 * t.w
    let mode := Rm.ofCode (if d.bits 14 3 = 7 then d.rm else d.bits 14 3)
    let scale := if cmdRA d.word = 0 then 0x3F800000 else d.ra.toNat % 2 ^ 32
    let words := k.accWords a
    let out := (List.range 8).map (fun i =>
      let row := (8 * d.bits 10 4 + d.n * rows + 8 * d.prog0 + i) % 128
      drainRow kind t mode d.fz scale ((words.drop (128 * row)).take 128))
    let bytes := out.flatMap (·.1)
    let at0 := d.n * rows * rb + 8 * d.prog0 * rb
    let s := if d.word.getLsbD 21 then s.onCtx c (·.setTileBytes (d.bits 28 4) at0 bytes)
      else s.engStore c (d.rb.toNat + at0) bytes
    some (s, { next (rows / 8) with flags := d.flags.or (Flags.all (out.map (·.2))) })
  | 7 => some (s.engStore c (d.ra.toNat + 65536 * d.prog0) (wordsBytes (k.accWords (d.bits 27 6 + d.prog0))), next (d.bits 21 6 + 1))
  | 8 =>
    some (s.onCtx c (·.setAcc (d.bits 27 6 + d.prog0) (bytesWords (k.ldRange (d.ra.toNat + 65536 * d.prog0) 65536))), next (d.bits 21 6 + 1))
  | 9 =>
    let g := d.bits 0 3
    if (k.rg g).ready 0 then some (s.onCtx c (fun x => x.setRg g (x.rg g).pop), next (d.bits 3 5 + 1)) else none
  | _ => none
/-- One engine step: what it reads is free of uncorrectable errors, and no TMIRROR is copying the tile register that it
writes (04 R152). -/
def State.matStep (s : State) (c : Nat) (d : Cmd) : Option (State × Except Nat Cmd) :=
  let e := s.sramAll c 3 (d.stepReads c (s.core c).ctx)
  if e.2 then some (e.1, .error causeEcc)
  else if d.op = 6 && d.word.getLsbD 21 && (s.core c).pairing (d.bits 28 4) then some (e.1, .error causeConfig)
  else (e.1.matMove c d).map (fun x => (x.1, .ok x.2))

end Sys2Proof.Machine
end

