-- ==== Sys2Proof/Machine/Issue.lean ====
section
/-! DEFINITION. The sequencer: the conditions that hold a bundle back (03_bundle_encoding.md R89), what each pipe does at
an issue (R91 to R95), the issue itself, its end and the choice of the next bundle (R108, 04 R143), and where a forced
save splits (09 R288). -/
namespace Sys2Proof.Machine

/-! ### What an instruction reads and waits for -/

/-- The vector word is a VRAND, or rounds (06 R188, R191). -/
def vecRounds (w : Word) : Bool :=
  let op := (w >>> 57).toNat
  op = 0x30 || (op = 0x31 && !w.getLsbD 4) || op = 0x32 ||
    ((w >>> 43).toNat % 16 < 3 && (op ≤ 5 || (0x0A ≤ op && op ≤ 0x0D) || op = 0x40 || op = 0x44))
/-- It draws: a VRAND, or one that rounds stochastically under the control as it stands. -/
def vecDraws (k : Ctx) (w : Word) : Bool :=
  let rm := (w >>> 5).toNat % 8
  (w >>> 57).toNat = 0x60 || (vecRounds w && (rm = 4 || (rm = 7 && k.rm = 4)))
/-- It may draw at its naming issue or at a re-issue, as FPCTL.RM then stands: the inputs of R191 are kept for it (log 10). -/
def vecMayDraw (w : Word) : Bool :=
  let rm := (w >>> 5).toNat % 8
  (w >>> 57).toNat = 0x60 || (vecRounds w && (rm = 4 || rm = 7))

/-- The scalar registers a lockstep operation reads (R97, R99, 06 R191); `n` counts its pipe's re-issues. -/
def readsOf (k : Ctx) (n : Nat) (i : Instr) : List Nat :=
  match i.slotWord with
  | some (.s, w) =>
    let op := (w >>> 57).toNat
    let sa := (w >>> 35).toNat % 64
    let sb := (w >>> 29).toNat % 64
    (if op = 0x27 || op = 0x66 then [] else [sa]) ++ (if op = 0x27 || op = 0x28 || op = 0x66 then [] else [sb]) ++
      (if op = 0x54 && (w >>> 12).toNat % 16 = 9 then [(w >>> 41).toNat % 64] else [])
  | some (.v0, w) => vecReads k n w
  | some (.v1, w) => vecReads k n w
  | _ => []
where
  /-- A vector word reads a broadcast register, and s23 where it draws. -/
  vecReads (k : Ctx) (n : Nat) (w : Word) : List Nat :=
    let op := (w >>> 57).toNat
    let src := [(w >>> 31).toNat % 64, (w >>> 25).toNat % 64] ++
      (if op = 4 || op = 5 || op = 0x21 then [(w >>> 19).toNat % 64] else [])
    (if src.contains 52 then [w.toNat % 32] else []) ++
      (if n = 0 && vecDraws k w then [23] else [])

/-- The stream registers an operation pops, in the order of its sources (01 R28, 04 R142). -/
def popsOf (i : Instr) : List Nat :=
  match i.slotWord with
  | some (.s, w) => if (w >>> 57).toNat = 0x45 then [(w >>> 24).toNat % 8] else []
  | some (.v0, w) => vecPops w
  | some (.v1, w) => vecPops w
  | _ => []
where
  vecPops (w : Word) : List Nat :=
    let op := (w >>> 57).toNat
    ([(w >>> 31).toNat % 64, (w >>> 25).toNat % 64] ++
      (if op = 4 || op = 5 || op = 0x21 then [(w >>> 19).toNat % 64] else [])).filterMap
        (fun c => if 40 ≤ c && c < 48 then some (c - 40) else none)

/-- A bound stream register runs empty at this unit, the units before it having popped (R89, 01 R28, R30). -/
def Core.streamEmpty (k : Core) (before : List Instr) (i : Instr) : Bool :=
  let taken := before.flatMap popsOf
  let mine := popsOf i
  mine.any (fun q =>
    let r := k.ctx.stream.get Stream.empty q
    r.bound && r.vecs.length < (taken ++ mine).count q)

/-- A pending COP reply stands in one of the registers (R109). -/
def Core.replyDue (k : Core) (regs : List Nat) : Bool :=
  k.seq.cops.any (fun x => x.dst != 0 && regs.contains x.dst)

/-- The core types that may issue a COP function (08 R248). -/
def copOnKind (k : CoreKind) (fn : Nat) : Bool :=
  if fn ≤ 0x07 then k != .lookup
  else if fn ≤ 0x31 then k = .main
  else if fn = 0x42 then true
  else if fn ≤ 0x43 then k = .house
  else if fn = 0x50 then k = .main
  else k != .lookup
/-- The function code of a COP word (R246). -/
def copFn (w : Word) : Nat := (w >>> 22).toNat % 128

/-! ### Fences (05 R166) -/

/-- Every earlier LD and ATOM has landed. -/
def Core.acqDone (k : Core) : Bool := k.seq.loads.isEmpty
/-- Every earlier ST and ATOM is performed; an STS is, once it has landed. The writes of an operand port are not among those
that a release covers (11 R328). -/
def Core.relDone (k : Core) : Bool :=
  k.seq.stores.isEmpty && k.seq.loads.all (fun l => l.atom.isNone) &&
    k.seq.pend.all (fun p => match p.eff with | .spad _ _ => decide (2 < p.unit) | _ => true)
def Core.enginesDone (k : Core) : Bool := k.unfinished.isEmpty && k.eng.replay.isEmpty

/-! ### Accesses to SC pages (05 R162) -/

/-- An earlier access of the core to a handle's page is not performed. -/
def Core.pageBusy (k : Core) (h : Handle) : Bool :=
  let inPage := fun (p : Place) => p.die = h.die && h.pbase * 65536 ≤ p.pa && p.pa < h.pbase * 65536 + pageBytes h.size
  k.seq.loads.any (fun l => inPage l.place) || k.seq.stores.any (fun x => inPage x.place)
/-- An LD, ST or ATOM through a handle of an SC page waits for the page's earlier accesses. Those of the same issue do not count: both
issue, and are performed in their order afterwards, a choice of the model (05 R162; log 43). -/
def Core.scWait (k : Core) (f : SF) : Bool :=
  let h := k.ctx.h (f.imm.extractLsb' 22 4).toNat
  h.valid && h.order = 3 && k.pageBusy h

/-! ### PROBE (05 R171) -/

/-- Where a PROBE of an address stands: none while it waits, else its status and the handle on OK. The walk is started on
a miss. -/
def State.probeStatus (s : State) (c : Nat) (wr : Bool) (va : Nat) : State × Option (Nat × Option Handle) :=
  let r := s.lookup c wr va
  let s := s.seeCache c va
  if r.1 != 1 then (s, some r)
  else match (s.core c).seq.probe with
    | some (a, some st) => if a = va then (s, some (st, none)) else (wait s c va, none)
    | _ => (wait s c va, none)
where
  /-- The core waits on the address, and a walk for it is under way. -/
  wait (s : State) (c va : Nat) : State :=
    let s := match s.jobOf c with
      | some j => if s.mem.marked j va then s else s.startWalk (dieOf c) j va
      | none => s
    s.onSeq c (fun q => { q with probe := some (va, none) })

/-- PROBE's first wait: the pipeline is empty, every reply among what has landed. A COP to s0, which has no reply to land, is waited for
as well: a choice of the model (log 43). -/
def Core.quiet (k : Core) : Bool := k.seq.pend.isEmpty && k.seq.loads.isEmpty && k.seq.cops.isEmpty && k.enginesDone

/-! ### The return-address store's waits (04 R139) -/

/-- A push whose spill goes to HBM waits for its page's service. -/
def State.pushWaits (s : State) (c : Nat) : State × Bool :=
  let k := (s.core c).ctx
  if k.ras.length < 16 || k.depth = 0xFFFFFFFF then (s, false)
  else match k.rasPlace c (k.depth - 16) with
    | (true, _) => (s, false)
    | (false, va) =>
      match s.access ((s.jobOf c).getD fwJob) (coreReq c) va 8 true with
      | (s, .wait) => (s, true)
      | (s, _) => (s, false)

/-! ### The stall conditions of a unit (R89) -/

def imm1 (f : SF) (i : Nat) : Bool := f.imm.getLsbD i
def immN (f : SF) (lo n : Nat) : Nat := (f.imm.toNat >>> lo) % 2 ^ n

/-- The TCB of a core's job. -/
def State.tcbOf (s : State) (c n : Nat) : Tcb :=
  match (s.jobOf c).bind s.job with | some j => j.tcb.get Tcb.empty n | none => Tcb.empty
/-- The semaphores that a timed-block task waits for at its handoff (12 R356). -/
def State.blockWaits (s : State) (c : Nat) (t : Task) : List Nat :=
  if t.kind = 2 then (List.range 16).filter (fun j => (s.tcbOf c t.node).waits.testBit j) else []

/-- A lockstep operation writing tile register `t` is in flight: a row result, or a TMIRROR's copy into it (04 R152). -/
def Core.writesTile (k : Core) (t : Nat) : Bool :=
  k.seq.pend.any (fun p => match p.eff with | .row _ (some (x, _)) _ => x = t | .pair _ b => b = t | _ => false)

/-- The condition of a waiting or configuring S-slot instruction; it holds no core back on operands that fault. -/
def State.waits (s : State) (u : UnitCtx) (i : Instr) : State × Bool :=
  let c := u.core
  let k := s.core c
  match i with
  | .semwait f => (s, s.semOk c (immN f 0 5) &&
      (s.semGet c (immN f 0 5) < immN f 5 16 || (imm1 f 21 && !k.acqDone)))
  | .semsig f => (s, s.semOk c (immN f 0 5) && imm1 f 21 && !k.relDone)
  | .twait f =>
    if s.gtick < (k.ctx.src f.sa).toNat then (s.onSeq c (fun q => { q with waitTick := q.waitTick.or (some s.gtick) }), true)
    else (s, false)
  | .fence f => (s, ((immN f 3 2 != 1) && !k.acqDone) || ((immN f 3 2 != 0) && !k.relDone) ||
      (imm1 f 5 && !k.enginesDone))
  | .block f => (s, kindOf c != .house && (List.range 16).any (fun j => imm1 f j && k.ctx.sem.get 0 j = 0))
  | .probe f =>
    if !k.quiet then (s, true)
    else
      let r := s.probeStatus c (imm1 f 8) ((k.ctx.src f.sa).toNat % 2 ^ 57)
      (r.1, r.2.isNone)
  | .wmwait f =>
    let wm := (k.ctx.src f.sa).toNat % 2 ^ 32
    let job := (s.jobOf c).getD fwJob
    match s.fab.known wm job with
    | some _ => (s, false)
    | none =>
      let s := if wmModule wm = ownModule then s else s.askWm wm job
      (s.onSeq c (fun q => { q with waitTick := q.waitTick.or (some s.gtick) }), true)
  | .ret _ => (s, k.ctx.ras.isEmpty && k.ctx.depth != 0)
  | .call _ => s.pushWaits c
  | .callr f =>
    if ((k.ctx.src f.sa) + f.imm.signExtend 64).toNat % 4 = 0 then s.pushWaits c else (s, false)
  | .waittask _ =>
    if k.seq.task.isSome || kindOf c = .house then (s, false)
    else match k.seq.handed with
    | some t => (s, (s.blockWaits c t).any (fun j => k.ctx.sem.get 0 j = 0))
    | none => (s.onSeq c (fun q => { q with waiting := true, waitFrom := if q.waiting then q.waitFrom else s.gtick }), true)
  | .ld f => (s, k.scWait f)
  | .st f => (s, k.scWait f)
  | .atom f => (s, k.scWait f)
  | .ringcfg f => (s, k.refsRing (immN f 0 3) || s.remoteHolds c (immN f 0 3))
  | .blend f => (s, k.refsBank (immN f 0 2))
  | .tmirror f =>
    let regs := if imm1 f 8 then [immN f 0 4] else [immN f 0 4, immN f 4 4]
    (s, regs.any (fun t => k.refsBank (t / 4) || (!imm1 f 8 && k.writesTile t)))
  | .cbind f => (s, k.refsStream (f.cmd.extractLsb' 18 3).toNat)
  | .fst f => (s, kindOf c != .house && ((imm1 f 2 && s.fab.originFull) || ifaceFull s c))
  | .fatom f => (s, kindOf c != .house && ((imm1 f 2 && s.fab.originFull) || ifaceFull s c))
  | .fred f => (s, kindOf c != .house && ((imm1 f 2 && s.fab.originFull) || ifaceFull s c))
  | _ => (s, false)
where
  /-- The core's 64-entry interface queue is full (17 R433). -/
  ifaceFull (s : State) (c : Nat) : Bool := decide (64 ≤ (s.fab.iface.filter (fun h => h.core = c && h.sent.isNone)).length)

/-- The condition that holds a unit's operation back, those of the units before it known (R89). An instruction whose operand
is a COP reply still to come waits for that first, and its own wait begins with the operand. -/
def State.unitStall (s : State) (u : UnitCtx) (before : List (UnitCtx × Instr)) (i : Instr) : State × Bool :=
  let k := s.core u.core
  match i.slotWord with
  | some (.s, w) =>
    let cop := (w >>> 57).toNat = 0x70 && copOnKind (kindOf u.core) (copFn w)
    if k.replyDue (readsOf k.ctx u.n i) || k.streamEmpty (before.map (·.2)) i ||
      (cop && (decide (16 ≤ k.seq.cops.length) || k.replyDue [(w >>> 41).toNat % 64])) then (s, true) else s.waits u i
  | some (.v0, _) => (s, k.replyDue (readsOf k.ctx u.n i) || k.streamEmpty (before.map (·.2)) i)
  | some (.v1, _) => (s, k.replyDue (readsOf k.ctx u.n i) || k.streamEmpty (before.map (·.2)) i)
  | some _ =>
    let q := unitQueue u.unit
    let ahead := (before.filter (fun x => decide (7 ≤ x.1.unit) && unitQueue x.1.unit = q)).length
    if queueDepth q < k.eng.count q + ahead + 1 then (s, true) else s.waits u i
  | none => (s, false)

/-- The first unit whose condition holds, and the units before it. -/
def State.firstStall (s : State) : List (UnitCtx × Instr) → List (UnitCtx × Instr) → State × Option Nat
  | _, [] => (s, none)
  | before, x :: rest =>
    match s.unitStall x.1 before x.2 with
    | (s, true) => (s, some x.1.unit)
    | (s, false) => s.firstStall (before ++ [x]) rest

/-! ### Pipes (R91 to R94) -/

/-- The operation stays with its pipe (R93). -/
def sticky (unit : Nat) (w : Word) : Bool :=
  let op := (w >>> 57).toNat
  if unit ≤ 2 then op < 0x40 || (0x50 ≤ op && op ≤ 0x54) || op = 0x5A
  else if unit ≤ 6 then true
  else if unit ≤ 8 then !(op = 1 || op = 2 || op = 3 || op = 7 || op = 8 || op = 10)
  else !(op = 5 || op = 9 || op = 10)

/-- What a bundle asks of a pipe at this issue. -/
inductive Ask where
  | named (w : Word)
  | squashed
  | idled
  | nothing
  deriving DecidableEq, Repr

/-- What a pipe does at an issue: its new state, whether an operation issues on it, and whether the bundle names it while
it is busy (R88, R91, R92). -/
def Pipe.act (p : Pipe) (unit rows addr : Nat) (a : Ask) : Pipe × Bool × Bool :=
  match a with
  | .named w =>
    let b := beatsOf (w.extractLsb' 48 5)
    ({ mem := sticky unit w, word := w, naming := addr, n := 0, beats := b,
       tile := if 3 ≤ unit && unit ≤ 6 then (w.extractLsb' 12 7).toNat % rows else 0, cap := Capture.empty, hid := false }, true,
      p.beats != 0)
  | .squashed => ({ Pipe.empty with beats := p.beats }, false, false)
  | .idled => ({ Pipe.empty with beats := p.beats }, false, false)
  | .nothing =>
    if p.beats != 0 then (p, false, false)
    else if p.mem then
      ({ p with n := p.n + 1, beats := beatsOf (p.word.extractLsb' 48 5),
                tile := if 3 ≤ unit && unit ≤ 6 then (p.tile + (p.word.extractLsb' 8 4).toNat) % rows else 0 }, true, false)
    else (p, false, false)

/-- What the bundle asks of unit `u` at its first issue, the leaf taken being known (R94, R106). -/
def bundleAsk (b : Bundle) (leaf : Nat) (u : Nat) : Ask :=
  match b.ops.find? (fun x => x.1.code = (u - 1) / 2) with
  | some (_, i) =>
    match i.slotWord with
    | some (_, w) =>
      if wordPipe w = (u - 1) % 2 then
        (if wordPath w = 0 || wordPath w = leaf + 1 then .named w else .squashed)
      else if b.idle.getLsbD (u - 1) then .idled else .nothing
    | none => .nothing
  | none => if b.idle.getLsbD (u - 1) then .idled else .nothing

/-- An issue as planned: the new pipes, the units that issue, and the lowest unit that names a busy pipe. -/
structure Plan where
  pipes : Tbl Pipe
  units : List (UnitCtx × Instr)
  clash : Option Nat
  deriving DecidableEq, Repr

/-- Plan issue `rep` of a bundle (R91, R94): units before `resume` have committed already and only continue (09 R279). -/
def Core.plan (k : Core) (c : Nat) (b : Bundle) (rep resume leaf : Nat) : Plan :=
  unitList.foldl (fun (p : Plan) u =>
    let old := k.seq.pipes.get Pipe.empty u
    let a := if rep = 0 then bundleAsk b leaf u else .nothing
    let r := old.act u k.ctx.rows k.seq.pc a
    let new : Pipe := if u < resume && r.1.n = 0 && r.2.1 then { r.1 with cap := old.cap, hid := old.hid } else r.1
    let ctx : UnitCtx := { core := c, unit := u, bundle := k.seq.pc, len := b.len, rep := rep, naming := new.naming, n := new.n,
                           tile := new.tile, word := new.word, cap := new.cap }
    { pipes := p.pipes.set Pipe.empty u (if new.mem || new.beats != 0 then new else Pipe.empty),
      units := p.units ++ (if r.2.1 && resume ≤ u then
        (match decodeWord (Slot.ofUnit u) new.word with | some i => [(ctx, i)] | none => []) else []),
      clash := p.clash.or (if r.2.2 then some u else none) }) ⟨k.seq.pipes, [], none⟩

/-! ### One issue cycle -/

/-- A timed block holds the countdown back: open, within its limit (05 R178, 09 R287). -/
def Seqr.shielded (q : Seqr) : Bool := match q.blk with | some b => decide (q.cycles + 1 - b.start < b.limit) | none => false
/-- A cycle of the core passes: the countdown of a pre-emption runs (09 R287), but for the time from a trap return or a
restore to the re-entered issue (09 R285). -/
def Seqr.tick (q : Seqr) : Seqr :=
  let run := q.phase != .replay && q.phase != .trapRet && !q.frozen && !q.shielded
  { q with cycles := q.cycles + 1, preempt := q.preempt.map (fun n => if run then n - 1 else n) }

/-- The branch tests of a bundle all have W = 1 (R105). -/
def Ctx.testsReady (k : Ctx) (b : Branch) : Bool := (b.tests.take (shapeTests b.shape)).all (fun t => k.testW t)
def Ctx.leafOf (k : Ctx) (b : Branch) : Nat := Branch.leaf b.shape (b.tests.map (fun t => k.test t))
/-- The leaf in force: the tree's at a first issue, the kept one later (R105, 09 R276). -/
def Core.leafNow (k : Core) (b : Bundle) : Nat :=
  match b.branch with
  | none => 0
  | some br => if k.seq.rep = 0 && k.seq.resume = 0 then k.ctx.leafOf br else k.seq.leaf.getD 0

/-- What the next issue of the core would do. -/
inductive Next where
  | illegal (report : Nat)
  | clash (unit : Nat)
  | wait (x : Stall) (p : Plan) (leaf : Nat)
  | issue (b : Bundle) (p : Plan) (leaf : Nat)
  deriving DecidableEq, Repr

def landCtx (c : Nat) (k : Core) : UnitCtx := { UnitCtx.empty with core := c, bundle := k.seq.pc, rep := k.seq.rep }

/-- Examine the next issue of a core (R89, R105, R114, R88). The state changes only by what a wait sets going. -/
def State.examine (s : State) (c : Nat) : State × Next :=
  let k := s.core c
  match s.fetch ((s.jobOf c).getD fwJob) (kindOf c) k.seq.pc with
  | .error (.illegal r) => (s, .illegal r)
  | .error .short => (s, .illegal 6)
  | .ok b =>
    let first := k.seq.rep = 0 && k.seq.resume = 0
    let held := match b.branch with | some br => first && !k.ctx.testsReady br | none => false
    let leaf := k.leafNow b
    let p := k.plan c b k.seq.rep k.seq.resume leaf
    if held then (s, .wait .branch p leaf)
    else
      let calls := match b.branch with | some br => br.call && leaf != 0 | none => false
      match (if calls then s.pushWaits c else (s, false)) with
      | (s, true) => (s, .wait .branch p leaf)
      | (s, false) =>
        match s.firstStall [] p.units with
        | (s, some u) => (s, .wait (.unit u) p leaf)
        | (s, none) =>
          match p.clash with
          | some u => (s, .clash u)
          | none => (s, .issue b p leaf)

/-- The watchdog does not run in this wait (09 R292): WAITTASK's, TWAIT's before its tick, WMWAIT's before its watermark is
known; a wait for the operand's COP reply is none of them. -/
def State.quietWait (s : State) (u : UnitCtx) (i : Instr) : Bool :=
  let k := s.core u.core
  !k.replyDue (readsOf k.ctx u.n i) &&
  match i with
  | .waittask _ => true
  | .twait f => decide (s.gtick < (k.ctx.src f.sa).toNat)
  | .wmwait f => (s.fab.known ((k.ctx.src f.sa).toNat % 2 ^ 32) ((s.jobOf u.core).getD fwJob)).isNone
  | _ => false
/-- An instruction that waits for results in flight to land: PROBE and TMIRROR (04 R152, 05 R171). -/
def awaitsResults (i : Instr) : Bool :=
  match i with
  | .probe _ => true
  | .tmirror _ => true
  | _ => false

/-- The words outside the pool that a unit's operation reads at its issue: scalar registers and the stream registers it pops. -/
def issueWords (k : Ctx) (x : UnitCtx × Instr) : List Nat :=
  let q := unitQueue x.1.unit
  let op := (x.1.word >>> 57).toNat
  (if x.1.unit ≤ 6 then (readsOf k x.1.n x.2).filter (· < 32) ++ (popsOf x.2).map (256 + ·)
   else if x.1.n = 0 then (if capA q op x.1.word then [cmdRA x.1.word] else []) ++ (if capB q op x.1.word then [cmdRB x.1.word] else [])
   else []).filter (· != 0)
/-- The units up to the first that reads an uncorrectable word, whose fatal cause comes after theirs (10 R316, 09 R275). -/
def State.readable (s : State) (c : Nat) : List (UnitCtx × Instr) → State × List (UnitCtx × Instr)
  | [] => (s, [])
  | x :: r =>
    match s.coreEcc c (if x.1.unit ≤ 2 then 1 else if x.1.unit ≤ 6 then 2 else if x.1.unit ≤ 8 then 3 else 4)
        (issueWords (s.core c).ctx x) with
    | (s, true) => (s.onCore c (·.fatalLater ⟨causeEcc, x.1.slot, 0, x.1.bundle⟩), [])
    | (s, false) => let t := s.readable c r; (t.1, x :: t.2)

/-- Some pipe's units are set to work: they commit in order, then the issue cycle ends. -/
def State.launch (s : State) (c : Nat) (units : List (UnitCtx × Instr)) : State :=
  let r := s.readable c units
  { r.1.onSeq c (fun q => { q with opened := true }) with
    agenda := r.2 ++ [(landCtx c (s.core c), .lockstepResultLand c)] }

/-- The drains of a fatal cause begin (09 R293). -/
def State.toFatal (s : State) (c : Nat) : State :=
  s.onCore c (fun k => (k.noteFatal s.gtick).onSeq (fun q => { q with phase := .fatal, trap := none }))
/-- A fatal cause found at decode or before any unit commits (09 R274, R518). -/
def State.stopAt (s : State) (c cause slot : Nat) : State :=
  s.onCore c (fun k => ((k.fatal ⟨cause, slot, 0, k.seq.pc⟩).noteFatal s.gtick).onSeq (fun q => { q with phase := .fatal }))

/-- Discarded commands enter their queues again, one a cycle; then the return point is re-entered (09 R285). -/
def State.replayCycle (s : State) (c : Nat) : State :=
  s.onCore c (fun k =>
    match k.eng.replay with
    | d :: rest =>
      let k := k.onEng (fun e => { e with queue := e.queue ++ [d], replay := rest })
      if rest.isEmpty then (k.onSeq (fun q => { q with phase := .run })).onCtx (fun x => { x with sw := { x.sw with replay := false } })
      else k
    | [] => (k.onSeq (fun q => { q with phase := .run })).onCtx (fun x => { x with sw := { x.sw with replay := false } }))

/-- The core stops for a forced save with RESUME = `u`, nothing of the issue in hand committing (09 R288). -/
def State.drainAt (s : State) (c u : Nat) : State :=
  s.onCore c (fun k =>
    (k.onSeq (fun q => { q with phase := .saveDrain, resume := u, trap := none, stall := none, idleCycles := 0 })).onCtx
      (fun x => { x with sw := { x.sw with resume := u, repidx := if u = 0 then 0 else k.seq.rep } }))
/-- The units of the planned issue before unit `u` commit, and the core then stops there for a forced save; with `u` = 13 the
whole issue does. A schedule fault of the bundle comes first (09 R275, R288). -/
def State.splitIssue (s : State) (c u : Nat) (p : Plan) (leaf : Nat) : State :=
  match p.clash with
  | some v => s.stopAt c causeSchedule ((v - 1) / 2)
  | none =>
    let units := p.units.filter (fun x => x.1.unit < u)
    if units.isEmpty && u < 13 then (s.drainAt c u).onSeq c (fun q => { q with leaf := some leaf })
    else (s.onSeq c (fun q =>
      { q.tick with split := some u, leaf := some leaf, pipes0 := q.pipes, pipes := p.pipes, issue := q.issue + 1, stall := none,
                    idleCycles := 0, frozen := false, waiting := false })).launch c units
/-- The opening BLOCK of an issue, which does not issue with a save due (09 R287). -/
def Plan.opening (p : Plan) : Option Nat :=
  (p.units.find? (fun x => match x.2 with | .block f => f.blockCount != 0 | _ => false)).map (fun x => x.1.unit)
/-- The forced save strikes (09 R288): an issue that nothing holds back completes first, one that a unit's condition holds
back is split there, or before it at an opening BLOCK, and one that its branch holds back does not begin. While TEND waits, its transfer stays pending
(04 R146; log 10). An illegal encoding comes first (09 R275). -/
def State.strikeSave (s : State) (c : Nat) : State :=
  let k := s.core c
  if k.seq.phase = .ending then
    (s.drainAt c 0).onSeq c (fun q => { q with rep := 0, leaf := none, xfer := some .tend })
  else
  match s.examine c with
  | (s, .wait (.unit u) p leaf) => s.splitIssue c (min u (p.opening.getD 13)) p leaf
  | (s, .issue _ p leaf) => s.splitIssue c (p.opening.getD 13) p leaf
  | (s, .wait .branch _ _) => s.drainAt c (if k.seq.resume != 0 then k.seq.resume else if k.seq.rep != 0 then 1 else 0)
  | (s, .illegal r) => s.stopAt c causeIllegal r
  | (s, .clash u) => s.stopAt c causeSchedule ((u - 1) / 2)

/-- The countdown of a pre-emption has run out and is not held back (09 R287). -/
def Core.saveDue (k : Core) : Bool :=
  (k.seq.phase = .run || k.seq.phase = .ending) && k.seq.preempt = some 0 && !k.seq.shielded && k.seq.fatal.isNone && !k.seq.opened

/-! ### The counters of a lookup core (15 R404, R405) -/

/-- The condition of a CWAIT or MWAIT, or the cause of its fault (R240). -/
def State.waitCond (s : State) (c : Nat) (d : Cmd) : Except Nat Bool :=
  let k := (s.core c).ctx
  match d.wKind with
  | 0 => .ok true
  | 1 => if s.semOk c d.wNum then .ok (d.wVal ≤ s.semGet c d.wNum) else .error causeHandle
  | 2 => .ok ((k.bb.get Barrier.empty d.wNum).phase = decide (d.wVal = 1))
  | _ => if (k.rg d.wNum).nslot = 0 then .error causeConfig else .ok ((k.rg d.wNum).ready 0)
/-- Counter `i` of a lookup core rises; the other cores have none. -/
def State.ldAdd (s : State) (c i : Nat) : State :=
  if kindOf c != .lookup then s else s.onCore c (fun k => { k with ldq := k.ldq.set 0 i ((k.ldq.get 0 i + 1) % 2 ^ 64) })
/-- Copy queue `q` has lost its decoupling: nothing is left to fetch, and its head waits (R404). -/
def State.starved (s : State) (c q : Nat) : Bool :=
  let k := s.core c
  k.eng.fly.all (fun d => d.q != q || d.finished) &&
    match k.eng.queue.find? (fun d => d.q = q) with
    | none => false
    | some d => if d.guarded then d.isWait && (match s.waitCond c d with | .ok b => !b | .error _ => false) else !k.ctx.pw d.gpred
/-- A cycle of the sequencer's stall at SEMWAIT, FENCE acq or a read of a stream register, both queues starved or empty. -/
def State.seqStarved (s : State) (c : Nat) (units : List (UnitCtx × Instr)) (u : Nat) : Bool :=
  let k := s.core c
  let at_ := fun (y : UnitCtx × Instr) => match y.2 with
    | .semwait _ => true
    | .fence f => (immN f 3 2 != 1) && !k.acqDone
    | i => k.streamEmpty ((units.filter (fun x => decide (x.1.unit < u))).map (·.2)) i
  units.any (fun y => y.1.unit = u && at_ y) &&
    [1, 2].all (fun q => s.starved c q || k.eng.queue.all (fun d => d.q != q))
/-- The counts of one cycle of the copy queues. -/
def State.countCycle (s : State) (c : Nat) : State :=
  [1, 2].foldl (fun t q => if s.starved c q then t.ldAdd c (q - 1) else t) s

/-- One cycle of a core's sequencer. In a stall no lockstep result lands (R89), those that TMIRROR or a release waits for excepted:
how such a wait can end is a choice (04 R152; log 10). -/
def State.issueCycle (s : State) (c : Nat) : State :=
  let k := s.core c
  if k.seq.opened then s
  else match k.seq.phase with
  | .off => s
  | .replay => (s.replayCycle c).onSeq c (·.tick)
  | .run =>
    if k.seq.fatal.isSome then s.toFatal c
    else if k.seq.xfer = some .tend && k.seq.resume = 0 && k.seq.rep = 0 then
      s.onSeq c (fun q => { q with phase := .ending, xfer := none })
    else if k.saveDue then s.strikeSave c
    else
      match s.examine c with
      | (s, .illegal r) => s.stopAt c causeIllegal r
      | (s, .clash u) => s.stopAt c causeSchedule ((u - 1) / 2)
      | (s, .wait x p _) =>
        let still := match x with
          | .branch => true
          | .unit u => !(p.units.any (fun y => y.1.unit = u && s.quietWait y.1 y.2))
        let s := match x with
          | .unit u => if kindOf c = CoreKind.lookup && s.seqStarved c p.units u then s.ldAdd c 2 else s
          | .branch => s
        -- while PROBE or TMIRROR waits, results in flight complete their latency in ordinary cycles, as R278 counts them (log 10)
        let s := match x with
          | .unit u => if p.units.any (fun y => y.1.unit = u && awaitsResults y.2) then s.landCycle c else s
          | .branch => s
        s.onSeq c (fun q => { q.tick with stall := some x, idleCycles := if still then q.idleCycles + 1 else q.idleCycles })
      | (s, .issue _ p leaf) =>
        let s := s.onCore c (fun k =>
          (k.onSeq (fun q =>
            { q.tick with stall := none, idleCycles := 0, frozen := false, pipes0 := q.pipes, pipes := p.pipes, issue := q.issue + 1,
                          leaf := some leaf, waiting := false })).onCtx
            (fun x => { x with sw := { x.sw with repidx := k.seq.rep } }))
        s.launch c p.units
  | .ending =>
    if k.seq.fatal.isSome then s.toFatal c
    else if k.saveDue then s.strikeSave c
    else (s.onSeq c (fun q => { q.tick with idleCycles := q.idleCycles + 1 })).launch c []
  | .yielding =>
    if k.seq.fatal.isSome then s.toFatal c
    else (s.onSeq c (fun q => { q.tick with idleCycles := q.idleCycles + 1 })).launch c []
  | .trapDrain => (s.onSeq c (·.tick)).launch c []
  | .saveDrain => (s.onSeq c (·.tick)).launch c []
  | .trapRet => if k.seq.fatal.isSome then s.toFatal c else (s.onSeq c (·.tick)).launch c []
  | .fatal => (s.onSeq c (·.tick)).launch c []

/-- BUNDLE_ISSUE: a cycle of a core; a lookup core counts what its copy queues do in it. -/
def State.beginIssue (s : State) (c : Nat) : State :=
  if kindOf c = CoreKind.lookup && !(s.core c).seq.opened && (s.core c).seq.phase != .off then (s.countCycle c).issueCycle c else s.issueCycle c

/-! ### The end of an issue cycle -/

/-- The loop rule (04 R143), from counter `n` downward: the new counters and the start taken, if any. -/
def loopStep (t : Tbl LoopCtr) (here : Nat) : Nat → Tbl LoopCtr × Option Nat
  | 0 => (t, none)
  | n + 1 =>
    let l := t.get LoopCtr.empty n
    if l.count != 0 && l.stop = here then
      if l.count > 1 then (t.set LoopCtr.empty n { l with count := l.count - 1 }, some l.start)
      else loopStep (t.set LoopCtr.empty n { l with count := 0 }) here n
    else loopStep t here n

/-- The task start of a core that was handed a task (01 R14, R48; 12 R351, R356): the registers it names are written, the
pipes, latches, bindings, pairs and loop counters are as at any task start; a timed block opens as BLOCK would. A load to one of s24 to
s31 that is outstanding here overwrites the preload as it lands later: a choice of the model (log 43). -/
def Core.startTask (k : Core) (t : Task) (waits : List Nat) (cycles : Nat) : Core :=
  let k := k.clearPipes
  (k.onCtx (fun x =>
    let x := (t.s24.zipIdx 24).foldl (fun x v => x.setReg v.2 v.1) x
    let x := waits.foldl (fun x j => { x with sem := x.sem.set 0 j (x.sem.get 0 j - 1) }) x
    { x with bank := 0xE4, mirror := [], loop := x.loop.map (fun l => (l.1, { l.2 with count := 0 })),
             sw := { x.sw with prio := BitVec.ofNat 2 t.cls, preq := false, resume := 0, repidx := 0, replay := false } })).onSeq
    (fun q => { q with task := some t, handed := none, waiting := false, pc := t.entry, rep := 0, resume := 0, leaf := none,
                       preempt := none, frozen := false, probe := none, waitTick := none,
                       blk := if t.kind = 2 then some ⟨q.cycles, cycles⟩ else none })
def State.beginTask (s : State) (c : Nat) : State :=
  match (s.core c).seq.handed with
  | some t => s.onCore c (fun k => k.startTask t (s.blockWaits c t) (s.tcbOf c t.node).cycles)
  | none => s

/-- Rules 4 and 5 of R108: a trip of 0, the end of an active loop, or the next sequential bundle. The counters that end at
the bundle step in every case (04 R143); where one of them would loop and a trip of 0 skips as well, the skip is taken (log 10:
the spec does not rank the two). -/
def State.seqNext (s : State) (c len : Nat) : State :=
  let r := loopStep (s.core c).ctx.loop (s.core c).seq.pc 4
  s.onCore c (fun k => (k.onCtx (fun x => { x with loop := r.1 })).onSeq (fun q =>
    { q with pc := q.loopSkip.getD (r.2.getD (q.pc + len)) }))

/-- What the sequencer does after a bundle's last issue (R108). -/
def State.afterBundle (s : State) (c : Nat) : State :=
  let k := s.core c
  let b := s.fetch ((s.jobOf c).getD fwJob) (kindOf c) k.seq.pc
  let len := match b with | .ok b => b.len | .error _ => 4
  let fresh := fun (s : State) => s.onSeq c (fun q => { q with rep := 0, resume := 0, leaf := none, xfer := none, loopSkip := none })
  match k.seq.xfer with
  | some (.jump t _) => fresh (s.onSeq c (fun q => { q with pc := t }))
  | some .tend => fresh (s.onSeq c (fun q => { q with phase := .ending }))
  | some .waittask => fresh (s.beginTask c)
  | some .yield => fresh ((s.seqNext c len).onSeq c (fun q => { q with phase := .yielding }))
  | some .trapRet => fresh (s.onSeq c (fun q => { q with phase := .trapRet }))
  | none =>
    match b with
    | .ok { branch := some br, .. } =>
      let leaf := k.seq.leaf.getD 0
      if leaf = 0 then fresh (s.seqNext c len)
      else
        let off := (br.offs.getD (leaf - 1) 0).toInt * 4
        let s := if br.call then s.rasPush { UnitCtx.empty with core := c, unit := 15, bundle := k.seq.pc } (k.seq.pc + len) else s
        fresh (s.onSeq c (fun q => { q with pc := (((q.pc : Int) + off) % 2 ^ 57).toNat }))
    | _ => fresh (s.seqNext c len)

/-- The pipe state of a split: as at the start of the issue, and of a committed unit that the bundle names, the operation that
it remembers with what it captured (09 R279, R517, 20 R487). -/
def Seqr.splitPipes (q : Seqr) (u : Nat) : Tbl Pipe :=
  unitList.foldl (fun t n =>
    let p := q.pipes0.get Pipe.empty n
    let r := q.pipes.get Pipe.empty n
    t.set Pipe.empty n (if n < u && r.n = 0 && r.mem then { r with beats := p.beats } else p)) []

/-- A beat passes on every busy pipe (R88). -/
def Seqr.beat (q : Seqr) : Seqr :=
  { q with pipes := unitList.foldl (fun t n =>
      let p := t.get Pipe.empty n
      let p := if p.beats = 0 then p else { p with beats := p.beats - 1 }
      t.set Pipe.empty n (if p.mem || p.beats != 0 then p else Pipe.empty)) q.pipes }

/-- The issue is split before unit `u`: nothing of it is left to land but what committed. -/
def State.splitAt (s : State) (c u : Nat) (ph : Phase) : State :=
  s.onCore c (fun k =>
    (k.onSeq (fun q => { q with phase := ph, pipes := q.splitPipes u, resume := u, split := none })).onCtx
      (fun x => { x with sw := { x.sw with resume := u, repidx := k.seq.rep } }))

/-- An issue that has committed whole: its beats pass, and the sequencer goes on to the bundle's next repetition or to the next
bundle (R88, R94, R108). -/
def State.advance (s : State) (c : Nat) : State :=
  let k := s.core c
  let s := s.onCore c (fun k => (k.onSeq (fun q => { q.beat with resume := 0, split := none })).onCtx
    (fun x => if x.sw.resume != 0 && k.seq.resume != 0 then { x with sw := { x.sw with resume := 0 } } else x))
  match s.fetch ((s.jobOf c).getD fwJob) (kindOf c) k.seq.pc with
  | .ok b =>
    if k.seq.rep < b.rep then s.onSeq c (fun q => { q with rep := q.rep + 1 })
    else s.afterBundle c
  | .error _ => s.afterBundle c
/-- The forced save that has let an issue complete stops the core where the sequencer stands: before the next repetition, with
RESUME = 1, or before the next bundle (09 R288). A wait that the issue's transfer began is struck as such. -/
def State.stopAfter (s : State) (c : Nat) : State :=
  let k := s.core c
  if k.seq.phase != .run || k.seq.fatal.isSome then s else s.drainAt c (if k.seq.rep = 0 then 0 else 1)

/-- LOCKSTEP_RESULT_LAND as the end of an issue cycle: the results at the end of their latency become visible, then the
sequencer goes on (R90, R108, 09 R276, R288). A guard at the head of a queue is evaluated after them (R102; log 20: the spec
does not say whether a predicate write of the same cycle is seen). -/
def State.endIssue (s : State) (c : Nat) : State :=
  if !(s.core c).seq.opened then s
  else
    let s := ((s.landCycle c).onCore c (fun k => (k.onSeq (fun q => { q with opened := false })).guardHeads)).hostGo
    let k := s.core c
    if k.seq.phase != .run then s
    else if k.seq.fatal.isSome then s.toFatal c
    else match k.seq.trap with
      | some t => s.splitAt c t.unit .trapDrain
      | none =>
        match k.seq.split with
        | some u => if u < 13 then s.splitAt c u .saveDrain else (s.advance c).stopAfter c
        | none => s.advance c

end Sys2Proof.Machine
end

