-- ==== Sys2Proof/Machine/Scalar.lean ====
section
/-! DEFINITION. The integer, immediate, compare and predicate instructions (04_scalar_control_instructions.md R126 to
R135): each reads its sources as they stand at its issue and schedules one result. -/
namespace Sys2Proof.Machine

/-- A scalar result of the context, landing after `l` issue cycles (R126, R127). -/
def scalarOp (f : SF) (l : Nat) (g : Ctx → Word) (s : State) : Host.Outcome State Fault Refusal :=
  commitCore s (fun k => k.result s.unit f l (g k.ctx))
/-- A predicate result, with L = 1; the pipe's latch receives it as 0 or 1 (R126, R127). -/
def predOp (pd : Nat) (g : Ctx → Bool) (s : State) : Host.Outcome State Fault Refusal :=
  commitCore s (fun k => k.after s.unit 1 (.pred pd (g k.ctx) (some s.unit.sLatch)))
/-- An operation on the two sources. -/
def binOp (f : SF) (l : Nat) (g : Word → Word → Word) (s : State) : Host.Outcome State Fault Refusal :=
  scalarOp f l (fun k => g (k.src f.sa) (k.src f.sb)) s
/-- An operation on the first source. -/
def unOp (f : SF) (l : Nat) (g : Word → Word) (s : State) : Host.Outcome State Fault Refusal :=
  scalarOp f l (fun k => g (k.src f.sa)) s

/-! ### Arithmetic -/

/-- A shift amount: bits [63:6] are ignored (R128). -/
def shAmt (b : Word) : Nat := b.toNat % 64
/-- The high half of the signed and of the unsigned product (R128). -/
def mulHigh (a b : Word) : Word := (a.signExtend 128 * b.signExtend 128).extractLsb' 64 64
def mulHighU (a b : Word) : Word := (a.setWidth 128 * b.setWidth 128).extractLsb' 64 64
/-- The quotients and remainders, with the corner cases of R129. -/
def divS (a b : Word) : Word := if b = 0 then 0xFFFFFFFFFFFFFFFF else a.sdiv b
def remS (a b : Word) : Word := if b = 0 then a else a.srem b
def divU (a b : Word) : Word := if b = 0 then 0xFFFFFFFFFFFFFFFF else a / b
def remU (a b : Word) : Word := if b = 0 then a else a % b
/-- The number of leading zero bits among the `n` lowest (R128). -/
def leadZeros (a : Word) : Nat → Nat
  | 0 => 0
  | n + 1 => if a.getLsbD n then 0 else leadZeros a n + 1
/-- The number of trailing zero bits, from bit `i` on, `n` bits left (R128). -/
def trailZeros (a : Word) (i : Nat) : Nat → Nat
  | 0 => 0
  | n + 1 => if a.getLsbD i then 0 else trailZeros a (i + 1) n + 1
def countOnes (a : Word) : Nat → Nat
  | 0 => 0
  | n + 1 => (if a.getLsbD n then 1 else 0) + countOnes a n
/-- The width that SEXT and ZEXT name (R130). -/
def extWidth (f : SF) : Nat := match (f.imm.extractLsb' 0 2).toNat with | 0 => 8 | 1 => 16 | _ => 32
/-- The sign-extended immediate of IMM (R131), and the 32-bit immediate of LDI and LDIH. -/
def immS (f : SF) : Word := f.imm.signExtend 64
def imm32 (f : SF) : BitVec 32 := f.sb.extractLsb' 0 3 ++ f.imm

def execAdd (f : SF) (s : State) : Host.Outcome State Fault Refusal := binOp f 1 (fun a b => a + b) s
def execSub (f : SF) (s : State) : Host.Outcome State Fault Refusal := binOp f 1 (fun a b => a - b) s
def execAnd (f : SF) (s : State) : Host.Outcome State Fault Refusal := binOp f 1 (fun a b => a &&& b) s
def execOr (f : SF) (s : State) : Host.Outcome State Fault Refusal := binOp f 1 (fun a b => a ||| b) s
def execXor (f : SF) (s : State) : Host.Outcome State Fault Refusal := binOp f 1 (fun a b => a ^^^ b) s
def execAndn (f : SF) (s : State) : Host.Outcome State Fault Refusal := binOp f 1 (fun a b => a &&& ~~~b) s
def execShl (f : SF) (s : State) : Host.Outcome State Fault Refusal := binOp f 1 (fun a b => a <<< shAmt b) s
def execShr (f : SF) (s : State) : Host.Outcome State Fault Refusal := binOp f 1 (fun a b => a >>> shAmt b) s
def execSar (f : SF) (s : State) : Host.Outcome State Fault Refusal := binOp f 1 (fun a b => a.sshiftRight (shAmt b)) s
def execRol (f : SF) (s : State) : Host.Outcome State Fault Refusal := binOp f 1 (fun a b => a.rotateLeft (shAmt b)) s
def execMul (f : SF) (s : State) : Host.Outcome State Fault Refusal := binOp f 3 (fun a b => a * b) s
def execMulh (f : SF) (s : State) : Host.Outcome State Fault Refusal := binOp f 3 mulHigh s
def execMulhu (f : SF) (s : State) : Host.Outcome State Fault Refusal := binOp f 3 mulHighU s
def execDiv (f : SF) (s : State) : Host.Outcome State Fault Refusal := binOp f 24 divS s
def execDivu (f : SF) (s : State) : Host.Outcome State Fault Refusal := binOp f 24 divU s
def execRem (f : SF) (s : State) : Host.Outcome State Fault Refusal := binOp f 24 remS s
def execRemu (f : SF) (s : State) : Host.Outcome State Fault Refusal := binOp f 24 remU s
def execMin (f : SF) (s : State) : Host.Outcome State Fault Refusal := binOp f 1 (fun a b => if b.slt a then b else a) s
def execMax (f : SF) (s : State) : Host.Outcome State Fault Refusal := binOp f 1 (fun a b => if a.slt b then b else a) s
def execMinu (f : SF) (s : State) : Host.Outcome State Fault Refusal := binOp f 1 (fun a b => if b < a then b else a) s
def execMaxu (f : SF) (s : State) : Host.Outcome State Fault Refusal := binOp f 1 (fun a b => if a < b then b else a) s
def execClz (f : SF) (s : State) : Host.Outcome State Fault Refusal := unOp f 1 (fun a => BitVec.ofNat 64 (leadZeros a 64)) s
def execCtz (f : SF) (s : State) : Host.Outcome State Fault Refusal := unOp f 1 (fun a => BitVec.ofNat 64 (trailZeros a 0 64)) s
def execPopc (f : SF) (s : State) : Host.Outcome State Fault Refusal := unOp f 1 (fun a => BitVec.ofNat 64 (countOnes a 64)) s
def execSext (f : SF) (s : State) : Host.Outcome State Fault Refusal :=
  unOp f 1 (fun a => (a.extractLsb' 0 (extWidth f)).signExtend 64) s
def execZext (f : SF) (s : State) : Host.Outcome State Fault Refusal :=
  unOp f 1 (fun a => (a.extractLsb' 0 (extWidth f)).setWidth 64) s
/-- SEL reads V whatever the W bit (R130). -/
def execSel (f : SF) (s : State) : Host.Outcome State Fault Refusal :=
  scalarOp f 1 (fun k => if k.test (f.imm.extractLsb' 0 5) then k.src f.sa else k.src f.sb) s

/-! ### Immediates (R131) -/

def execAddi (f : SF) (s : State) : Host.Outcome State Fault Refusal := unOp f 1 (fun a => a + immS f) s
def execAndi (f : SF) (s : State) : Host.Outcome State Fault Refusal := unOp f 1 (fun a => a &&& immS f) s
def execOri (f : SF) (s : State) : Host.Outcome State Fault Refusal := unOp f 1 (fun a => a ||| immS f) s
def execXori (f : SF) (s : State) : Host.Outcome State Fault Refusal := unOp f 1 (fun a => a ^^^ immS f) s
def execShli (f : SF) (s : State) : Host.Outcome State Fault Refusal := unOp f 1 (fun a => a <<< (f.imm.toNat % 64)) s
def execShri (f : SF) (s : State) : Host.Outcome State Fault Refusal := unOp f 1 (fun a => a >>> (f.imm.toNat % 64)) s
def execSari (f : SF) (s : State) : Host.Outcome State Fault Refusal := unOp f 1 (fun a => a.sshiftRight (f.imm.toNat % 64)) s
def execLdi (f : SF) (s : State) : Host.Outcome State Fault Refusal := scalarOp f 1 (fun _ => (imm32 f).signExtend 64) s
def execLdih (f : SF) (s : State) : Host.Outcome State Fault Refusal :=
  unOp f 1 (fun a => imm32 f ++ a.extractLsb' 0 32) s

/-! ### Compares and predicate logic (R132 to R134) -/

/-- The condition codes of R133. -/
def compare (cc : Nat) (a b : Word) : Bool :=
  match cc with
  | 0 => a = b
  | 1 => a != b
  | 2 => a.slt b
  | 3 => !a.slt b
  | 4 => a < b
  | 5 => b ≤ a
  | 6 => (a &&& b) != 0
  | _ => (a &&& b) = 0
def immPd (f : SF) : Nat := (f.imm.extractLsb' 10 4).toNat

def execCmp (f : SF) (s : State) : Host.Outcome State Fault Refusal :=
  predOp (f.imm.extractLsb' 0 4).toNat (fun k => compare (f.imm.extractLsb' 4 4).toNat (k.src f.sa) (k.src f.sb)) s
def execCmpi (f : SF) (s : State) : Host.Outcome State Fault Refusal :=
  predOp (f.imm.extractLsb' 0 4).toNat
    (fun k => compare (f.imm.extractLsb' 4 4).toNat (k.src f.sa) ((f.imm.extractLsb' 8 21).signExtend 64)) s
def execPand (f : SF) (s : State) : Host.Outcome State Fault Refusal :=
  predOp (immPd f) (fun k => k.test (f.imm.extractLsb' 5 5) && k.test (f.imm.extractLsb' 0 5)) s
def execPor (f : SF) (s : State) : Host.Outcome State Fault Refusal :=
  predOp (immPd f) (fun k => k.test (f.imm.extractLsb' 5 5) || k.test (f.imm.extractLsb' 0 5)) s
def execPxor (f : SF) (s : State) : Host.Outcome State Fault Refusal :=
  predOp (immPd f) (fun k => k.test (f.imm.extractLsb' 5 5) != k.test (f.imm.extractLsb' 0 5)) s
def execPnot (f : SF) (s : State) : Host.Outcome State Fault Refusal :=
  predOp (immPd f) (fun k => !k.test (f.imm.extractLsb' 5 5)) s
def execPset (f : SF) (s : State) : Host.Outcome State Fault Refusal :=
  predOp (immPd f) (fun _ => f.imm.getLsbD 0) s
/-- PINV has no result (R134). -/
def execPinv (f : SF) (s : State) : Host.Outcome State Fault Refusal :=
  commitCore s (fun k => k.after s.unit 1 (.pinv (immPd f)))

end Sys2Proof.Machine
end

