-- ==== Sys2Proof/Machine/MemOps.lean ====
section
/-! DEFINITION. Loads, stores, atomics, scratchpad access, fences, translation, random words, semaphores, waits and timed
blocks (05_memory_sync_fabric_instructions.md R157 to R178), and the events by which memory answers: LOAD_LAND,
STORE_PERFORMED and RAS_REFILL. -/
namespace Sys2Proof.Machine

/-! ### Checks of an access (R158) -/

def accSize (f : SF) : Nat := 2 ^ (f.imm.extractLsb' 27 2).toNat
def accHandle (k : Ctx) (f : SF) : Handle := k.h (f.imm.extractLsb' 22 4).toNat
/-- The semaphore to signal, with SE = 1 (R157). -/
def accSem (f : SF) : Option Nat := if f.imm.getLsbD 21 then some (f.imm.extractLsb' 16 5).toNat else none
/-- LD and ST add the signed offset, modulo 2^64; ATOM adds none. -/
def accOff (k : Ctx) (f : SF) (atom : Bool) : Nat :=
  (if atom then k.src f.sa else k.src f.sa + (f.imm.extractLsb' 0 16).signExtend 64).toNat

/-- The place of a checked access, or the cause of its fault, in the order of R158 (01 R33 for the semaphore). Where an unallocated
semaphore ranks among the page checks R158 does not say: that it comes last is a choice of the model (log 42). -/
def State.checkAcc (s : State) (c : Nat) (f : SF) (wr atom : Bool) : Except Nat Place :=
  let k := (s.core c).ctx
  let off := accOff k f atom
  let n := accSize f
  let h := accHandle k f
  if !h.valid then .error causeHandle
  else if pageBytes h.size < off + n then .error causeOffset
  else if wr && (!h.writable || s.codeHit c (h.va.toNat + off) n) then .error causeWrite
  else if atom && off % n != 0 then .error causeAlign
  else match accSem f with
    | some j => if s.semOk c j then .ok (h.place off) else .error causeHandle
    | none => .ok (h.place off)

/-- An access enters the core's list, and counts for migration (10 R311). -/
def State.enter (s : State) (p : Place) (g : Core → Core) : State :=
  let c := s.unit.core
  (s.countAcc ((s.jobOf c).getD fwJob) p.key (dieOf c) 1).onCore c g

def execLd (f : SF) (s : State) : Host.Outcome State Fault Refusal :=
  commitState s (fun s =>
    let c := s.unit.core
    match s.checkAcc c f false false with
    | .error e => s.onCore c (·.fault s.unit e)
    | .ok p => s.enter p (fun k => k.onSeq (fun q =>
        { q with loads := q.loads ++ [⟨writeKey q.issue s.unit.unit, s.unit.bundle, p, accSize f, f.imm.getLsbD 26, sDst f,
                                       s.unit.sLatch, accSem f, none, s.mem.qseq⟩] })))
def execSt (f : SF) (s : State) : Host.Outcome State Fault Refusal :=
  commitState s (fun s =>
    let c := s.unit.core
    match s.checkAcc c f true false with
    | .error e => s.onCore c (·.fault s.unit e)
    | .ok p => s.enter p (fun k => k.onSeq (fun q =>
        { q with stores := q.stores ++ [⟨writeKey q.issue s.unit.unit, s.unit.bundle, p,
                                         leBytes (accSize f) (k.ctx.src f.sb).toNat, accSem f, s.mem.qseq⟩] })))
/-- ATOM; for cas, sd supplies the expected value (R160). -/
def execAtom (f : SF) (s : State) : Host.Outcome State Fault Refusal :=
  commitState s (fun s =>
    let c := s.unit.core
    match s.checkAcc c f true true with
    | .error e => s.onCore c (·.fault s.unit e)
    | .ok p => s.enter p (fun k => k.onSeq (fun q =>
        { q with loads := q.loads ++ [⟨writeKey q.issue s.unit.unit, s.unit.bundle, p, accSize f, false, sDst f,
                                       s.unit.sLatch, accSem f,
                                       some ((f.imm.extractLsb' 12 4).toNat, (k.ctx.src f.sb).toNat,
                                         (k.ctx.src f.dst).toNat), s.mem.qseq⟩] })))

/-! ### Scratchpad access (R163, R164) -/

/-- The address, modulo 2^64; none where a byte lies at P or above. -/
def spadAddr (c : Nat) (k : Ctx) (f : SF) : Option Nat :=
  let a := (k.src f.sa + (f.imm.extractLsb' 0 22).signExtend 64).toNat
  if spadSize c k < a + accSize f then none else some a
def extendLoad (sx : Bool) (n v : Nat) : Word :=
  if sx then BitVec.ofInt 64 (sextNat (8 * n) v) else BitVec.ofNat 64 v
def execLds (f : SF) (s : State) : Host.Outcome State Fault Refusal :=
  let c := s.unit.core
  let e := match spadAddr c (s.core c).ctx f with
    | some a => s.sram c 1 (spadPool c (s.core c).ctx + a) (accSize f)
    | none => (s, false)
  commitCore e.1 (fun k =>
    match spadAddr s.unit.core k.ctx f with
    | none => k.fault s.unit causeRange
    | some a => if e.2 then k.fault s.unit causeEcc else k.result s.unit f 4 (extendLoad (f.imm.getLsbD 26) (accSize f) (ofLe (k.spadNow.ld a (accSize f)))))
def execSts (f : SF) (s : State) : Host.Outcome State Fault Refusal :=
  commitCore s (fun k =>
    match spadAddr s.unit.core k.ctx f with
    | none => k.fault s.unit causeRange
    | some a => k.after s.unit 1 (.spad a (leBytes (accSize f) (k.ctx.src f.sb).toNat)))

/-! ### FENCE, translation, handles -/

/-- FENCE has waited before it issues (R166); it does nothing more. -/
def execFence (_ : SF) (s : State) : Host.Outcome State Fault Refusal := commitCore s (fun k => k)
def trnEff (f : SF) (k : Ctx) (u : UnitCtx) : LandEff :=
  .trn (f.imm.extractLsb' 0 4).toNat (f.imm.extractLsb' 4 4).toNat (f.imm.getLsbD 8) ((k.src f.sa).extractLsb' 0 57) (sDst f)
    (some u.sLatch)
def execTrn (f : SF) (s : State) : Host.Outcome State Fault Refusal :=
  commitCore s (fun k => k.after s.unit 48 (trnEff f k.ctx s.unit))
def execHrel (f : SF) (s : State) : Host.Outcome State Fault Refusal :=
  commitCore s (fun k => k.after s.unit 1
    (.hrel (if f.imm.getLsbD 4 then 0xFFFF else BitVec.twoPow 16 (f.imm.extractLsb' 0 4).toNat)))
def execHinfo (f : SF) (s : State) : Host.Outcome State Fault Refusal :=
  scalarOp f 1 (fun k => (k.h (f.imm.extractLsb' 0 4).toNat).info) s
/-- PROBE once its wait is over (R171): the handle on OK; on another status a trap with cause 0x20, or with NT = 1 the
status alone. -/
def execProbe (f : SF) (s : State) : Host.Outcome State Fault Refusal :=
  let c := s.unit.core
  let k := (s.core c).ctx
  let va := (k.src f.sa).extractLsb' 0 57
  let pd := (f.imm.extractLsb' 4 4).toNat
  match (s.probeStatus c (f.imm.getLsbD 8) va.toNat).2 with
  | none => commitCore s (fun k => k)
  | some (0, _) => commitCore s (fun k =>
      (k.after s.unit 1 (trnEff f k.ctx s.unit)).onSeq (fun q => { q with probe := none }))
  | some (st, _) =>
    commitCore s (fun k =>
      if f.imm.getLsbD 9 then (k.result s.unit f 1 (BitVec.ofNat 64 st) (some (pd, false))).onSeq (fun q => { q with probe := none })
      else k.trap ⟨causeProbe, s.unit.unit, va.setWidth 64,
        BitVec.ofNat 64 ((if f.imm.getLsbD 8 then 2 ^ 16 else 0) + st * 256 + pd * 16 + (f.imm.extractLsb' 0 4).toNat)⟩)

/-! ### RAND (R172) -/

/-- The 64-bit word of a draw word and HALF. -/
def randWord (seed : Word) (stream : BitVec 16) (a : Word) (half : Bool) : Word :=
  let w := philox seed ⟨0xFFFFFFFF, a.extractLsb' 0 32, stream ++ a.extractLsb' 32 16, (a.extractLsb' 48 16).setWidth 32⟩
  if half then w.c3 ++ w.c2 else w.c1 ++ w.c0
def execRand (f : SF) (s : State) : Host.Outcome State Fault Refusal :=
  scalarOp f 6 (fun k => randWord k.seed k.fpStream (k.src f.sa) (f.imm.getLsbD 0)) s

/-! ### Semaphores (R173, R174) -/

def semNum (f : SF) : Nat := (f.imm.extractLsb' 0 5).toNat
def semVal (f : SF) : Nat := (f.imm.extractLsb' 5 16).toNat
/-- A semaphore instruction on a semaphore the context holds. -/
def semOp (f : SF) (s : State) (g : Core → Core) : Host.Outcome State Fault Refusal :=
  commitCore s (fun k => if s.semOk s.unit.core (semNum f) then g k else k.fault s.unit causeHandle)
def execSemsig (f : SF) (s : State) : Host.Outcome State Fault Refusal :=
  semOp f s (fun k => k.after s.unit 1 (.semAdd (semNum f) (semVal f)))
def execSemset (f : SF) (s : State) : Host.Outcome State Fault Refusal :=
  semOp f s (fun k => k.after s.unit 1 (.semSet (semNum f) (semVal f)))
/-- SEMWAIT consumes its count in the cycle its wait ends (R174). -/
def execSemwait (f : SF) (s : State) : Host.Outcome State Fault Refusal :=
  commitState s (fun s =>
    let c := s.unit.core
    if !s.semOk c (semNum f) then s.onCore c (·.fault s.unit causeHandle)
    else if s.semGet c (semNum f) < semVal f then s
    else s.semPut c (semNum f) (s.semGet c (semNum f) - semVal f))

/-! ### TWAIT and BLOCK (R177, R178) -/

/-- TWAIT, its tick reached: SW.LATE where it waited and the module is out of step. -/
def execTwait (_ : SF) (s : State) : Host.Outcome State Fault Refusal :=
  commitCore s (fun k =>
    let late := k.seq.waitTick.isSome && s.outStep
    (k.onCtx (fun x => if late then { x with sw := { x.sw with late := true } } else x)).onSeq
      (fun q => { q with waitTick := none }))
/-- The end of an open timed block (R178): an overrun sets BOVR. -/
def Core.endBlock (k : Core) : Core :=
  match k.seq.blk with
  | none => k
  | some b =>
    let late := decide (b.limit < k.seq.cycles - b.start + 1)
    (k.onCtx (fun x => if late then { x with sw := { x.sw with bovr := true } } else x)).onSeq (fun q => { q with blk := none })
/-- The block overrun that EndBlock logs. -/
def Core.overruns (k : Core) : Bool := match k.seq.blk with | none => false | some b => decide (b.limit < k.seq.cycles - b.start + 1)
def execBlock (f : SF) (s : State) : Host.Outcome State Fault Refusal :=
  commitState s (fun s =>
    let c := s.unit.core
    let count := f.blockCount.toNat
    if kindOf c = .house then s.onCore c (·.fault s.unit causeOp)
    else
      let s := if (s.core c).overruns then s.logKind 2 else s
      s.onCore c (fun k =>
        let mask := (List.range 16).filter (fun j => f.imm.getLsbD j)
        if mask.any (fun j => k.ctx.sem.get 0 j = 0) then k
        else
          let was := k.seq.blk.isSome
          let k := k.onCtx (fun x => mask.foldl (fun x j => { x with sem := x.sem.set 0 j (x.sem.get 0 j - 1) }) x)
          let k := k.endBlock
          if count = 0 then (if was then k.first s.unit .clearLatch else k)
          else (k.first s.unit .clearLatch).onSeq (fun q => { q with blk := some ⟨q.cycles, count⟩ })))

/-! ### Memory answers -/

def Place.overlaps (a : Place) (n : Nat) (b : Place) (m : Nat) : Bool := a.key < b.key + m && b.key < a.key + n
def Place.ordered (a b : Place) : Bool := 2 ≤ a.order && 2 ≤ b.order
/-- Two accesses to one SC page, which are performed in program order (11 R326). -/
def Place.sameSc (a b : Place) : Bool := a.order = 3 && b.order = 3 && a.die = b.die && a.page = b.page
/-- A load may be performed: after the earlier accesses to its bytes, and in the order of its page (R162, 11 R322, R325,
R326). An earlier store of other bytes does not hold an LD back, unless both go to one SC page; its own bytes are forwarded. -/
def Seqr.loadOk (q : Seqr) (l : Load) : Bool :=
  q.loads.all (fun x => !(x.issue < l.issue) || !(x.place.overlaps x.size l.place l.size || x.place.ordered l.place)) &&
  q.stores.all (fun x => !(x.issue < l.issue) || !x.place.sameSc l.place) &&
  (l.atom.isNone || q.stores.all (fun x => !(x.issue < l.issue) ||
    !(x.place.overlaps x.bytes.length l.place l.size || x.place.ordered l.place)))
/-- A store may be performed. -/
def Seqr.storeOk (q : Seqr) (x : Store) : Bool :=
  q.stores.all (fun y => !(y.issue < x.issue) ||
    !(y.place.overlaps y.bytes.length x.place x.bytes.length || y.place.ordered x.place)) &&
  q.loads.all (fun l => !(l.issue < x.issue) ||
    !(l.place.overlaps l.size x.place x.bytes.length || l.place.sameSc x.place || (l.atom.isSome && l.place.ordered x.place)))

/-- The bytes an LD reads: memory, with the core's own earlier stores not yet performed (11 R322), save those that will have no
effect (10 R315, 14 R382, R383). -/
def Seqr.forward (q : Seqr) (m : Mem) (l : Load) (bytes : List Byte) : List Byte :=
  bytes.zipIdx.map (fun b =>
    let a := l.place.key + b.2
    if m.inert a then b.1 else q.stores.foldl (fun v x =>
      if x.issue < l.issue && x.place.key ≤ a && a < x.place.key + x.bytes.length then x.bytes.getD (a - x.place.key) v else v) b.1)

/-- The new memory value of an indivisible operation, of `n` bytes (R160). -/
def atomValue (aop n m b e : Nat) : Nat :=
  let w := 8 * n
  let sm := sextNat w m
  let sb := sextNat w b
  let b := b % 2 ^ w
  match aop with
  | 0 => (m + b) % 2 ^ w
  | 1 => if sb < sm then b else m
  | 2 => if sm < sb then b else m
  | 3 => min m b
  | 4 => max m b
  | 5 => m &&& b
  | 6 => m ||| b
  | 7 => m ^^^ b
  | 8 => b
  | _ => if m = e % 2 ^ w then b else m

/-- A signal of a completion; an overflow ends the context, reported against the slot given (R161, 01 R33). -/
def State.signal (s : State) (c : Nat) (sem : Option Nat) (slot addr : Nat) : State :=
  match sem with
  | none => s
  | some j => match s.semAdd c j 1 with
    | some s => s
    | none => s.onCore c (fun k => (k.fatal ⟨causeSem, slot, 0, addr⟩).noteFatal s.gtick)

/-- The value of a load lands in its register, unless a later-issued write has landed there, and in its latch (R161). -/
def Core.landLoad (k : Core) (l : Load) (v : Word) : Core :=
  let late := match l.dst with | some r => decide (l.issue < k.seq.regIssue.get 0 r) | none => true
  let k := if late then k else
    match l.dst with
    | some r => (k.onCtx (·.setReg r v)).onSeq (·.wrote r l.issue)
    | none => k
  k.onCtx (fun x => { x with latchS := x.latchS.set 0 l.latch v })

/-- LOAD_LAND: the `i`-th outstanding LD or ATOM of a core is performed and lands (R159 to R161). -/
def execLoadLand (c i : Nat) (s : State) : Host.Outcome State Fault Refusal :=
  let k := s.core c
  match k.seq.loads[i]? with
  | none => .next s
  | some l =>
    if !k.seq.loadOk l then .next s
    else
      let s := s.onSeq c (fun q => { q with loads := q.loads.eraseIdx i })
      let r := s.readHbm 1 k.ctx.ctxid l.place.key l.size
      let s := if r.2.2.2 then r.1.onCtx c (fun x => { x with sw := { x.sw with disc := true } }) else r.1
      if r.2.2.1 then .next (s.onCore c (fun k => (k.fatal ⟨causeEcc, 0, 0, l.bundle⟩).noteFatal s.gtick))
      else
        let job := (s.jobOf c).getD fwJob
        match l.atom with
        | none =>
          let v := ofLe (k.seq.forward s.mem l r.2.1)
          .next ((s.onCore c (·.landLoad l (extendLoad l.sx l.size v))).signal c l.sem 0 l.bundle)
        | some (aop, b, e) =>
          let m := ofLe r.2.1
          let w := s.writeHbm job k.ctx.ctxid l.place.key (leBytes l.size (atomValue aop l.size m b e))
          .next ((w.1.onCore c (·.landLoad l (BitVec.ofNat 64 m))).signal c l.sem 0 l.bundle)

/-- STORE_PERFORMED: the `i`-th outstanding ST of a core is performed at module scope (R159, R161; 10 R317). -/
def execStorePerformed (c i : Nat) (s : State) : Host.Outcome State Fault Refusal :=
  let k := s.core c
  match k.seq.stores[i]? with
  | none => .next s
  | some x =>
    if !k.seq.storeOk x then .next s
    else
      let s := s.onSeq c (fun q => { q with stores := q.stores.eraseIdx i })
      let w := s.writeHbm ((s.jobOf c).getD fwJob) k.ctx.ctxid x.place.key x.bytes
      if w.2 then .next (w.1.onCore c (fun k => (k.fatal ⟨causeEcc, 0, 0, x.bundle⟩).noteFatal s.gtick))
      else .next (w.1.signal c x.sem 0 x.bundle)

/-- The youngest spilled entry comes back to the on-chip store (04 R139). -/
def State.refill (s : State) (c : Nat) : State :=
  let k := (s.core c).ctx
  if 16 ≤ k.ras.length || k.depth ≤ k.ras.length then s
  else
    let put := fun (s : State) (v : Nat) => s.onCtx c (fun x => { x with ras := x.ras ++ [v % 2 ^ 57] })
    match k.rasPlace c (k.depth - k.ras.length - 1) with
    | (true, a) =>
      let e := s.sram c 1 (spadPool c k + a) 8
      if e.2 then e.1.onCore c (fun k => (k.fatal ⟨causeEcc, 0, 0, k.seq.pc⟩).noteFatal s.gtick)
      else put e.1 (k.ld64 a).toNat
    | (false, va) =>
      match s.access ((s.jobOf c).getD fwJob) (coreReq c) va 8 false with
      | (s, .wait) => s
      | (s, .ok p) =>
        let r := s.readHbm 1 k.ctxid p.key 8
        let s := if r.2.2.2 then r.1.onCtx c (fun x => { x with sw := { x.sw with disc := true } }) else r.1
        if r.2.2.1 then s.onCore c (fun k => (k.fatal ⟨causeEcc, 0, 0, k.seq.pc⟩).noteFatal s.gtick)
        else put s (ofLe r.2.1)
      | (s, a) => s.onCore c (fun k => (k.fatal ⟨accCause a, 0, 0, k.seq.pc⟩).noteFatal s.gtick)
/-- Up to `n` such entries. -/
def State.refills (s : State) (c : Nat) : Nat → State
  | 0 => s
  | n + 1 => (s.refill c).refills c n
/-- The on-chip store holds its youngest min(DEPTH, 16) entries (04 R138). -/
def Ctx.rasFull (k : Ctx) : Bool := decide (min 16 k.depth ≤ k.ras.length)
/-- RAS_REFILL. -/
def execRasRefill (c : Nat) (s : State) : Host.Outcome State Fault Refusal := .next (s.refill c)

end Sys2Proof.Machine
end

