-- ==== Sys2Proof/Machine/Units.lean ====
section
/-! DEFINITION. What the shared units have in common: job memory reached by virtual address (08_coprocessor_instructions.md
R250, 10_memory_translation.md R305 to R317), the issue of a COP command, its reply (R248, R249; 03 R109), and the event
by which a reply lands, COP_REPLY_LAND. -/
namespace Sys2Proof.Machine

/-! ### Job memory -/

/-- What a read by virtual address gives: the bytes, an uncorrectable block, no page to use, or a service to wait for. -/
inductive JRead where
  | ok (l : List Byte)
  | bad
  | none_
  | wait
  deriving DecidableEq, Repr

/-- A context has read a discarded frame (10 R315). -/
def State.markDisc (s : State) (c : Option Nat) : State :=
  match c with
  | some c => s.onCtx c (fun x => { x with sw := { x.sw with disc := true } })
  | none => s
/-- Read `n` bytes of a job from a virtual address, frame by frame, for the context of core `by_` if for any. -/
def State.jobRead (s : State) (job : Nat) (rq : Req) (reader : Nat) (by_ : Option Nat) (ctxid : Word) (va n : Nat) : Nat → State × JRead
  | 0 => (s, .ok [])
  | f + 1 =>
    if n = 0 then (s, .ok [])
    else
      let m := min n (65536 - va % 65536)
      match s.access job rq va m false with
      | (s, .wait) => (s, .wait)
      | (s, .ok p) =>
        let r := s.readHbm reader ctxid p.key m
        let s := if r.2.2.2 then r.1.markDisc by_ else r.1
        if r.2.2.1 then (s, .bad)
        else if m = n then (s, .ok r.2.1)
        else match s.jobRead job rq reader by_ ctxid (va + m) (n - m) f with
          | (s, .ok l) => (s, .ok (r.2.1 ++ l))
          | x => x
      | (s, _) => (s, .none_)

/-- The outcome of a write by virtual address: done; some part dropped on a poisoned block; some part had no page to use, or
none it may write; a service to wait for. -/
inductive JWrite where
  | ok
  | bad
  | none_
  | wait
  deriving DecidableEq, Repr

/-- All of a span has pages, writable where `wr` (R257, R398): ok, none_ or wait. -/
def State.jobCheck (s : State) (job : Nat) (rq : Req) (wr : Bool) (va n : Nat) : Nat → State × JWrite
  | 0 => (s, .ok)
  | f + 1 =>
    if n = 0 then (s, .ok)
    else
      let m := min n (65536 - va % 65536)
      match s.access job rq va m wr with
      | (s, .wait) => (s, .wait)
      | (s, .ok _) => s.jobCheck job rq wr (va + m) (n - m) f
      | (s, _) => (s, .none_)

/-- No page of a span is waited for: each has been served, or cannot be (14 R398). -/
def State.jobSettled (s : State) (job : Nat) (rq : Req) (wr : Bool) (va n : Nat) : Nat → State × Bool
  | 0 => (s, true)
  | f + 1 =>
    if n = 0 then (s, true)
    else
      let m := min n (65536 - va % 65536)
      let r := s.access job rq va m wr
      let t := r.1.jobSettled job rq wr (va + m) (n - m) f
      (t.1, r.2 != .wait && t.2)
/-- The leaf that maps a page, as the die's cache or the walk in hand shows it: mapped, whether resident or not (10 R303). -/
def State.leafNow (s : State) (job die va : Nat) (r : Tr) : Option Word :=
  match s.mem.lookup die job va with
  | some t => t.leaf
  | none => match r with
    | .nomap => none
    | .ok _ e => some e
    | .absent _ _ e => some e
    | .marked => match s.job job with
      | some j => (match j.walk s.mem va with | .leaf _ _ e => some e | _ => none)
      | none => none
/-- A page of the job holds `n` bytes at an address: mapped, and with `wr` writable (10 R303). No service starts. -/
def State.pageMapped (s : State) (job die va n : Nat) (wr : Bool) : State × Bool :=
  let r := if (s.mem.lookup die job va).isSome then (s, .nomap) else s.translate job va
  (r.1, match r.1.leafNow job die va r.2 with
    | some e => !wr || (pteWr e && !(match s.job job with | some j => j.codeMeets va n | none => false))
    | none => false)
/-- All of a span is mapped, and with `wr` writable. -/
def State.jobMapped (s : State) (job die va n : Nat) (wr : Bool) : Nat → State × Bool
  | 0 => (s, true)
  | f + 1 =>
    if n = 0 then (s, true)
    else
      let m := min n (65536 - va % 65536)
      let r := s.pageMapped job die (va % 2 ^ 57) m wr
      if r.2 then r.1.jobMapped job die (va + m) (n - m) wr f else (r.1, false)

/-- Write bytes of a job from a virtual address; the parts that have pages are written, the others dropped. `wr` is false
where the page's WR bit does not count (12 R345). -/
def State.jobWrite (s : State) (job : Nat) (rq : Req) (ctxid : Word) (wr : Bool) (va : Nat) (l : List Byte) : Nat → State × JWrite
  | 0 => (s, .ok)
  | f + 1 =>
    if l.isEmpty then (s, .ok)
    else
      let m := min l.length (65536 - va % 65536)
      let rest := fun (s : State) (x : JWrite) =>
        let r := s.jobWrite job rq ctxid wr (va + m) (l.drop m) f
        (r.1, if r.2 = .wait || x = .wait then .wait else if r.2 = .none_ || x = .none_ then .none_
          else if r.2 = .bad || x = .bad then .bad else .ok)
      match s.access job rq va m wr with
      | (s, .wait) => rest s .wait
      | (s, .ok p) =>
        let r := s.writeHbm job ctxid p.key (l.take m)
        rest r.1 (if r.2 then .bad else .ok)
      | (s, _) => rest s .none_

/-- Frames that a span may touch, as fuel. -/
def spanFuel (n : Nat) : Nat := n / 65536 + 2

/-! ### The scheduler's own writes (12 R345, R357) -/

def State.schedWrite (s : State) (w : SchedWrite) : State × JWrite :=
  s.jobWrite w.job (schedReq w.num) 0 (!w.table) w.va w.bytes (spanFuel w.bytes.length)
/-- The writes that wait, oldest first, tried again. A write-back that finds no page, or an uncorrectable block, is dropped and
reported (12 R345). -/
def State.schedGo (s : State) : State :=
  s.sched.writes.foldl (fun s w =>
    let r := s.schedWrite w
    if r.2 = .wait then r.1
    else
      let s := r.1.onSched (fun d => { d with writes := d.writes.filter (fun x => x.num != w.num) })
      if w.table && (r.2 = .none_ || r.2 = .bad) then s.ptError w.job w.va else s) s
/-- The scheduler writes to a job's memory, after what it has still to write. -/
def State.schedPut (s : State) (job va : Nat) (l : List Byte) (table : Bool) : State :=
  (s.onSched (fun d => { d with writes := d.writes ++ [⟨d.writeNext, job, va, l, table⟩], writeNext := d.writeNext + 1 })).schedGo

/-! ### Replies (R249) -/

def copErr (reason : Nat) : Word := BitVec.ofNat 64 (2 ^ 63 + reason)
def errRsvd : Nat := 0x01
def errOwner : Nat := 0x02
def errState : Nat := 0x03
def errRange : Nat := 0x04
def errDup : Nat := 0x05
def errSpill : Nat := 0x06
def errReject : Nat := 0x07
def errStack : Nat := 0x08
def errTable : Nat := 0x09
def errDuty : Nat := 0x0A
def errGroup : Nat := 0x0B
def errTile : Nat := 0x0C
def errStopped : Nat := 0x0D

/-- The unit answers: the reply waits to land, and a command without a reply register is finished (R248). A full spill
region ends such a command's context at once (14 R390). -/
def State.answer (s : State) (d : UnitCmd) (v : Word) (rows : List Row := []) (tile row0 : Nat := 0)
    (pred : Option (Nat × Bool) := none) : State :=
  match (s.core d.core).seq.cops.find? (fun x => x.id = d.id) with
  | none => s
  | some x =>
    if x.dst = 0 && rows.isEmpty && pred.isNone then
      let s := s.onSeq d.core (fun q => { q with cops := q.cops.filter (fun y => y.id != d.id) })
      if v = copErr errSpill then s.deliver d.core causeSpill 0 else s
    else s.onSeq d.core (fun q => { q with cops := q.cops.map (fun y =>
      if y.id = d.id then { y with answer := some v, rows := rows, tile := tile, row0 := row0, pred := pred } else y) })
def State.refuse (s : State) (d : UnitCmd) (reason : Nat) : State := s.answer d (copErr reason)

/-! ### Issue (R109, R246, R248) -/

/-- Issue a COP command: an illegal operation on a core type that does not have it; else it counts as outstanding, and its
unit takes it (R247). -/
def State.copIssue (s : State) (f : CF) (allowed : CoreKind → Bool) (op : Instr) (data : List Byte)
    (unit : State → UnitCmd → State) : State :=
  let c := s.unit.core
  let k := s.core c
  if !allowed (kindOf c) then s.onCore c (·.fault s.unit causeOp)
  else
    let d : UnitCmd :=
      { core := c, id := k.seq.copNext, job := k.job.getD fwJob, op := op, a := k.ctx.src f.sa, b := k.ctx.src f.sb,
        data := data, banks := k.ctx.bank, rows := k.ctx.rows }
    unit (s.onSeq c (fun q =>
      { q with copNext := q.copNext + 1,
               cops := q.cops ++ [⟨q.copNext, f.dst.toNat, s.unit.sLatch, none, [], 0, 0, none, writeKey q.issue s.unit.unit⟩] })) d
/-- Commit a COP: what the unit does to the core afterwards is no cause of the commit unit's own. -/
def commitCop (s : State) (f : State → State) : Host.Outcome State Fault Refusal :=
  let k := s.core s.unit.core
  .next (if k.seq.fatal.isSome || k.seq.trap.isSome then s else f s)
def anyKind (_ : CoreKind) : Bool := true
def notLookup (k : CoreKind) : Bool := k != .lookup
def mainOnly (k : CoreKind) : Bool := k = .main
def houseOnly (k : CoreKind) : Bool := k = .house

/-! ### Landing (R109) -/

/-- A reply that has arrived lands: its tile rows and predicate, its register and its latch; a VTENQ refused for a full
spill region then ends its context (14 R390). -/
def Core.landCop (k : Core) (x : Cop) (v : Word) : Core :=
  let k := k.onCtx (fun y => (x.rows.zipIdx x.row0).foldl (fun y r => y.setTileRow x.tile r.2 r.1) y)
  let k := match x.pred with | some (p, b) => k.onCtx (·.setPred p b) | none => k
  let k := if x.dst = 0 then k
    else (k.onCtx (fun y => { y.setReg x.dst v with latchS := y.latchS.set 0 x.latch v })).onSeq (·.wrote x.dst x.key)
  k.onSeq (fun q => { q with cops := q.cops.filter (fun y => y.id != x.id) })
def State.landReply (s : State) (c i : Nat) : State :=
  match (s.core c).seq.cops[i]? with
  | none => s
  | some x => match x.answer with
    | none => s
    | some v =>
      let s := s.onCore c (·.landCop x v)
      if v = copErr errSpill then s.deliver c causeSpill 0 else s

/-! ### Ready sequence and stamps (12 R349, R363; 09 R518) -/

/-- The next value of the module's ready sequence. -/
def State.takeSeq (s : State) : State × Nat := (s.onSched (fun d => { d with readySeq := d.readySeq + 1 }), s.sched.readySeq)
/-- A stamp that arose outside any context, or at a node (09 R518). -/
def State.mkStamp (s : State) (cause detail tcb : Nat) (ctxid : Word := 0) : Stamp := ⟨cause, 6, detail, tcb, 0, s.gtick, ctxid⟩
/-- A stamp reaches the scheduler: the job is frozen until it has spread (12 R363). -/
def State.postStamp (s : State) (job : Nat) (x : Stamp) (node : Option Nat) : State :=
  s.onJob job (fun j => { j with stamps := j.stamps ++ [(x, node)], frozen := true })
/-- A cause for the context that did something earlier: to it, if the core still holds it; else, where `late`, to the node
of the task it held then, or to none (17 R443, R449; 09 R518). -/
def State.deliverTo (s : State) (c : Nat) (cgen : BitVec 8) (job tcb cause detail : Nat) (late : Bool) : State :=
  let k := s.core c
  let node := if tcb = 0 then none else some (tcb - 1)
  if k.job = some job && k.cgen = cgen && k.seq.phase != .off then
    (s.onSeq c (fun q => { q with other := if q.fatal.isSome then q.other else node })).deliver c cause detail
  else if late && (s.job job).isSome then s.postStamp job (s.mkStamp cause detail (tcb - 1)) node
  else s

end Sys2Proof.Machine
end

