-- ==== Sys2Proof/Machine/Windows.lean ====
section
/-! DEFINITION. Reduction windows (17_fabric_watermarks.md R446 to R449): FWIN, FWSTAT and FWCLOSE
(08_coprocessor_instructions.md R271 to R273), the folding of contributions, and what poisons a window. -/
namespace Sys2Proof.Machine

def State.windowAt (s : State) (n : Nat) : Window := s.fab.windows.get Window.empty n
def State.setWindow (s : State) (n : Nat) (w : Window) : State :=
  s.onFab (fun f => { f with windows := f.windows.set Window.empty n w })

/-! ### Operators (R272, R448) -/

/-- The mould matches the operator code (R272). -/
def opMatches (op : Nat) (m : Mould) : Bool :=
  match op with
  | 0 => m.family = 0 || m.family = 2
  | 1 => m.family = 1
  | 2 => m.family = 3 && m.aty != .i32
  | 3 => m.family = 3 && m.aty = .i32
  | 4 => (m.family = 4 && m.aty != .i32) || m.family = 5
  | 5 => m.family = 4 && m.aty = .i32
  | 6 => m.family = 6
  | 7 => m.family = 6
  | _ => false
/-- One element folded into another (R448). -/
def foldWord (op : Nat) (a b : BitVec 32) : BitVec 32 :=
  match op with
  | 0 => BitVec.ofNat 32 (f32Rne ((f32Val a.toNat).add .rne (f32Val b.toNat)).1).1
  | 1 => a + b
  | 2 => BitVec.ofNat 32 (f32Rne ((f32Val a.toNat).maxMin false (f32Val b.toNat))).1
  | 3 => if b.slt a then b else a
  | 4 => BitVec.ofNat 32 (f32Rne ((f32Val a.toNat).maxMin true (f32Val b.toNat))).1
  | 5 => if a.slt b then b else a
  | 6 => a ||| b
  | _ => a &&& b
/-- An element taken: the first one as it stands, a later one folded. -/
def Window.take (w : Window) (i : Nat) (v : BitVec 32) : Window :=
  let n := w.rank.get 0 i
  { w with acc := w.acc.set 0 i (if n = 0 then v else foldWord w.op (w.acc.get 0 i) v), rank := w.rank.set 0 i (n + 1) }
/-- The staged element of word `i` and a rank. -/
def Window.stagedAt (w : Window) (i r : Nat) : Option (Nat × Nat × List Byte) :=
  w.staged.find? (fun x => x.1 = r && x.2.1 = 4 * i)
/-- Staged elements follow in ascending rank. -/
def Window.unstage (w : Window) (i : Nat) : Nat → Window
  | 0 => w
  | n + 1 =>
    match w.stagedAt i (w.rank.get 0 i) with
    | none => w
    | some x =>
      let w := { w with staged := w.staged.erase x }
      (w.take i (BitVec.ofNat 32 (ofLe x.2.2))).unstage i n
/-- One element of a contribution: the ordered operators stage what is not next. -/
def Window.element (w : Window) (r i : Nat) (l : List Byte) : Window :=
  if 2 ≤ w.op || w.rank.get 0 i = r then (w.take i (BitVec.ofNat 32 (ofLe l))).unstage i w.staged.length
  else { w with staged := w.staged ++ [(r, 4 * i, l)] }
/-- The elements of a contribution from word `i` on; `n` of them. -/
def Window.elements (w : Window) (r i : Nat) (l : List Byte) : Nat → Window
  | 0 => w
  | n + 1 => (w.element r i (l.take 4)).elements r (i + 1) (l.drop 4) n
/-- A contribution is folded, element by element. -/
def Window.contribute (w : Window) (r off : Nat) (l : List Byte) : Window :=
  let w := { w with bytes := w.bytes.set 0 r (w.bytes.get 0 r + l.length) }
  w.elements r (off / 4) l (l.length / 4)
/-- The ranks that are complete, and a window that is (R446). -/
def Window.arrived (w : Window) : Nat := (w.bytes.filter (fun e => e.2 = w.len)).length
def Window.full (w : Window) : Bool := w.arrived = w.count
def Window.result_ (w : Window) : List Byte := wordsBytes ((List.range (w.len / 4)).map (w.acc.get 0))

/-! ### Poisoning and completion (R447 to R449) -/

/-- A window is poisoned: its staging is freed and its opener receives cause 0x12 (R449). -/
def State.poisonWindow (s : State) (n : Nat) : State :=
  let w := s.windowAt n
  if w.state != 1 then s
  else (s.setWindow n { w with state := 3, staged := [] }).deliverTo w.core w.cgen w.job w.tcb causeWindow 0 false
/-- Every open window of a job is poisoned (R449, R451). -/
def State.poisonJob (s : State) (job : Nat) : State :=
  (s.fab.windows.filter (fun e => e.2.state = 1 && e.2.job = job)).foldl (fun s e => s.poisonWindow e.1) s
/-- The pending slots that pass a test become void (R445, R451). -/
def State.voidSlots (s : State) (p : Origin → Bool) : State :=
  (s.fab.origins.filter (fun e => e.2.state = 1 && p e.2)).foldl (fun s e => s.settleSlot e.1 false) s

/-- A window that has completed writes its result, signals, and is complete; false while the result's page is being
served. A result without a page it may write poisons the window (log 12). -/
def State.completeWindow (s : State) (n : Nat) : State × Bool :=
  let w := s.windowAt n
  match s.jobCheck w.job (windowReq n) true w.result w.len (spanFuel w.len) with
  | (s, .wait) => (s, false)
  | (s, .ok) =>
    let r := s.jobWrite w.job (windowReq n) 0 true w.result w.result_ (spanFuel w.len)
    if r.2 = .bad then (r.1.poisonWindow n, true)
    else
      let s := r.1.setWindow n { w with state := 2, staged := [] }
      match w.sem with
      | none => (s, true)
      | some k =>
        if s.jobOf w.core != some w.job || (s.core w.core).cgen != w.cgen then (s, true)
        else if !s.semOk w.core k then (s.deliver w.core causeHandle 0, true)
        else match s.semAdd w.core k 1 with
          | some s => (s, true)
          | none => (s.deliver w.core causeSem 0, true)
  | (s, _) => (s.poisonWindow n, true)

/-! ### The functions (08 R271, R273) -/

/-- The fields of a descriptor (R271). -/
structure WinDesc where
  result : Nat
  win : Nat
  count : Nat
  len : Nat
  op : Nat
  sem : Option Nat
  timeout : Nat
  zero : Bool
  deriving DecidableEq, Repr
def WinDesc.of (l : List Byte) : WinDesc :=
  let sg := num l 17 1
  { result := num l 0 8 % 2 ^ 57, win := num l 8 2 % 4096, count := num l 10 2, len := num l 12 4, op := num l 16 1,
    sem := if 128 ≤ sg then some (sg % 32) else none, timeout := num l 20 4,
    zero := num l 0 8 < 2 ^ 57 && num l 8 2 < 4096 && num l 10 2 < 8192 && num l 12 4 < 2 ^ 25 && sg / 32 % 4 = 0 &&
      num l 18 2 = 0 && num l 24 8 = 0 }
/-- FWIN at the fabric's logic (R271). -/
def State.fwin (s : State) (d : UnitCmd) : State × Bool :=
  let x := WinDesc.of d.data
  if !x.zero then (s.refuse d errRsvd, true)
  else if x.len < 4 || 2 ^ 24 < x.len || x.len % 4 != 0 || x.count = 0 || 4096 < x.count || x.timeout = 0 then (s.refuse d errRange, true)
  else if (s.windowAt x.win).state != 0 then (s.refuse d errDup, true)
  else match s.jobMapped d.job winCmdReq.die x.result x.len true (spanFuel x.len) with
    | (s, false) => (s.refuse d errTable, true)
    | (s, true) =>
      let w : Window :=
        { Window.empty with state := 1, job := d.job, core := d.core, cgen := (s.core d.core).cgen, tcb := (s.core d.core).tcbHeld,
                            result := x.result, count := x.count, len := x.len, op := x.op, sem := x.sem, openTick := s.gtick,
                            timeout := 1000 * x.timeout }
      ((s.setWindow x.win w).answer d 0, true)
def State.fwstat (s : State) (d : UnitCmd) : State :=
  let w := s.windowAt (d.a.extractLsb' 0 12).toNat
  if d.a.extractLsb' 12 52 != 0 then s.refuse d errRsvd
  else if w.state = 0 then s.answer d 0
  else if w.job != d.job then s.refuse d errOwner
  else s.answer d (BitVec.ofNat 64 (w.state * 2 ^ 61 + w.arrived))
def State.fwclose (s : State) (d : UnitCmd) : State :=
  let n := (d.a.extractLsb' 0 12).toNat
  let w := s.windowAt n
  if d.a.extractLsb' 12 52 != 0 then s.refuse d errRsvd
  else if w.state = 0 then s.refuse d errState
  else if w.job != d.job then s.refuse d errOwner
  else ((s.poisonWindow n).setWindow n Window.empty).answer d (BitVec.ofNat 64 w.state)

/-- The logic tries a command; false says that it waits. -/
def State.winTry (s : State) (d : UnitCmd) : State × Bool :=
  match d.op with
  | .fwin _ => s.fwin d
  | .fwstat _ => (s.fwstat d, true)
  | .fwclose _ => (s.fwclose d, true)
  | _ => (s, true)
/-- The logic goes on with the commands that wait, in their order of arrival, while they can be applied (08 R247, 13 R378). -/
def State.winGo (s : State) : Nat → State
  | 0 => s
  | n + 1 =>
    match s.fab.waiting with
    | [] => s
    | d :: rest =>
      match s.winTry d with
      | (s, true) => (s.onFab (fun f => { f with waiting := rest })).winGo n
      | (s, false) => s
/-- A command arrives at the logic. -/
def State.winCmd (s : State) (d : UnitCmd) : State :=
  let s := s.onFab (fun f => { f with waiting := f.waiting ++ [d] })
  s.winGo s.fab.waiting.length

/-- FWIN's faults arise at its issue (R271). -/
def execFwin (f : CF) (s : State) : Host.Outcome State Fault Refusal :=
  commitCop s (fun s =>
    let c := s.unit.core
    let k := s.core c
    let a := (k.ctx.src f.sa).toNat
    if !mainOnly (kindOf c) then s.onCore c (·.fault s.unit causeOp)
    else if spadSize c k.ctx < a + 32 then s.onCore c (·.fault s.unit causeRange)
    else if a % 32 != 0 then s.onCore c (·.fault s.unit causeAlign)
    else
      let e := s.sram c 1 (spadPool c k.ctx + a) 32
      let l := k.spadNow.ld a 32
      let ok := match k.ctx.mouldAt (f.fields.extractLsb' 0 2).toNat with
        | some v => (match Mould.ofImage (leBytes 512 v.toNat) with | some m => opMatches (num l 16 1) m | none => false)
        | none => false
      if e.2 then e.1.onCore c (·.fault s.unit causeEcc)
      else if !ok then e.1.onCore c (·.fault s.unit causeOp)
      else e.1.copIssue f mainOnly (.fwin f) l (·.winCmd ·))
def execFwstat (f : CF) (s : State) : Host.Outcome State Fault Refusal :=
  commitCop s (fun s => s.copIssue f notLookup (.fwstat f) [] (·.winCmd ·))
def execFwclose (f : CF) (s : State) : Host.Outcome State Fault Refusal :=
  commitCop s (fun s => s.copIssue f notLookup (.fwclose f) [] (·.winCmd ·))

end Sys2Proof.Machine
end

