-- ==== Sys2Proof/Machine/FabricOps.lean ====
section
/-! DEFINITION. The fabric instructions (05_memory_sync_fabric_instructions.md R179 to R184): FST, FATOM, FRED, WMWAIT and
WMTEST, and what the fabric interface does with what they hand over: FABRIC_PAYLOAD_READ, FRED_LAUNCH_TICK and
WMWAIT_EXPIRY. -/
namespace Sys2Proof.Machine

/-! ### Descriptors (R180) -/

def descAddr (d : List Byte) : Nat := num d 0 8 % 2 ^ 57
def descDest (d : List Byte) : Nat := num d 8 2 % 4096
def descLen (d : List Byte) : Nat := num d 12 2 % 8192
def descSrc (d : List Byte) : Nat := num d 16 4
/-- A launch tick that is not 0 (R180). -/
def descTick (d : List Byte) : Nat := num d 0 8
/-- No reserved field is set, and the length is in its range (R180). -/
def descOk (ty aop : Nat) (d : List Byte) : Bool :=
  num d 8 2 < 4096 &&
  match ty with
  | 0 => num d 0 8 < 2 ^ 57 && num d 10 2 = 0 && 1 ≤ num d 12 4 && num d 12 4 ≤ 4096 && num d 20 4 = 0 && num d 24 8 = 0
  | 1 => num d 0 8 < 2 ^ 57 && num d 10 2 = 0 && num d 12 4 = 0 && (aop = 9 || num d 24 8 = 0)
  | _ => num d 10 2 < 4096 && 1 ≤ num d 12 4 && num d 12 4 ≤ 4096 && num d 24 8 < 65536
/-- The bytes an FATOM writes. -/
def fatomSize (f : SF) : Nat := if f.imm.getLsbD 13 then 8 else 4
/-- The cause of a fault that a fabric instruction finds at its issue (05 R156, R179, R180; 01 R33). Of several that hold at once, the
specification ranks none: the order here is a choice of the model (log 42). -/
def State.fabCause (s : State) (c ty : Nat) (f : SF) : Option Nat :=
  let k := s.core c
  let a := (k.ctx.src f.sa).toNat
  let d := k.spadNow.ld a 32
  if kindOf c = .house then some causeOp
  else if spadSize c k.ctx < a + 32 then some causeRange
  else if a % 32 != 0 then some causeAlign
  else if !descOk ty (f.imm.extractLsb' 9 4).toNat d then some causeOp
  else if ty != 1 && spadSize c k.ctx < descSrc d + descLen d then some causeRange
  else if ty = 1 && descAddr d % fatomSize f != 0 then some causeAlign
  else if f.imm.getLsbD 3 && !s.semOk c (f.imm.extractLsb' 4 5).toNat then some causeHandle
  else none

/-- The virtual channel's stream key of an origin unit and a destination (17 R433). -/
def streamKey (unit ty dest : Nat) : Nat := (256 * (if ty = 2 then 1 else 0) + unit) * 8192 + dest
/-- The number of the next packet of a stream, which is then used up. -/
def State.takeSeqNo (s : State) (key : Nat) : State × Nat :=
  let n := s.fab.seqNext.get 0 key
  (s.onFab (fun f => { f with seqNext := f.seqNext.set 0 key ((n + 1) % 2 ^ 32) }), n)

/-- Issue: the watermark, then the handover to the interface (R181). -/
def State.fabIssue (s : State) (ty : Nat) (f : SF) : State :=
  let c := s.unit.core
  match s.fabCause c ty f with
  | some e => s.onCore c (·.fault s.unit e)
  | none =>
    let k := s.core c
    let a := (k.ctx.src f.sa).toNat
    let e := s.sram c 1 (spadPool c k.ctx + a) 32
    if e.2 then e.1.onCore c (·.fault s.unit causeEcc)
    else
      let d := k.spadNow.ld a 32
      let job := k.job.getD fwJob
      let hand := fun (s : State) (wm : Nat) =>
        let r := s.takeSeqNo (streamKey (coreField c) ty (descDest d))
        let h : Handoff := { core := c, ty := ty, f := f, desc := d, carried := k.ctx.src f.sb, wm := BitVec.ofNat 32 wm, job := job,
                             tcb := k.tcbHeld, cgen := k.cgen, seq := r.2, sent := none }
        r.1.onFab (fun x => { x with iface := x.iface ++ [h] })
      if f.imm.getLsbD 2 then
        match e.1.allocWm c job k.tcbHeld with
        | (s, some wm) => (hand s wm).onCore c (fun k => k.result s.unit f 1 (BitVec.ofNat 64 wm))
        | (s, none) => s
      else hand e.1 0
def execFst (f : SF) (s : State) : Host.Outcome State Fault Refusal := commitState s (·.fabIssue 0 f)
def execFatom (f : SF) (s : State) : Host.Outcome State Fault Refusal := commitState s (·.fabIssue 1 f)
def execFred (f : SF) (s : State) : Host.Outcome State Fault Refusal := commitState s (·.fabIssue 2 f)

/-! ### The interface (R181, 17 R431, R433) -/

/-- The packet of a handover, with its payload (17 R431). -/
def Handoff.packet (h : Handoff) (payload : List Byte) : Packet :=
  let nwm := (h.f.imm.extractLsb' 0 2).toNat
  let hasWm := h.f.imm.getLsbD 2
  let d := h.desc
  { pktZero with
    ty := h.ty, aop := if h.ty = 1 then (h.f.imm.extractLsb' 9 4).toNat else 0, sz64 := h.ty = 1 && h.f.imm.getLsbD 13,
    hasWm := hasWm, nwm := nwm, dest := descDest d, origin := ownModule, unit := coreField h.core, job := h.job,
    addr := if h.ty = 2 then num d 10 2 % 4096 + 2 ^ 16 * num d 24 2 + 2 ^ 32 * num d 20 4 else descAddr d,
    ownWm := if hasWm then h.wm.toNat else 0, c0 := if 1 ≤ nwm then (h.carried.extractLsb' 0 32).toNat else 0,
    c1 := if nwm = 2 then (h.carried.extractLsb' 32 32).toNat else 0, seq := h.seq,
    opb := if h.ty = 1 then num d 16 8 else 0, expd := if h.ty = 1 then num d 24 8 else 0, payload := payload }
/-- Packets of one stream sent and not acknowledged. -/
def Fabric.flying (f : Fabric) (p : Packet) : Nat :=
  (f.unacked.filter (fun u => u.pkt.unit = p.unit && u.pkt.dest = p.dest && Packet.vc u.pkt.ty = Packet.vc p.ty)).length
/-- The payload bytes that the retransmit region keeps, and its size (17 R433, R438). -/
def Fabric.kept (f : Fabric) : Nat := (f.unacked.map (fun u => u.pkt.payload.length)).sum
def keptBytes : Nat := 2 ^ 25
/-- The stream may take another packet: at most 64 are unacknowledged (17 R433), and the retransmit region has room for its payload
(17 R438). -/
def Fabric.window (f : Fabric) (p : Packet) : Bool :=
  decide (f.flying p < 64) && decide (f.kept + p.payload.length ≤ keptBytes)
/-- A stream is in use: abandon notices of its numbers go on (R519). -/
def Fabric.touch (f : Fabric) (p : Packet) (tick : Nat) : Fabric :=
  { f with abandons := f.abandons.map (fun a =>
      if a.unit = p.unit && a.pkt.dest = p.dest && a.vc = Packet.vc p.ty then { a with since := tick } else a) }
/-- A packet leaves the origin: it is kept until it is acknowledged, and its task until its outcome is known (17 R433, R439). -/
def State.launchPkt (s : State) (h : Handoff) (p : Packet) : State :=
  let u : Unacked := { pkt := p, core := h.core, cgen := h.cgen, tcb := h.tcb, first := s.gtick, due := s.gtick + 100000,
                       backoff := 2000, ext := 0, ev := none }
  let r : SentRec := { unit := p.unit, dest := p.dest, vc := Packet.vc p.ty, seq := p.seq, core := h.core, cgen := h.cgen,
                       tcb := h.tcb, job := h.job, wm := if p.hasWm then some (BitVec.ofNat 32 p.ownWm) else none }
  (s.onFab (fun f => { f with unacked := f.unacked ++ [u], sent := f.sent ++ [r] }.touch p s.gtick)).sendPkt p
/-- A handover leaves the interface: a FRED with a launch tick that leaves while the module is out of step sets SW.LATE (R181). -/
def State.launchHandoff (s : State) (h : Handoff) (p : Packet) : State :=
  let late := h.ty = 2 && descTick h.desc != 0 && s.outStep && (s.core h.core).cgen = h.cgen && s.jobOf h.core = some h.job
  let s := if late then s.onCtx h.core (fun x => { x with sw := { x.sw with late := true } }) else s
  (s.onFab (fun f => { f with iface := f.iface.erase h })).launchPkt h p
/-- A FRED waits: for its own launch tick, or behind an earlier FRED of its core that waits (R181). -/
def Fabric.fredWaits (f : Fabric) (gtick : Nat) (h : Handoff) : Bool :=
  h.ty = 2 && ((gtick < descTick h.desc && descTick h.desc != 0) ||
    (f.iface.takeWhile (fun x => x != h)).any (fun x => x.core = h.core && x.ty = 2))
/-- FABRIC_PAYLOAD_READ: the interface has read the `k`-th unsent handover of a core: it signals, and sends the packet, or
keeps a FRED for its tick. A payload that cannot be corrected is not sent (log 12). -/
def execFabricPayloadRead (c k : Nat) (s : State) : Host.Outcome State Fault Refusal :=
  match (s.fab.iface.filter (fun h => h.core = c && h.sent.isNone))[k]? with
  | none => .next s
  | some h =>
    let x := (s.core c).ctx
    let n := if h.ty = 1 then 0 else descLen h.desc
    let payload := x.ldRange (descSrc h.desc) n
    let p := h.packet payload
    if !s.fab.fredWaits s.gtick h && !s.fab.window p then .next s
    else
      let e := s.sram c 1 (spadPool c x + descSrc h.desc) n
      if e.2 then
        let s := e.1.onFab (fun f => { f with iface := f.iface.erase h })
        let s := if p.hasWm then s.settleWm p.ownWm false else s
        .next (s.deliverTo c h.cgen h.job h.tcb causeEcc 0 true)
      else
        let s := e.1
        let s := if h.f.imm.getLsbD 3 && s.jobOf c = some h.job && (s.core c).cgen = h.cgen then
            (match s.semAdd c (h.f.imm.extractLsb' 4 5).toNat 1 with
             | some s => s
             | none => s.deliver c causeSem 0)
          else s
        if s.fab.fredWaits s.gtick h then
          .next (s.onFab (fun f => { f with iface := f.iface.map (fun y => if y = h then { h with sent := some p } else y) }))
        else .next (s.launchHandoff h p)
/-- FRED_LAUNCH_TICK: the first FRED that a core keeps leaves, its tick reached (R181). -/
def execFredLaunchTick (c : Nat) (s : State) : Host.Outcome State Fault Refusal :=
  match s.fab.iface.find? (fun h => h.core = c && h.ty = 2) with
  | none => .next s
  | some h => match h.sent with
    | none => .next s
    | some p =>
      if s.gtick < descTick h.desc || !s.fab.window p then .next s
      else .next (s.launchHandoff h p)

/-! ### Watermarks (R183, R184) -/

def wmOf (s : State) (f : SF) : Nat := ((s.core s.unit.core).ctx.src f.sa).toNat % 2 ^ 32
/-- WMWAIT, its wait over (R183). -/
def execWmwait (f : SF) (s : State) : Host.Outcome State Fault Refusal :=
  let known := s.fab.known (wmOf s f) ((s.jobOf s.unit.core).getD fwJob)
  commitCore s (fun k => (k.result s.unit f 1 (if known = some false then 1 else 0)).onSeq (fun q => { q with waitTick := none }))
/-- WMTEST: on a remote watermark not known it sends one query (R184). -/
def execWmtest (f : SF) (s : State) : Host.Outcome State Fault Refusal :=
  let wm := wmOf s f
  let job := (s.jobOf s.unit.core).getD fwJob
  let known := s.fab.known wm job
  let v : Word := match known with | some true => 0 | some false => 2 | none => 1
  commitState s (fun s =>
    let s := if known.isNone && wmModule wm != ownModule then s.sendPkt (ctrlMsg 6 (wmModule wm) job 128 wm 0 0) else s
    s.onCore s.unit.core (fun k => k.result s.unit f 4 v (some ((f.imm.extractLsb' 0 4).toNat, v = 0))))

/-- The watermark that a core waits for in WMWAIT, if it does. -/
def State.wmWaits (s : State) (c : Nat) : Option Nat :=
  let k := s.core c
  if k.seq.phase != .run then none
  else match (s.examine c).2 with
    | .wait (.unit u) p _ =>
      match p.units.find? (fun x => x.1.unit = u) with
      | some (_, .wmwait f) => some ((k.ctx.src f.sa).toNat % 2 ^ 32)
      | _ => none
    | _ => none
/-- WMWAIT_EXPIRY: the first core whose WMWAIT has waited the job's window receives cause 0x0E with detail 5 (R183). -/
def execWmwaitExpiry (s : State) : Host.Outcome State Fault Refusal :=
  let past := fun (c : Nat) (k : Core) =>
    (match k.seq.waitTick with | some t => decide (t + s.fab.expiry (k.job.getD fwJob) ≤ s.gtick) | none => false) &&
      (s.wmWaits c).isSome && k.seq.fatal.isNone
  match s.cores.find? (fun e => past e.1 e.2) with
  | none => .next s
  | some e => .next ((s.deliver e.1 causeExpiry 5).onSeq e.1 (fun q => { q with waitTick := none }))

end Sys2Proof.Machine
end

