-- ==== Sys2Proof/Machine/Fabric.lean ====
section
/-! DEFINITION. What travels between modules, at both ends (17_fabric_watermarks.md R427, R432 to R443, R519): acceptance,
holds, commits, control messages, and the timers of streams and watermarks. -/
namespace Sys2Proof.Machine

/-! ### Destination streams (R433) -/

def Dest.isOf (x : Dest) (p : Packet) : Bool := x.origin = p.origin && x.unit = p.unit && x.vc = Packet.vc p.ty
def Fabric.dest (f : Fabric) (p : Packet) : Option Dest := f.dests.find? (·.isOf p)
/-- The number has been accepted or settled already, numbers being modulo 2^32. -/
def Dest.has (x : Dest) (seq : Nat) : Bool :=
  let back := (x.next + 2 ^ 32 - 1 - seq) % 2 ^ 32
  !x.idle && ((decide (back < 2 ^ 31) && decide (back < x.run)) || x.ahead.contains seq)
/-- The contiguous count steps past the numbers accepted. -/
def Dest.advance (x : Dest) : Nat → Dest
  | 0 => x
  | n + 1 =>
    if x.ahead.contains x.next then { x with next := (x.next + 1) % 2 ^ 32, run := x.run + 1, ahead := x.ahead.erase x.next }.advance n else x
/-- A number is taken. A stream that has been forgotten begins its count with it (log 13). -/
def Dest.accept (x : Dest) (seq tick : Nat) : Dest :=
  if x.idle then { x with next := (seq + 1) % 2 ^ 32, run := 1, ahead := [], last := tick, idle := false }
  else { x with ahead := x.ahead ++ [seq], last := tick }.advance (x.ahead.length + 1)
/-- Every lower-numbered packet of the stream has committed or been dropped: all are accepted, and none of them is held
(R435). -/
def Fabric.lowerDone (f : Fabric) (p : Packet) : Bool :=
  (match f.dest p with
   | some x => x.idle || decide ((x.next + 2 ^ 32 - p.seq) % 2 ^ 32 < 2 ^ 31)
   | none => true) &&
  f.holds.all (fun h => !(h.pkt.origin = p.origin && h.pkt.unit = p.unit && Packet.vc h.pkt.ty = Packet.vc p.ty &&
    decide ((p.seq + 2 ^ 32 - h.pkt.seq) % 2 ^ 32 < 2 ^ 31) && h.pkt.seq != p.seq))

/-! ### Messages to the origin (R432) -/

/-- A control message about a packet; byte 6 names the packet's origin unit. -/
def State.tellOrigin (s : State) (p : Packet) (ty a b c : Nat) : State := s.sendPkt (ctrlMsg ty p.origin p.job p.unit a b c)
def State.ackPkt (s : State) (p : Packet) : State := s.tellOrigin p 3 p.seq 0 0
def State.nackPkt (s : State) (p : Packet) (reason : Nat) : State := s.tellOrigin p 4 p.seq reason 0
/-- The cause and detail that a NOTICE passes to the issuing context (R436, R442, R443). -/
def noticeCause (reason : Nat) : Nat × Nat :=
  match reason with
  | 2 => (causeHandle, 0)
  | 3 => (causeWrite, 0)
  | 4 => (causeEcc, 0)
  | 5 => (causeExpiry, 2)
  | _ => (causeExpiry, 1)
def State.noticePkt (s : State) (p : Packet) (reason : Nat) : State := s.tellOrigin p 8 reason p.seq (noticeCause reason).2

/-! ### Acceptance (R430, R433 to R435, R446, R447) -/

def stagingBytes : Nat := 2 ^ 26
def holdBytes : Nat := 2 ^ 25
/-- The fields of a FRED (R431). -/
def fredWin (p : Packet) : Nat := p.addr % 4096
def fredRank (p : Packet) : Nat := p.addr / 2 ^ 16 % 2 ^ 16
def fredOff (p : Packet) : Nat := p.addr / 2 ^ 32 % 2 ^ 32
/-- A FRED that poisons its window (R447). -/
def Window.refuses (w : Window) (p : Packet) : Bool :=
  let r := fredRank p
  let o := fredOff p
  let n := p.payload.length
  w.job != p.job || decide (w.count ≤ r) || decide (w.len < o + n) || o % 4 != 0 || n % 4 != 0 ||
    w.got.any (fun g => g.1 = r && decide (g.2.1 < o + n) && decide (o < g.2.1 + g.2.2))
/-- The bytes of a FRED that an open window would have to stage: those of elements of which another rank is next (R448). -/
def Window.toStage (w : Window) (p : Packet) : Nat :=
  if w.state != 1 || 2 ≤ w.op then 0
  else 4 * ((List.range (p.payload.length / 4)).filter (fun i => w.rank.get 0 (fredOff p / 4 + i) != fredRank p)).length
/-- Staging in use: what the windows have staged, and what accepted FREDs that have not committed will stage. -/
def Fabric.staged (f : Fabric) : Nat :=
  (f.windows.map (fun e => (e.2.staged.map (fun x => x.2.2.length)).sum)).sum +
    ((f.holds.filter (fun h => h.pkt.ty = 2)).map (fun h => (f.windows.get Window.empty (fredWin h.pkt)).toStage h.pkt)).sum
/-- A byte of a job lies in an SO or SC page, as its page table stands. -/
def State.ordered (s : State) (job va : Nat) : Bool :=
  match s.job job with
  | some j => (match j.walk s.mem va with | .leaf _ _ e => decide (2 ≤ pteOrder e) | _ => false)
  | none => false
/-- Bytes that an FST or FATOM changes. -/
def Packet.span (p : Packet) : Nat := if p.ty = 1 then (if p.sz64 then 8 else 4) else p.payload.length
/-- A packet waits in step 3 of R435 from offset `off` on: a part of it lies in an SO or SC page, and a lower-numbered packet of
its stream is not done. -/
def State.mustWait (s : State) (p : Packet) (off : Nat) : Bool :=
  p.ty != 2 && !s.fab.lowerDone p &&
    (s.ordered p.job ((p.addr + off) % 2 ^ 57) || s.ordered p.job ((p.addr + Packet.span p - 1) % 2 ^ 57))
/-- Hold entries in use, and the bytes kept in the hold region: packets of steps 1 and 3 (R435). -/
def State.held (s : State) : List Hold := s.fab.holds.filter (fun h => !h.released || s.mustWait h.pkt h.off)
def State.heldBytes (s : State) : Nat := (s.held.map (fun h => h.pkt.payload.length)).sum
/-- The reason of a NACK, if the packet is refused (R434). -/
def State.nackReason (s : State) (p : Packet) : Option Nat :=
  let f := s.fab
  let w := s.windowAt (fredWin p)
  if p.nwm != 0 && (decide (7168 ≤ s.held.length) || decide (holdBytes < s.heldBytes + p.payload.length)) then some 1
  else if p.nwm = 0 && s.mustWait p 0 && decide (8192 ≤ s.held.length) then some 1
  else if p.ty = 2 && (w.state = 0 || w.state = 2) then some 2
  else if p.ty = 2 && w.toStage p != 0 && decide (stagingBytes < f.staged + w.toStage p) then some 3
  else if (match f.dest p with | some x => x.idle | none => true) && decide (16384 ≤ (f.dests.filter (fun x => !x.idle)).length) then some 4
  else none
/-- The packet's number is taken by its stream. -/
def Fabric.note (f : Fabric) (p : Packet) (tick : Nat) : Fabric :=
  let x := (f.dest p).getD ⟨p.origin, p.unit, Packet.vc p.ty, 0, 0, [], tick, p.job, false⟩
  { f with dests := f.dests.filter (fun y => !y.isOf p) ++ [{ x.accept p.seq tick with job := p.job }] }
/-- An accepted packet enters the hold list; one whose carried watermarks have all landed is past step 1 at once. -/
def State.holdPkt (s : State) (port : Nat) (p : Packet) : State :=
  let known := (carriedOf p).filter (fun w => s.fab.known w p.job = some true)
  let done := (carriedOf p).all known.contains
  let h : Hold := { pkt := p, port := port, tick := s.gtick, arr := s.fab.arrivals, released := done, off := 0, birth := 0, dropped := false,
                    parts := [], known := known, void := false, ext := 0, ev := none }
  let s := s.onFab (fun f => { f with holds := f.holds ++ [h], arrivals := f.arrivals + 1 })
  (carriedOf p).foldl (fun s w => if (s.fab.known w p.job).isNone && wmModule w != ownModule then s.askWm w p.job else s) s
/-- A stream that the destination keeps is not idle (R433). -/
def Fabric.heard (f : Fabric) (p : Packet) (tick : Nat) : Fabric :=
  { f with dests := f.dests.map (fun x => if x.isOf p && !x.idle then { x with last := tick } else x) }
/-- An arriving packet at its destination. -/
def State.acceptPkt (s : State) (port : Nat) (p : Packet) : State :=
  if 2 < p.ty then s
  else if !s.fab.authentic p then s.badAuth port
  else if (match s.fab.dest p with | some x => x.has p.seq | none => false) then (s.onFab (·.heard p s.gtick)).ackPkt p
  else match s.nackReason p with
    | some r => (s.onFab (·.heard p s.gtick)).nackPkt p r
    | none =>
      let s := (s.onFab (·.note p s.gtick)).ackPkt p
      if p.ty != 2 then s.holdPkt port p
      else
        let n := fredWin p
        let w := s.windowAt n
        if w.state = 3 then s
        else if w.refuses p then s.poisonWindow n
        else (s.setWindow n { w with got := w.got ++ [(fredRank p, fredOff p, p.payload.length)] }).holdPkt port p
/-- PACKET_ACCEPT (R435); a packet for another module is forwarded. -/
def execPacketAccept (port : Nat) (p : Packet) (s : State) : Host.Outcome State Fault Refusal :=
  if p.dest != ownModule then .next (s.forwardPkt p) else .next (s.acceptPkt port p)

/-- PACKET_FORWARD: HOPS steps; a packet whose HOPS would reach 16, or whose entry is not valid, is dropped, and its origin
told (R427). -/
def execPacketForward (_ : Nat) (p : Packet) (s : State) : Host.Outcome State Fault Refusal := .next (s.forwardPkt p)

/-! ### Holds and commits (R435, R436, R441, R442) -/

/-- A packet leaves the hold list: committed or dropped. -/
def State.unhold (s : State) (h : Hold) : State :=
  let s := match h.ev with | some e => s.unask e | none => s
  s.onFab (fun f => { f with holds := f.holds.filter (fun x => x.arr != h.arr) })
def State.setHold (s : State) (h : Hold) : State :=
  s.onFab (fun f => { f with holds := f.holds.map (fun x => if x.arr = h.arr then h else x) })
/-- A hold is dropped before it commits, for a NOTICE reason (R442, R443). -/
def State.dropHold (s : State) (h : Hold) (reason : Nat) : State := (s.unhold h).noticePkt h.pkt reason
/-- A carried watermark has landed: the hold has learnt it, or it is known now. -/
def State.hasLanded (s : State) (h : Hold) (w : Nat) : Bool := h.known.contains w || s.fab.known w h.pkt.job = some true
/-- HOLD_RELEASE: the holds whose carried watermarks are all known to have landed leave step 1, in arrival order (R441). -/
def execHoldRelease (s : State) : Host.Outcome State Fault Refusal :=
  let go := s.fab.holds.filter (fun h => !h.released && (carriedOf h.pkt).all (s.hasLanded h))
  .next (go.foldl (fun s h =>
    (match h.ev with | some e => s.unask e | none => s).setHold { h with released := true, ev := none }) s)
/-- HOLD_DROP_VOID: the first hold that carries a void watermark is dropped (R442). -/
def execHoldDropVoid (s : State) : Host.Outcome State Fault Refusal :=
  match s.fab.holds.find? (fun h => !h.released &&
      (h.void || (carriedOf h.pkt).any (fun w => !h.known.contains w && s.fab.known w h.pkt.job = some false))) with
  | none => .next s
  | some h => .next (s.dropHold h 5)

/-- The die that a packet's translation is asked from: that of the arriving port, or of the issuing core (10 R309). -/
def Hold.die (h : Hold) : Nat :=
  if h.pkt.origin = ownModule then (if h.pkt.unit < 64 then dieOf h.pkt.unit else if h.pkt.unit < 128 then dieOf h.pkt.unit else 0)
  else h.port / 4
/-- Records or puts in a part that lies in unit frames: the aligned pieces of `n` bytes, between two offsets of the page (14
R382, R383). -/
def unitPieces (n lo hi off : Nat) (l : List Byte) : List Byte :=
  let skip := (n - off % n) % n
  (List.range ((l.length - skip) / n)).flatMap (fun i =>
    let o := skip + n * i
    if lo ≤ off + o && off + o + n ≤ hi then slice l o n else [])
/-- What a part of an FST gives to the vat or the combine unit (14 R382, R383). -/
def unitParts (p : Packet) (q : Place) (l : List Byte) : List Part :=
  let fr := frameOf q.key
  let put := fun (v n lo hi : Nat) =>
    let b := unitPieces n lo hi (q.pa % 65536) l
    if p.ty = 0 && !b.isEmpty then [⟨v, p.job, b⟩] else []
  if fr = frameId 1 0x23D7FF then put 2048 16 0 65536
  else if frameId 1 0x23F800 ≤ fr && unitFrame fr then put (fr - frameId 1 0x23F800) 32 0x8000 0x9000 else []
/-- The poisoned blocks that `n` bytes from `key` write in part (R436). -/
def Mem.partBad (m : Mem) (key n : Nat) : List Nat :=
  (blocksOf key n).filter (fun b => !(decide (key ≤ 64 * b) && decide (64 * b + 64 ≤ key + n)) && !m.inert (64 * b) && m.uncorrectable b)
/-- A part performed at a place: the reason of a dropped part, if any (R435 step 4, R436; 05 R182). A part that would write a poisoned
block in part is dropped whole. -/
def State.commitPart (s : State) (p : Packet) (q : Place) (l : List Byte) : State × Option Nat :=
  let n := if p.ty = 0 then l.length else if p.sz64 then 8 else 4
  let bad := s.mem.partBad q.key n
  if unitFrame (frameOf q.key) then (s, none)
  else if !bad.isEmpty then ((s.ecc 11 0 bad).1, some 4)
  else if p.ty = 0 then ((s.writeHbm p.job 0 q.key l).1, none)
  else
    let m := ofLe (s.mem.rd q.key n)
    ((s.writeHbm p.job 0 q.key (leBytes n (atomValue p.aop n m p.opb p.expd))).1, none)
/-- The last part is done: what it brings the units is theirs, and the watermark lands, unless a part was dropped (R435, R436,
R440; 14 R384, R396). -/
def State.commitDone (s : State) (h : Hold) : State :=
  let p := h.pkt
  let s := (s.unhold h).onVat (fun u => { u with parts := u.parts ++ h.parts })
  if !p.hasWm || h.dropped then s
  else if p.origin = ownModule then s.settleWm p.ownWm true
  else s.sendPkt (ctrlMsg 5 p.origin p.job p.unit p.ownWm 0 0)
def Hold.len (h : Hold) : Nat := Packet.span h.pkt
/-- A part of `m` bytes is done: one that was dropped is reported; after the last the packet is through (R436). -/
def State.partDone (s : State) (h : Hold) (m : Nat) (bad : Option Nat) (parts : List Part := []) : State :=
  let s := match bad with | some r => s.noticePkt h.pkt r | none => s
  let h' : Hold := { h with off := h.off + m, birth := if h.off = 0 then s.mem.qseq else h.birth, dropped := h.dropped || bad.isSome,
                            parts := h.parts ++ parts }
  if h.len ≤ h'.off then s.commitDone h' else s.setHold h'
/-- The next part of a released FST or FATOM: what lies in one 64 KiB region. -/
def State.commitNext (s : State) (h : Hold) : State :=
  let p := h.pkt
  let va := (p.addr + h.off) % 2 ^ 57
  let m := min (h.len - h.off) (65536 - va % 65536)
  match s.access p.job (holdReq h.die h.arr) va m true with
  | (s, .wait) => s
  | (s, .noperm) => s.partDone h m (some 3)
  | (s, .nomap) => s.partDone h m (some 2)
  | (s, .noframe) => s.partDone h m (some 2)
  | (s, .ok q) =>
    if 2 ≤ q.order && !s.fab.lowerDone p then s
    else
      let l := (p.payload.drop h.off).take m
      let r := s.commitPart p q l
      r.1.partDone h m r.2 (unitParts p q l)
/-- A released FRED is folded; the window that it completes writes its result (R446, R448). One whose window takes no further
contribution is dropped: its watermark does not land (R435, R447). -/
def State.commitFred (s : State) (h : Hold) : State :=
  let p := h.pkt
  let n := fredWin p
  let w := s.windowAt n
  if w.state != 1 || w.job != p.job then s.unhold h
  else
    let w2 := w.contribute (fredRank p) (fredOff p) p.payload
    if !w2.full then (s.setWindow n w2).commitDone h
    else match (s.setWindow n w2).completeWindow n with
      | (s2, true) => s2.commitDone h
      | (s2, false) => s2.setWindow n w
/-- PACKET_COMMIT: the `k`-th hold, if it is past step 1, has its next part performed (R435). -/
def execPacketCommit (k : Nat) (s : State) : Host.Outcome State Fault Refusal :=
  match s.fab.holds[k]? with
  | none => .next s
  | some h => if !h.released then .next s else .next (if h.pkt.ty = 2 then s.commitFred h else s.commitNext h)

/-! ### Control messages (R432, R434, R436, R440, R519) -/

/-- The packet that an ACK or NACK answers: of the sender, byte 6's unit and the number, on a channel. -/
def Unacked.isFor (u : Unacked) (p : Packet) (vc : Nat) : Bool :=
  u.pkt.dest = p.origin && u.pkt.unit = p.unit && u.pkt.seq = pktA p && Packet.vc u.pkt.ty = vc
def Abandon.isFor (a : Abandon) (p : Packet) (vc : Nat) : Bool :=
  a.pkt.dest = p.origin && a.unit = p.unit && a.seq = pktA p && a.vc = vc
def SentRec.isFor (r : SentRec) (p : Packet) (vc : Nat) : Bool :=
  r.dest = p.origin && r.unit = p.unit && r.seq = pktB p && r.vc = vc
/-- An ACK, a NACK and a NOTICE name no channel (R432): where both of a unit's streams to the sender have the number open, which
one is meant is an open value (log 13). -/
def State.channel (s : State) (open_ : Nat → Bool) : Nat :=
  if open_ 0 && (!open_ 3 || (Config.freeValue 1 s.free) = 0) then 0 else 3
def Fabric.acksFor (f : Fabric) (p : Packet) (vc : Nat) : Bool := f.unacked.any (·.isFor p vc) || f.abandons.any (·.isFor p vc)
def execAck (p : Packet) (s : State) : Host.Outcome State Fault Refusal :=
  if !s.fab.authentic p then .next (s.badAuth p.port)
  else
    let vc := s.channel (s.fab.acksFor p)
    let t := s.fab.unacked.foldl (fun s u => if u.isFor p vc then (match u.ev with | some e => s.unask e | none => s) else s) s
    .next { t.onFab (fun f => { f with unacked := f.unacked.filter (fun u => !u.isFor p vc),
                                       abandons := f.abandons.filter (fun a => !a.isFor p vc) }) with free := s.free + 1 }
def execNack (p : Packet) (s : State) : Host.Outcome State Fault Refusal :=
  if !s.fab.authentic p then .next (s.badAuth p.port)
  else
    let vc := s.channel (fun vc => s.fab.unacked.any (·.isFor p vc))
    .next { s.onFab (fun f => { f with unacked := f.unacked.map (fun u =>
      if u.isFor p vc then { u with due := s.gtick + u.backoff, backoff := min 64000 (2 * u.backoff) } else u) }) with free := s.free + 1 }
/-- LANDED: at the origin the slot lands and the committing module is told in turn; there it enters the cache (R439, R440). -/
def execLanded (p : Packet) (s : State) : Host.Outcome State Fault Refusal :=
  let wm := pktA p
  if !s.fab.authentic p then .next (s.badAuth p.port)
  else if wmModule wm != ownModule then .next (s.onFab (·.cache wm true s.gtick))
  else
    let o := s.fab.origins.get Origin.empty (wmSlot wm)
    let s := s.onFab (fun f => { f with sent := f.sent.filter (fun r => r.wm != some (BitVec.ofNat 32 wm)) })
    if o.state != 1 || o.gen.toNat != wmGen wm || o.job != p.job then .next s
    else .next ((s.settleWm wm true).sendPkt (ctrlMsg 5 p.origin p.job p.unit wm 0 0))
/-- QUERY at the origin (R440): 0 landed, 1 void, 2 wait, or deferred. -/
def execQuery (p : Packet) (s : State) : Host.Outcome State Fault Refusal :=
  let wm := pktA p
  let n := wmSlot wm
  let o := s.fab.origins.get Origin.empty n
  let say := fun (a : Nat) => s.sendPkt (ctrlMsg 7 p.origin p.job p.unit wm a 0)
  if !s.fab.authentic p then .next (s.badAuth p.port)
  else if wmModule wm != ownModule then .next s
  else if o.state = 0 || o.state = 2 || o.job != p.job || o.gen.toNat != wmGen wm then .next (say 0)
  else if o.state = 3 then .next (say 1)
  else if o.queriers.contains (p.origin, p.unit) then .next s
  else if 8 ≤ o.queriers.length then .next (say 2)
  else
    let new : Origin := { o with queriers := o.queriers ++ [(p.origin, p.unit)] }
    .next (s.onFab (fun f => { f with origins := f.origins.set Origin.empty n new }))
/-- RELEASE at the querier: a final answer enters the cache (R440). -/
def execRelease (p : Packet) (s : State) : Host.Outcome State Fault Refusal :=
  if !s.fab.authentic p then .next (s.badAuth p.port)
  else if 1 < pktB p then .next s
  else .next (s.onFab (·.cache (pktA p) (pktB p = 0) s.gtick))
/-- An abandoned number at the destination: settled, where it was never accepted (R519). -/
def State.settleNumber (s : State) (p : Packet) : State :=
  let q : Packet := { pktZero with ty := if p.ownWm = 3 then 2 else 0, origin := p.origin, unit := p.unit, job := p.job, seq := pktB p }
  let s := if (match s.fab.dest q with | some x => x.has q.seq | none => false) then s.onFab (·.heard q s.gtick)
    else s.onFab (·.note q s.gtick)
  s.ackPkt q
/-- NOTICE (R427, R436, R442, R443, R519). -/
def execNotice (p : Packet) (s : State) : Host.Outcome State Fault Refusal :=
  let reason := pktA p
  if !s.fab.authentic p then .next (s.badAuth p.port)
  else if reason = 1 then .next (s.logKind 1)
  else if reason = 7 then .next (s.settleNumber p)
  else if reason < 2 || 7 < reason then .next s
  else match s.fab.sent.find? (·.isFor p (s.channel (fun vc => s.fab.sent.any (·.isFor p vc)))) with
    | none => .next s
    | some r =>
      let s := { s.onFab (fun f => { f with sent := f.sent.erase r }) with free := s.free + 1 }
      let s := match r.wm with | some w => s.settleWm w.toNat false | none => s
      let c := noticeCause reason
      .next (s.deliverTo r.core r.cgen r.job r.tcb c.1 c.2 true)

/-! ### Timers -/

/-- RETRANSMIT_TIMEOUT: the first packet that is due goes out again, its HOPS at 0 (R433). -/
def execRetransmitTimeout (s : State) : Host.Outcome State Fault Refusal :=
  let s := s.pump
  match s.fab.unacked.find? (fun u => u.due ≤ s.gtick) with
  | none => .next s
  | some u =>
    .next ((s.onFab (fun f =>
      { f with unacked := f.unacked.map (fun v => if v = u then { u with due := s.gtick + 100000 } else v) }.touch u.pkt s.gtick)).sendPkt
        u.pkt)
/-- An expiry of R443 or R433 under DUTY bit 3: the host is asked, unless it has been asked 15 times (R444). -/
def State.asksExpiry (s : State) (job ext : Nat) : Bool := s.dutyBit job 3 && decide (ext < 15)
/-- An abandoned packet: its watermark void, its context told, and the destination until it answers (R433, R519). -/
def State.abandon (s : State) (u : Unacked) : State :=
  let p := u.pkt
  let s := s.onFab (fun f => { f with unacked := f.unacked.filter (fun v => v != u), sent := f.sent.filter (fun r =>
    !(r.dest = p.dest && r.unit = p.unit && r.seq = p.seq && r.vc = Packet.vc p.ty)) })
  let s := if p.hasWm then s.settleWm p.ownWm false else s
  let n := ctrlMsg 8 p.dest p.job p.unit 7 p.seq (Packet.vc p.ty)
  let a : Abandon := { pkt := n, vc := Packet.vc p.ty, seq := p.seq, unit := p.unit, due := s.gtick + 100000, since := s.gtick }
  let s := (s.onFab (fun f => { f with abandons := f.abandons ++ [a] })).sendPkt n
  s.deliverTo u.core u.cgen p.job u.tcb causeExpiry 3 true
/-- PACKET_ABANDON (R433, R444). -/
def execPacketAbandon (s : State) : Host.Outcome State Fault Refusal :=
  match s.fab.unacked.find? (fun u => u.ev.isNone && decide (u.first + s.fab.expiry u.pkt.job ≤ s.gtick)) with
  | none => .next s
  | some u =>
    if s.asksExpiry u.pkt.job u.ext then
      let n := s.host.evNext
      .next ((s.askWith 4 u.pkt.job [u.pkt.seq, 3] 0 0 0 true).onFab (fun f =>
        { f with unacked := f.unacked.map (fun v => if v = u then { u with ev := some n } else v) }))
    else .next (s.abandon u)
/-- HOLD_EXPIRY (R443, R444). -/
def execHoldExpiry (s : State) : Host.Outcome State Fault Refusal :=
  match s.fab.holds.find? (fun h => !h.released && h.ev.isNone && decide (h.tick + s.fab.expiry h.pkt.job ≤ s.gtick)) with
  | none => .next s
  | some h =>
    if s.asksExpiry h.pkt.job h.ext then
      let n := s.host.evNext
      let arg := if h.pkt.hasWm then h.pkt.ownWm else h.pkt.seq
      .next ((s.askWith 4 h.pkt.job [arg, 1] 0 0 0 true).setHold { h with ev := some n })
    else .next (s.dropHold h 6)
/-- An origin slot's expiry applied (R443). -/
def State.expireSlot (s : State) (n : Nat) : State :=
  let o := s.fab.origins.get Origin.empty n
  (s.settleSlot n false).deliverTo o.core o.cgen o.job o.tcb causeExpiry 4 true
/-- ORIGIN_SLOT_EXPIRY (R443, R444). -/
def execOriginSlotExpiry (s : State) : Host.Outcome State Fault Refusal :=
  match s.fab.origins.find? (fun e => e.2.state = 1 && e.2.ev.isNone &&
      decide (e.2.win + s.fab.expiry e.2.job ≤ s.gtick)) with
  | none => .next s
  | some e =>
    if s.asksExpiry e.2.job e.2.ext then
      let n := s.host.evNext
      let new : Origin := { e.2 with ev := some n }
      .next ((s.askWith 4 e.2.job [ownModule * 2 ^ 20 + e.1 * 256 + e.2.gen.toNat, 4] 0 0 0 true).onFab (fun f =>
        { f with origins := f.origins.set Origin.empty e.1 new }))
    else .next (s.expireSlot e.1)
/-- The host's answer to an expiry event, or none in time: a further window from the reply on, or the fault (R444). -/
def State.expiryReply (s : State) (ev : Nat) (extend : Bool) : State :=
  let f := s.fab
  match f.unacked.find? (fun u => u.ev = some ev), f.holds.find? (fun h => h.ev = some ev), f.origins.find? (fun e => e.2.ev = some ev) with
  | some u, _, _ =>
    if extend then s.onFab (fun f => { f with unacked := f.unacked.map (fun v => if v = u then { u with ev := none, ext := u.ext + 1, first := s.gtick } else v) })
    else s.abandon u
  | none, some h, _ => if extend then s.setHold { h with ev := none, ext := h.ext + 1, tick := s.gtick } else s.dropHold { h with ev := none } 6
  | none, none, some e =>
    let new : Origin := { e.2 with ev := none, ext := e.2.ext + 1, win := s.gtick }
    if extend then s.onFab (fun f => { f with origins := f.origins.set Origin.empty e.1 new }) else s.expireSlot e.1
  | none, none, none => s

/-- WATERMARK_SLOT_FREE: 1 ms after landing (R439). -/
def execWatermarkSlotFree (s : State) : Host.Outcome State Fault Refusal :=
  match s.fab.origins.find? (fun e => e.2.state = 2 && decide (e.2.tick + 1000000 ≤ s.gtick)) with
  | none => .next s
  | some e =>
    let new : Origin := { e.2 with state := 0 }
    .next (s.onFab (fun f => { f with origins := f.origins.set Origin.empty e.1 new }))
/-- A watermark is still needed here: a hold carries it or a WMWAIT waits for it (R440). -/
def State.wmNeeded (s : State) (wm : Nat) : Bool :=
  s.fab.holds.any (fun h => !h.released && (carriedOf h.pkt).contains wm && !h.known.contains wm) || s.cores.any (fun e => s.wmWaits e.1 = some wm)
/-- QUERY_RESEND: the first query that is due goes out again, or ends where nothing needs it any more (R440). -/
def execQueryResend (s : State) : Host.Outcome State Fault Refusal :=
  match s.fab.queries.find? (fun q => q.due ≤ s.gtick) with
  | none => .next s
  | some q =>
    if s.wmNeeded q.wm.toNat then
      .next ((s.onFab (fun f => { f with queries := f.queries.map (fun x => if x = q then { q with due := s.gtick + 100000 } else x) })).sendPkt
        (ctrlMsg 6 (wmModule q.wm.toNat) q.job 128 q.wm.toNat 0 0))
    else .next (s.onFab (fun f => { f with queries := f.queries.erase q }))
/-- SETTLED_CACHE_EXPIRY: entries leave 500 µs after they entered (R440). -/
def execSettledCacheExpiry (s : State) : Host.Outcome State Fault Refusal :=
  .next (s.onFab (fun f => { f with settled := f.settled.filter (fun e => s.gtick < e.tick + 500000) }))
/-- ABANDON_NOTICE_RESEND: the first abandon notice that is due goes out again, or ends with its stream (R519). -/
def execAbandonNoticeResend (s : State) : Host.Outcome State Fault Refusal :=
  match s.fab.abandons.find? (fun a => a.due ≤ s.gtick) with
  | none => .next s
  | some a =>
    if a.since + s.fab.expiry a.pkt.job + 1000000 ≤ s.gtick then .next (s.onFab (fun f => { f with abandons := f.abandons.erase a }))
    else .next ((s.onFab (fun f => { f with abandons := f.abandons.map (fun b => if b = a then { a with due := s.gtick + 100000 } else b) })).sendPkt
      a.pkt)
/-- STREAM_IDLE_EXPIRY: a stream idle for E and 1 ms is forgotten: it has no place in the table, and none of its numbers has been
accepted or is waited for any longer (R433, R519; log 13). -/
def execStreamIdleExpiry (s : State) : Host.Outcome State Fault Refusal :=
  .next (s.onFab (fun f => { f with dests := f.dests.map (fun x =>
    if s.gtick < x.last + f.expiry x.job + 1000000 then x
    else { x with idle := true, next := 0, run := 0, ahead := [] }) }))

end Sys2Proof.Machine
end

