-- ==== Sys2Proof/Machine/Links.lean ====
section
/-! DEFINITION. Fabric links (17_fabric_watermarks.md R429, R452 to R454): FEC_UNCORRECTABLE, TRAINING_RECORD, LINK_DOWN and
RETRAIN_TIMER; and WINDOW_TIMEOUT (R449). -/
namespace Sys2Proof.Machine

def State.linkAt (s : State) (port : Nat) : Link := s.fab.links.get Link.empty port
def State.setLink (s : State) (port : Nat) (l : Link) : State := s.onFab (fun f => { f with links := f.links.set Link.empty port l })
/-- The lanes of a map in use (R452). -/
def lanesUsed (m : Nat) : Nat := ((List.range 144).filter m.testBit).length

/-! ### Training records (R452) -/

/-- CRC-32 of IEEE 802.3, bit by bit. -/
def crcBits : Nat → BitVec 32 → BitVec 32
  | 0, c => c
  | n + 1, c => crcBits n (if c.getLsbD 0 then (c >>> 1) ^^^ 0xEDB88320#32 else c >>> 1)
def crc32 (l : List Byte) : BitVec 32 := ~~~(l.foldl (fun c b => crcBits 8 (c ^^^ b.setWidth 32)) 0xFFFFFFFF#32)
/-- A view in the layout of R452, and the 28 bytes of a view. -/
def viewOf (l : List Byte) : LinkView :=
  { mod := num l 0 2 % 4096, port := num l 2 1 % 16, speed := num l 3 1, width := num l 4 1, lanes := num l 5 18,
    valid := num l 23 1 % 2 = 1 }
def viewBytes (v : LinkView) : List Byte :=
  leBytes 2 v.mod ++ [b8 v.port, b8 v.speed, b8 v.width] ++ leBytes 18 v.lanes ++ [b8 v.valid.toNat] ++ zeros 4
def recView (r : TrainRec) : LinkView := viewOf r.bytes
def recEcho (r : TrainRec) : LinkView := viewOf (r.bytes.drop 28)
/-- The CRC is good; its bytes lie least significant first (log 13). -/
def recOk (r : TrainRec) : Bool :=
  r.bytes.length = 64 && num r.bytes 60 4 = (crc32 (r.bytes.take 60)).toNat
/-- The record that an end sends: its own view, the echo of the last valid one received, and the CRC. -/
def Link.record (l : Link) : TrainRec :=
  let b := viewBytes l.view ++ viewBytes l.peer ++ zeros 4
  ⟨b ++ leBytes 4 (crc32 b).toNat⟩
/-- Training records go out every 10 µs on the links that are down. -/
def State.trainGo (s : State) : State :=
  (List.range 16).foldl (fun s p =>
    let l := s.linkAt p
    if l.up || decide (s.gtick < l.sentAt + 10000) then s
    else (s.setLink p { l with sentAt := s.gtick }).onFab (fun f => { f with train := f.train ++ [(p, l.record)] })) s

/-! ### The link's events (R429, R453, R454) -/

/-- FEC_UNCORRECTABLE (R429). -/
def execFecUncorrectable (port : Nat) (s : State) : Host.Outcome State Fault Refusal :=
  let l := s.linkAt port
  .next (s.setLink port { l with fecErr := l.fecErr + 1 })
/-- LINK_DOWN (R454): packets are held from here on, and the end retrains after its interval. -/
def execLinkDown (port : Nat) (s : State) : Host.Outcome State Fault Refusal :=
  let l := s.linkAt port
  let down : Link :=
    { l with up := false, downAt := s.gtick, retry := 1000000, retryAt := some (s.gtick + 1000000), peer := LinkView.empty }
  .next (if l.up then s.setLink port down else s)

/-- A record that commits the link (R453). -/
def Link.commits (l : Link) (r : TrainRec) : Bool :=
  recOk r && (recView r).speed = l.view.speed && (recView r).width = l.view.width && (recView r).lanes = l.view.lanes && recEcho r = l.view &&
    (recView r).width = lanesUsed (recView r).lanes
/-- TRAINING_RECORD (R453): the link starts with fresh credits, and sends what its buffer holds; or a mismatch is logged, with the
record received and the end's own, and the end retries. -/
def execTrainingRecord (port : Nat) (r : TrainRec) (s : State) : Host.Outcome State Fault Refusal :=
  let l := s.linkAt port
  if l.up then .next s
  else if l.commits r then
    let s := if s.parentPort = some port && s.parentLost then s.onClk (fun c => { c with linkOut := true }) else s
    .next ((s.setLink port { l with up := true, credit := freshCredits, peer := (recView r), got := some r, retry := 1000000,
                                    retryAt := none }).flush port)
  else
    let own := l.record
    let l := if recOk r && (recView r).valid then { l with peer := (recView r) } else l
    .next (s.setLink port { l with mismatch := (r, own) :: l.mismatch, got := some r, retryAt := l.retryAt.or (some (s.gtick + l.retry)) })

/-- One attempt in mode 0: the lanes are measured again, the bad ones leave the view, and the interval doubles (R454). What a
measurement finds is an open value (log 5). -/
def State.remeasure (s : State) (port : Nat) : State :=
  let l := s.linkAt port
  let good := (Config.freeValue 144 s.free).toNat
  let lanes := (if l.view.valid then l.view.lanes else 2 ^ 144 - 1) &&& good
  let v : LinkView := { mod := ownModule, port := port, speed := l.view.speed, width := lanesUsed lanes, lanes := lanes, valid := true }
  { s.setLink port { l with view := v, retryAt := some (s.gtick + min 64000000 (2 * l.retry)), retry := min 64000000 (2 * l.retry),
                            retryEv := none } with free := s.free + 1 }
/-- What the event of a retraining carries: the port, and the bytes of both records, the own one and the last received. -/
def Link.bothRecords (l : Link) (port : Nat) : List Nat :=
  port :: (l.record.bytes ++ (match l.got with | some r => slice r.bytes 0 64 | none => zeros 64)).map (·.toNat)
/-- The job whose partition holds a port is in mode 1 (R454). -/
def State.assisted (s : State) (l : Link) : Option Job :=
  match l.part.bind s.job with
  | some j => if j.duty.getLsbD 6 then some j else none
  | none => none
/-- RETRAIN_TIMER: the links that are down send their records, those that are due (R452); the first down link that is due retrains,
or asks the host (R454). -/
def execRetrainTimer (s : State) : Host.Outcome State Fault Refusal :=
  let s := s.pump.trainGo
  match (List.range 16).find? (fun p =>
    let l := s.linkAt p
    !l.up && l.retryEv.isNone && (match l.retryAt with | some t => decide (t ≤ s.gtick) | none => true)) with
  | none => .next s
  | some p =>
    let l := s.linkAt p
    match s.assisted l with
    | none => .next (s.remeasure p)
    | some j =>
      let n := s.host.evNext
      .next ((s.askWith 6 j.num (l.bothRecords p) p 0 0 true).setLink p { l with retryEv := some n })
/-- The host's view for a port, or none in time (R454). -/
def State.retrainReply (s : State) (ev : Nat) (view : Option LinkView) : State :=
  match (List.range 16).find? (fun p => (s.linkAt p).retryEv = some ev) with
  | none => s
  | some p =>
    let l := s.linkAt p
    match view with
    | some v => s.setLink p { l with view := v, retryEv := none, retryAt := some (s.gtick + l.retry) }
    | none => s.remeasure p
/-- The windows of the jobs of which a context on another module has ended with cause 0x13 are poisoned (R449). How a module learns
of that the specification does not say: the world sets it (log 12). -/
def State.killedElsewhere (s : State) : State :=
  s.fab.killed.foldl (·.poisonJob ·) (s.onFab (fun f => { f with killed := [] }))
/-- WINDOW_TIMEOUT: what has been killed on another module, then the first window still open at its timeout, poisons (R449). -/
def execWindowTimeout (s : State) : Host.Outcome State Fault Refusal :=
  let s := s.killedElsewhere
  match s.fab.windows.find? (fun e => e.2.state = 1 && decide (e.2.openTick + e.2.timeout ≤ s.gtick)) with
  | none => .next s
  | some e => .next (s.poisonWindow e.1)

end Sys2Proof.Machine
end

