-- ==== Sys2Proof/Machine/ClockUnit.lean ====
section
/-! DEFINITION. The clock unit (18_group_clock_col.md R455 to R469): notices and their flooding, ceilings in effect, raise
rounds, membership, and the clock functions CLJOIN, CLLEAVE, CLSTAT and CLCEIL (08_coprocessor_instructions.md R268 to
R270). -/
namespace Sys2Proof.Machine

def lead : Nat := 50000
def tySync : Nat := 16
def tyCeil : Nat := 17
def tyRaise : Nat := 18
def tyConfirm : Nat := 19
def tyJoin : Nat := 20
def tyAdmit : Nat := 21
def tyLeave : Nat := 22
def tySilent : Nat := 23
def tyEvict : Nat := 24

/-! ### Ceilings (R460, R461) -/

/-- The local ceiling (R461). -/
def State.localCeil (s : State) : Nat := if s.host.hkduty.getLsbD 4 then min s.clk.prot s.clk.clceil else s.clk.prot
/-- The code that the module's own frequency follows (R464, R467, R468). -/
def Clock.ownCode (c : Clock) (t : Nat) : Nat :=
  if !(c.mem ownModule).in t then 0 else if t < c.loneUntil then min (c.groupAt t) c.lone else c.groupAt t

/-! ### Notices (R457, R458) -/

/-- The header flit (R457). -/
def colHeader (m : ColMsg) : List Byte :=
  [b8 m.ty, b8 m.code] ++ leBytes 2 m.subj ++ leBytes 2 m.origin ++ [0x80, b8 m.hops] ++ leBytes 8 m.tick ++ leBytes 4 m.seq ++
    leBytes 2 m.count ++ zeros 2 ++ leBytes 8 m.t1 ++ leBytes 8 m.t2 ++ leBytes 8 m.t3 ++ zeros 8 ++ leBytes 8 m.ctr
/-- What the tag covers: the header with HOPS taken as zero, its CTR in the nonce (17 R430). -/
def colSealed (m : ColMsg) : List Nat := (colHeader { m with hops := 0 }).map (·.toNat)
/-- A flit passes its check under the group key (17 R430). -/
def State.colOk (s : State) (m : ColMsg) : Bool :=
  match s.fab.groupKey with | some k => Config.noticeTag k (colSealed m) = m.tag | none => false
def upPorts (s : State) : List Nat := (List.range 16).filter (fun p => (s.linkAt p).up)
/-- A flit handed to its port, where it waits for the link and for VC2's credits (17 R428). -/
def State.colOut (s : State) (m : ColMsg) : State :=
  (s.setLink m.port { s.linkAt m.port with col := (s.linkAt m.port).col ++ [m] }).flush m.port
/-- A flit of this module, sealed; none leaves a module without a group key. -/
def State.seal (s : State) (m : ColMsg) : State × Option ColMsg :=
  match s.fab.groupKey with
  | none => (s, none)
  | some k =>
    let ctr := s.fab.ctr.get 0 128 + 1
    let m := { m with ctr := ctr }
    (s.onFab (fun f => { f with ctr := f.ctr.set 0 128 ctr }), some { m with tag := Config.noticeTag k (colSealed m) })
def colZero : ColMsg :=
  { port := 0, ty := tySync, code := 0, subj := 0, origin := ownModule, hops := 0, tick := 0, seq := 0, count := 0, t1 := 0, t2 := 0,
    t3 := 0, ctr := 0, tag := 0 }
/-- Flood a notice of this module on every link that is up. -/
def State.flood (s : State) (ty code subj tick : Nat) : State :=
  let m := { colZero with ty := ty, code := code, subj := subj, tick := tick, seq := s.clk.seqNext, count := s.clk.present.length }
  let s := s.onClk (fun c => { c with seqNext := (c.seqNext + 1) % 2 ^ 32 })
  match s.seal m with
  | (s, none) => s
  | (s, some m) => (upPorts s).foldl (fun s p => s.colOut { m with port := p }) s
/-- Send a flit by one port. -/
def State.colVia (s : State) (port : Nat) (m : ColMsg) : State :=
  match s.seal m with
  | (s, none) => s
  | (s, some m) => s.colOut { m with port := port }
/-- Send a flit towards one module along the route table. -/
def State.colTo (s : State) (dest : Nat) (m : ColMsg) : State :=
  let e := s.fab.route.get 0 dest
  if e.getLsbD 7 then s.colVia (e.toNat % 16) m else s
/-- A number newer than the one held (R458). -/
def newer (held : Option Nat) (b : Nat) : Bool :=
  match held with
  | none => true
  | some a => decide (1 ≤ (b + 2 ^ 32 - a) % 2 ^ 32) && decide ((b + 2 ^ 32 - a) % 2 ^ 32 < 2 ^ 31)
/-- A notice forwarded on the other links that are up, unless HOPS would reach 16 (R458). -/
def State.forwardCol (s : State) (m : ColMsg) : State :=
  if 16 ≤ m.hops + 1 then s
  else ((upPorts s).filter (· != m.port)).foldl (fun s p => s.colOut { m with port := p, hops := m.hops + 1 }) s
/-- A flooded notice: whether it is to be applied, and the module after noting and forwarding it (R458, R465). One that fails its
check steps its port's counter (17 R430). -/
def State.takeNotice (s : State) (m : ColMsg) : State × Bool :=
  let x := s.clk.mem m.origin
  if !s.colOk m then (s.badAuth m.port, false)
  else if m.origin = ownModule || !newer x.seq m.seq then (s, false)
  else
    let s := s.onClk (·.setMem m.origin { x with seq := some m.seq, heard := s.gtick, mute := false })
    (s.forwardCol m, s.clk.isMember || s.clk.joining.isSome)

/-! ### Answers -/

/-- The mark of a command that a CLOCK datagram made (19 R473): it has no COP. -/
def clockId : Nat := 2 ^ 64
/-- An answer of the clock unit: to the COP, or in the acknowledgement of the CLOCK datagram (19 R473, R478). -/
def State.clkAnswer (s : State) (d : UnitCmd) (v : Word) : State :=
  if d.id != clockId then s.answer d v
  else match s.host.clockCur with
    | some q => (s.sendHost (.ack q (leBytes 8 v.toNat))).onHost (fun h => { h with clockCur := none })
    | none => s
def tickWord (t : Nat) : Word := BitVec.ofNat 64 (t % 2 ^ 63)
def State.clkAnswers (s : State) (l : List UnitCmd) (v : Word) : State := l.foldl (fun s d => s.clkAnswer d v) s

/-! ### Rounds (R463, R466, R468) -/

def Clock.own (c : Clock) : Member := c.mem ownModule
/-- Every other member has confirmed. -/
def Clock.allConfirmed (c : Clock) (r : Round) : Bool := c.present.all (fun m => m = ownModule || r.confirmed.contains m)
/-- A round is open for its raiser, with the code of its notice; and it is over (08 R270). -/
def Clock.opens (c : Clock) (raiser code : Nat) : Clock :=
  { c with openRounds := c.openRounds.filter (fun e => e.1 != raiser) ++ [(raiser, code)] }
def Clock.shuts (c : Clock) (raiser : Nat) : Clock := { c with openRounds := c.openRounds.filter (fun e => e.1 != raiser) }
/-- A member is evicted: it is removed, and its ceiling counts until the evictor's round gives the tick. What it had itself evicted
falls to the new evictor (R466). -/
def Clock.evicts (c : Clock) (m evictor : Nat) : Clock :=
  let c := c.shuts m
  let c := { c with members := c.members.map (fun (e : Nat × Member) => if e.2.evictBy = some m then (e.1, { e.2 with evictBy := some evictor }) else e) }
  let x := c.mem m
  if x.present then c.setMem m { x with present := false, mute := false, leaving := false, leaveAt := none, evictBy := some evictor } else c
/-- The round of an evictor has ended, with this tick. -/
def Clock.freed (c : Clock) (evictor t : Nat) : Clock :=
  { c with members := c.members.map (fun (e : Nat × Member) =>
      if e.2.evictBy = some evictor && e.2.goneAt.isNone then (e.1, { e.2 with goneAt := some t }) else e) }
/-- Step 3: the raiser floods CEIL one lead from now; a leave at the later of that and its own tick. -/
def State.closeRound (s : State) (r : Round) : State :=
  let t := if r.kind = 1 then max r.leave (s.gtick + lead) else s.gtick + lead
  let s := s.flood tyCeil r.code 0 t
  let x := s.clk.own
  let x := if r.kind = 1 then { x with leaveAt := some t } else { x with pending := some (r.code, t) }
  let s := s.onClk (fun c =>
    { ((c.setMem ownModule x).shuts ownModule).freed ownModule t with
        round := none, leaving := if r.kind = 1 then c.leaving.map (fun d => (d.1, t)) else c.leaving })
  s.clkAnswers r.cmds (tickWord t)
/-- The module's own round begins: its notice goes out. -/
def State.startRound (s : State) (ty : Nat) (subj : Nat) (r : Round) : State :=
  (s.onClk (fun c => { c with round := some { r with sentAt := s.gtick } }.opens ownModule r.code)).flood ty r.code subj 0
/-- A round that every other member has confirmed ends; not while a ceiling of the module's own is pending, which it would replace
(R460, R462; log 16). -/
def State.tryRound (s : State) : State :=
  match s.clk.round with
  | none => s
  | some r => if s.clk.allConfirmed r && (r.kind = 1 || s.clk.own.pending.isNone) then s.closeRound r else s
/-- Open the module's own round with its first notice. -/
def State.openRound (s : State) (ty : Nat) (subj : Nat) (r : Round) : State := (s.startRound ty subj r).tryRound
/-- A round may begin: none is open, and no ceiling of the module's own is pending (R462, R463). -/
def Clock.calm (c : Clock) : Bool := c.round.isNone && c.own.pending.isNone
/-- The rise that waited for a LEAVE round, or for a fall to take effect, begins its round (R462, R463). -/
def State.riseNext (s : State) : State :=
  match s.clk.rise with
  | none => s
  | some cmds =>
    if s.clk.calm then (s.onClk (fun c => { c with rise := none })).openRound tyRaise 0 ⟨0, s.clk.local_, [], 0, 0, cmds⟩ else s
/-- Members that this module has evicted, their tick not yet given, have their round again (R466). -/
def State.evictNext (s : State) : State :=
  if s.clk.calm && s.clk.members.any (fun e => e.2.evictBy = some ownModule && e.2.goneAt.isNone) then
    s.openRound tyRaise 0 ⟨2, s.clk.local_, [], 0, 0, []⟩
  else s
/-- CLLEAVE opens its round, or waits for the one that is open (R468). -/
def State.startLeave (s : State) (d : UnitCmd) (t : Nat) : State :=
  let s := s.onClk (fun c => { c with leaving := some (d, t) })
  if s.clk.round.isSome then s
  else s.openRound tyLeave 0 ⟨1, s.clk.local_, [], 0, t, []⟩
/-- A leave that waited for another round begins. -/
def State.leaveNext (s : State) : State :=
  match s.clk.leaving with
  | some (d, t) => if s.clk.round.isNone && s.clk.own.leaveAt.isNone then s.startLeave d t else s
  | none => s
/-- The module's rounds go on: the open one may end, and what waits may begin, one round at a time (R463). -/
def State.roundsGo (s : State) : State := if s.clk.isMember then s.tryRound.riseNext.evictNext.leaveNext else s
/-- A fall of the raiser ends its raise round, and withdraws a rise that waits; the commands are answered with the fall's tick (R463,
R468). -/
def State.dropRound (s : State) (t : Nat) : State :=
  let s := (s.onClk (fun c => { c with rise := none })).clkAnswers (s.clk.rise.getD []) (tickWord t)
  match s.clk.round with
  | some r => if r.kind = 1 then s else (s.onClk (fun c => { c with round := none }.shuts ownModule)).clkAnswers r.cmds (tickWord t)
  | none => s

/-! ### Changes of the local ceiling (R461 to R464, 08 R269) -/

/-- A fall is announced, effective one lead from now, or at an earlier fall's later tick (R462). A member whose silence has put its
ceiling to code 0 stays there (R465). -/
def State.fall (s : State) (code : Nat) : State × Nat :=
  let x := s.clk.own
  let t := max (s.gtick + lead) (match x.pending with | some (_, u) => u | none => 0)
  let s := s.flood tyCeil code 0 t
  let x := s.clk.own
  let s := s.onClk (fun c => { c.setMem ownModule (if x.fallen then x else { x with pending := some (code, t) }) with local_ := code })
  ((s.dropRound t).leaveNext, t)
/-- A ceiling announced already answers with the tick at which it takes effect: that of its round, which is still open, or of its
pending notice. -/
def State.joinCeil (s : State) (cmd : List UnitCmd) : State :=
  let pend := s.clkAnswers cmd (tickWord (match s.clk.own.pending with | some (_, u) => u | none => s.gtick))
  match s.clk.rise, s.clk.round with
  | some l, _ => s.onClk (fun c => { c with rise := some (l ++ cmd) })
  | none, some r => if r.kind = 0 then s.onClk (fun c => { c with round := some { r with cmds := r.cmds ++ cmd } }) else pend
  | none, none => pend
/-- The ceiling in effect is the announced one, or on its way to it: no silence holds it down without a round (R465). -/
def Clock.settledAs (c : Clock) : Bool := !c.own.fallen || c.round.isSome || c.rise.isSome || c.own.pending.isSome
/-- The local ceiling has changed, for a command or not (R462, R463); the answer names the tick of its notice. A rise while
a raise round is open follows that round with the new code; one while a LEAVE round is open, or while a ceiling of the module's own is
pending, waits for that. -/
def State.localChange (s : State) (cmd : List UnitCmd) : State :=
  let code := s.localCeil
  let old := s.clk.local_
  if !s.clk.isMember then (s.onClk (fun c => { c with local_ := code })).clkAnswers cmd (tickWord s.gtick)
  else if code = old && s.clk.settledAs then s.joinCeil cmd
  else if code < old then
    let r := s.fall code
    r.1.clkAnswers cmd (tickWord r.2)
  else
    let s := s.onClk (fun c => { c with local_ := code })
    let wait := s.onClk (fun c => { c with rise := some (c.rise.getD [] ++ cmd) })
    match s.clk.round with
    | some r => if r.kind = 1 then wait else s.openRound tyRaise 0 { r with kind := 0, code := code, confirmed := [], cmds := r.cmds ++ cmd }
    | none => if s.clk.own.pending.isSome then wait else s.openRound tyRaise 0 ⟨0, code, [], 0, 0, cmd⟩

/-! ### Time (R460, R467, R468) -/

/-- A member's ceilings and membership brought up to a tick. A fall for its silence puts away what was pending (R465). -/
def Member.settle (x : Member) (t : Nat) : Member :=
  let x := match x.silent with
    | some u => if u ≤ t && !x.fallen then { x with ceil := 0, since := u, pending := none, fallen := true } else x
    | none => x
  let x := match x.pending with
    | some (c, u) => if u ≤ t then { x with ceil := c, since := u, pending := none, fallen := false, silent := if x.fallen then none else x.silent } else x
    | none => x
  let x := match x.joinAt with | some u => if u ≤ t then { x with present := true, joinAt := none, heard := max x.heard u } else x | none => x
  match x.leaveAt.or x.goneAt with | some u => if u ≤ t then Member.empty else x | none => x
/-- The commands that a round of the module's own, or a rise that waits, has still to answer. -/
def Clock.openCmds (c : Clock) : List UnitCmd := (match c.round with | some r => r.cmds | none => []) ++ c.rise.getD []
/-- What a module that is no longer a member forgets. -/
def Clock.alone (c : Clock) : Clock :=
  { c with members := [], round := none, openRounds := [], leaving := none, rise := none, serving := [] }
/-- Everything that has reached its tick takes effect; a join or a leave of the module's own is answered (08 R268), and its rounds go
on. -/
def State.clkSettle (s : State) : State :=
  let t := s.gtick
  let was := s.clk.isMember
  let s := s.onClk (fun c => { c with members := (c.members.map (fun e => (e.1, e.2.settle t))).filter (fun e => e.2 != Member.empty) })
  if !was && s.clk.isMember then
    match s.clk.joining with
    | some j => (s.onClk (fun c => { c with joining := none, seqNext := 0, beat := t })).clkAnswer j.cmd (tickWord s.clk.own.since)
    | none => s
  else if was && !s.clk.isMember then
    let cmds := s.clk.openCmds
    let s := match s.clk.leaving with
      | some (d, u) => s.clkAnswer d (tickWord u)
      | none => s
    (s.onClk (·.alone)).clkAnswers cmds (tickWord t)
  else s.roundsGo
/-- The module stops being a member: evicted (R466). -/
def State.outOfGroup (s : State) : State :=
  let s := s.clkAnswers s.clk.openCmds (copErr errGroup)
  let s := match s.clk.leaving with | some (d, _) => s.clkAnswer d (tickWord s.gtick) | none => s
  s.onClk (·.alone)

/-! ### The functions (08 R268 to R270) -/

/-- CLJOIN (R467 steps 1 and 2). -/
def State.cljoin (s : State) (d : UnitCmd) : State :=
  let s := s.clkSettle
  let a := (d.a.extractLsb' 0 12).toNat
  if d.a.extractLsb' 12 52 != 0 then s.clkAnswer d (copErr errRsvd)
  else if s.clk.isMember || s.clk.joining.isSome then s.clkAnswer d (copErr errState)
  else if a = ownModule then
    let new : Member := { Member.empty with present := true, ceil := s.localCeil, since := s.gtick, heard := s.gtick }
    let c : Clock := { s.clk with members := [(ownModule, new)], seqNext := 0, local_ := s.localCeil, beat := s.gtick, offOut := false,
                                  offBad := none, linkOut := false, lateUntil := 0, loneUntil := 0, slew := 0 }
    ({ s with clk := c }).clkAnswer d (tickWord s.gtick)
  else
    let s := s.onClk (fun c => { c with members := [], joining := some ⟨a, s.gtick, 0, d⟩ })
    s.colTo a { colZero with ty := tyJoin, code := s.localCeil, subj := a }
/-- CLLEAVE (R468). -/
def State.clleave (s : State) (d : UnitCmd) : State :=
  let s := s.clkSettle
  let a := d.a.toNat
  if !s.clk.isMember || s.clk.leaving.isSome then s.clkAnswer d (copErr errState)
  else if a != 0 && a < s.gtick + lead then s.clkAnswer d (copErr errRange)
  else s.startLeave d a
/-- The ticks at which a ceiling or the membership changes. -/
def Clock.changes (c : Clock) : List Nat :=
  c.members.flatMap (fun e => (e.2.pending.map (·.2)).toList ++ e.2.silent.toList ++ e.2.joinAt.toList ++ e.2.leaveAt.toList ++ e.2.goneAt.toList)
/-- The next change of the group ceiling: its tick and code. -/
def Clock.nextGroup (c : Clock) (t : Nat) : Option (Nat × Nat) :=
  let now := c.groupAt t
  let l := c.changes.filter (fun u => decide (t < u) && c.groupAt u != now)
  match l with
  | [] => none
  | a :: r => let u := r.foldl min a; some (u, c.groupAt u)
/-- CLSTAT's reply (R270). -/
def State.clstatWord (s : State) (sel : Bool) : Word :=
  let c := s.clk
  if sel then
    match c.nextGroup s.gtick with
    | some (u, code) => BitVec.ofNat 64 (code * 2 ^ 48 + u % 2 ^ 48)
    | none => 0
  else
    let bit := fun (b : Bool) (n : Nat) => if b then 2 ^ n else 0
    BitVec.ofNat 64 ((if c.isMember then c.present.length * 2 ^ 15 else 0) + bit (!c.openRounds.isEmpty) 14 + bit c.isMember 13 +
      bit s.outStep 12 + c.local_ * 2 ^ 6 + c.groupAt s.gtick)
def State.clstat (s : State) (d : UnitCmd) : State :=
  if d.a.extractLsb' 1 63 != 0 then s.clkAnswer d (copErr errRsvd)
  else
    let s := s.clkSettle
    s.clkAnswer d (s.clstatWord (d.a.getLsbD 0))
/-- CLCEIL (R269). -/
def State.clceil (s : State) (d : UnitCmd) : State :=
  let code := (d.a.extractLsb' 0 6).toNat
  if d.a.extractLsb' 6 58 != 0 then s.clkAnswer d (copErr errRsvd)
  else if 36 < code then s.clkAnswer d (copErr errRange)
  else if !s.host.hkduty.getLsbD 4 then s.clkAnswer d (copErr errDuty)
  else (s.clkSettle.onClk (fun c => { c with clceil := code })).localChange [d]

/-! ### CLOCK datagrams (19 R473, R478) -/

/-- The function that a CLOCK datagram asks for: its payload's function code and operand. -/
def State.clockRun (s : State) (d : Datagram) : State :=
  let fn := num d.payload 0 1
  let w : CF := ⟨0, 0, 0, 0, 0, 0, 0⟩
  let x : UnitCmd := { core := 128, id := clockId, job := fwJob, op := .clstat w, a := BitVec.ofNat 64 (num d.payload 8 8), b := 0,
                       data := [], banks := 0, rows := 0 }
  if fn = 0x40 then s.cljoin x else if fn = 0x41 then s.clleave x else if fn = 0x43 then s.clceil x
  else s.clkAnswer x (copErr errRsvd)
/-- The CLOCK datagrams, one at a time in the order of their SEQ. -/
def State.clockNext (s : State) : Nat → State
  | 0 => s
  | n + 1 =>
    match s.host.clockCur, s.host.clockBusy with
    | none, d :: rest => ((s.onHost (fun h => { h with clockCur := some d.seq, clockBusy := rest })).clockRun d).clockNext n
    | _, _ => s
def State.clockGo (s : State) : State := s.clockNext s.host.clockBusy.length

def execCljoin (f : CF) (s : State) : Host.Outcome State Fault Refusal :=
  commitCop s (fun s => s.copIssue f houseOnly (.cljoin f) [] (·.cljoin ·))
def execClleave (f : CF) (s : State) : Host.Outcome State Fault Refusal :=
  commitCop s (fun s => s.copIssue f houseOnly (.clleave f) [] (·.clleave ·))
def execClstat (f : CF) (s : State) : Host.Outcome State Fault Refusal :=
  commitCop s (fun s => s.copIssue f anyKind (.clstat f) [] (·.clstat ·))
def execClceil (f : CF) (s : State) : Host.Outcome State Fault Refusal :=
  commitCop s (fun s => s.copIssue f houseOnly (.clceil f) [] (·.clceil ·))

end Sys2Proof.Machine
end

