-- ==== Sys2Proof/Machine/ClockEvents.lean ====
section
/-! DEFINITION. What happens to the clock unit (18_group_clock_col.md): the flits that arrive (R456 to R468) and its
timers. Each event first brings the members up to the tick. A flit of another TYPE than its event's, of those that R457 lists or not,
is dropped. -/
namespace Sys2Proof.Machine

/-- The clock unit's events end by taking up the next CLOCK datagram, if the one before it has been answered. -/
def clkDone (s : State) : Host.Outcome State Fault Refusal := .next s.clockGo

/-! ### SYNC (R456, R467) -/

/-- The offset estimate of an answer that arrives at `t4` (R456). -/
def offsetOf (m : ColMsg) (t4 : Nat) : Int := (((m.t2 : Int) - m.t1) - ((t4 : Int) - m.t3)) / 2
/-- An estimate towards the parent: the rate is to correct it; above 20 ns for 100 µs is out of step, 5 ns or less is in step again
(R456). -/
def Clock.estimate (c : Clock) (off : Int) (t : Nat) : Clock :=
  let c := { c with offset := off, slew := off, offOut := c.offOut || c.offLate t }
  if 20 < off.natAbs then { c with offBad := some (c.offBad.getD t) }
  else if off.natAbs ≤ 5 then { c with offBad := none, offOut := false, linkOut := false }
  else { c with offBad := none }
/-- A SYNC on every link that is up, 10 µs after the one before (R456). -/
def State.syncGo (s : State) : State :=
  (upPorts s).foldl (fun s p =>
    let l := s.linkAt p
    if s.gtick < l.syncAt + 10000 then s
    else (s.setLink p { l with syncAt := s.gtick }).colVia p { colZero with t1 := s.gtick }) s
/-- The port towards the sponsor. -/
def State.sponsorPort (s : State) (j : Joining) : Nat := (s.fab.route.get 0 j.sponsor).toNat % 16
/-- A joiner that has its answer sets its tick once, then slews, and floods JOIN when its estimate is within 5 ns (R467). -/
def State.syncJoin (s : State) (j : Joining) (off : Int) : State :=
  if j.stage = 0 then
    if s.clk.present.isEmpty then s
    else
      let step := fun (t : Nat) => ((t : Int) + off).toNat % 2 ^ 64
      { s with gtick := step s.gtick,
               clk := { s.clk with joining := some { j with stage := 1, since := step j.since }, offset := off, slew := 0 } }
  else
    let s := s.onClk (fun c => { c with offset := off, slew := off })
    if j.stage = 1 && decide (off.natAbs ≤ 5) then
      (s.onClk (fun c => { c with joining := some { j with stage := 2 } })).flood tyJoin s.localCeil ownModule 0
    else s
/-- SYNC: the first flit of an exchange, its t3 zero, is answered with the ticks of its receipt and of the answer; an answer gives the
estimate (R456; log 16). -/
def execSync (m : ColMsg) (s : State) : Host.Outcome State Fault Refusal :=
  if m.ty != tySync then clkDone s
  else if !s.colOk m then clkDone (s.badAuth m.port)
  else
    let s := s.clkSettle
    if m.t3 = 0 then clkDone (s.colVia m.port { colZero with t1 := m.t1, t2 := s.gtick, t3 := s.gtick })
    else
      let off := offsetOf m s.gtick
      match s.clk.joining with
      | some j => clkDone (if s.sponsorPort j = m.port then s.syncJoin j off else s)
      | none => clkDone (if s.parentPort = some m.port then s.onClk (fun c => c.estimate off s.gtick) else s)
/-- OUT_OF_STEP_TIMEOUT: what has lasted for 100 µs, the parent link down or an estimate above 20 ns, puts the module out of step
until an estimate of 5 ns or less; the links that are due exchange SYNC flits (R456). -/
def execOutOfStepTimeout (s : State) : Host.Outcome State Fault Refusal :=
  let s := s.clkSettle
  clkDone (s.onClk (fun c => { c with linkOut := c.linkOut || s.parentLost, offOut := c.offOut || c.offLate s.gtick })).syncGo

/-! ### Ceilings (R460, R462, R464) -/

/-- A ceiling of a member taken up: one for a later tick is pending; one whose tick has passed takes effect at once, and where that
changes a ceiling in effect the module is out of step until it has followed (R464). -/
def Clock.takeCeil (c : Clock) (m : ColMsg) (t : Nat) : Clock :=
  let x := c.mem m.origin
  if t < m.tick then c.setMem m.origin { x with pending := some (m.code, m.tick) }
  else
    let late := if m.code = x.ceil then c else { c with lateUntil := t + 100 }
    late.setMem m.origin { x with ceil := m.code, since := m.tick, pending := none, fallen := false, silent := if x.fallen then none else x.silent }
/-- A ceiling notice applied (R460, R462 to R466, R468): one that repeats a tick in effect, or an earlier one, is a heartbeat and
changes nothing; one with the code of its origin's open round ends that round, as a leave where the round was one; another ends a
raise round unfinished; and what a member has fallen to for its silence only a round lifts. -/
def Clock.applyCeil (c : Clock) (m : ColMsg) (t : Nat) : Clock :=
  let x := c.mem m.origin
  let closes := c.openRounds.contains (m.origin, m.code)
  let ended := (c.shuts m.origin).freed m.origin m.tick
  if m.tick ≤ x.since then c
  else if closes then
    if x.leaving then ended.setMem m.origin { ended.mem m.origin with leaving := false, leaveAt := some m.tick } else ended.takeCeil m t
  else if x.leaving then (if x.fallen then c else c.takeCeil m t)
  else if x.fallen then c.shuts m.origin
  else (c.shuts m.origin).takeCeil m t
/-- CEIL (R462). A module that is not a member applies none; a joiner has its table from its sponsor. -/
def execCeil (m : ColMsg) (s : State) : Host.Outcome State Fault Refusal :=
  let s := s.clkSettle
  if m.ty != tyCeil then clkDone s
  else match s.takeNotice m with
  | (s, false) => clkDone s
  | (s, true) =>
    if (s.clk.mem m.origin).present || (s.clk.mem m.origin).joinAt.isSome then clkDone (s.onClk (fun c => c.applyCeil m s.gtick)).clkSettle
    else clkDone s
/-- A notice that opens a round of its origin: noted and confirmed (R463). -/
def State.confirmRound (s : State) (m : ColMsg) : State :=
  if !s.clk.isMember || !(s.clk.mem m.origin).present then s
  else (s.onClk (·.opens m.origin m.code)).flood tyConfirm 0 m.origin 0
/-- RAISE (R463). -/
def execRaise (m : ColMsg) (s : State) : Host.Outcome State Fault Refusal :=
  let s := s.clkSettle
  if m.ty != tyRaise then clkDone s
  else match s.takeNotice m with
  | (s, false) => clkDone s
  | (s, true) => clkDone (s.confirmRound m)
/-- CONFIRM (R463): the raiser's own round ends with the last one. -/
def execConfirm (m : ColMsg) (s : State) : Host.Outcome State Fault Refusal :=
  let s := s.clkSettle
  if m.ty != tyConfirm then clkDone s
  else match s.takeNotice m with
  | (s, false) => clkDone s
  | (s, true) =>
    if m.subj != ownModule then clkDone s
    else clkDone (s.onClk (fun c => { c with round := c.round.map (fun r => { r with confirmed := r.confirmed ++ [m.origin] }) })).roundsGo
/-- LEAVE (R468). -/
def execLeave (m : ColMsg) (s : State) : Host.Outcome State Fault Refusal :=
  let s := s.clkSettle
  if m.ty != tyLeave then clkDone s
  else match s.takeNotice m with
  | (s, false) => clkDone s
  | (s, true) => clkDone ((s.onClk (fun c => c.setMem m.origin { c.mem m.origin with leaving := (c.mem m.origin).present })).confirmRound m)

/-! ### Silence and eviction (R465, R466) -/

/-- The earliest SILENT tick held for a member stands. -/
def Member.quietFrom (x : Member) (t : Nat) : Member :=
  { x with silent := some (match x.silent with | some u => min u t | none => t) }
/-- SILENT (R465). One whose tick has passed takes effect at once, and puts the module out of step where it changes a ceiling
(R464). -/
def execSilent (m : ColMsg) (s : State) : Host.Outcome State Fault Refusal :=
  let s := s.clkSettle
  if m.ty != tySilent then clkDone s
  else match s.takeNotice m with
  | (s, false) => clkDone s
  | (s, true) =>
    let x := s.clk.mem m.subj
    let late := decide (m.tick ≤ s.gtick) && x.ceil != 0
    if x.present && !x.fallen then
      clkDone (s.onClk (fun c => { c.setMem m.subj (x.quietFrom m.tick) with lateUntil := if late then s.gtick + 100 else c.lateUntil })).clkSettle
    else clkDone s
/-- EVICT (R466). -/
def execEvict (m : ColMsg) (s : State) : Host.Outcome State Fault Refusal :=
  let s := s.clkSettle
  if m.ty != tyEvict then clkDone s
  else match s.takeNotice m with
  | (s, false) => clkDone s
  | (s, true) =>
    if m.subj = ownModule then clkDone (if s.clk.isMember then s.outOfGroup else s)
    else clkDone ((s.onClk (·.evicts m.subj m.origin)).confirmRound m).roundsGo
/-- HEARTBEAT_TIMER (R465), and SYNC flits on the links that are due (R456). -/
def execHeartbeatTimer (s : State) : Host.Outcome State Fault Refusal :=
  let s := s.pump.clkSettle
  if !s.clk.isMember || s.gtick < s.clk.beat + 20000 then clkDone s.syncGo
  else
    let x := s.clk.own
    clkDone ((s.onClk (fun c => { c with beat := s.gtick })).flood tyCeil x.ceil 0 x.since).syncGo
/-- SILENCE_TIMEOUT: the first member not heard for 70 µs counts as silent; the host is told (R465). -/
def execSilenceTimeout (s : State) : Host.Outcome State Fault Refusal :=
  let s := s.clkSettle
  if !s.clk.isMember then clkDone s
  else match s.clk.members.find? (fun e => e.1 != ownModule && e.2.present && !e.2.mute && decide (e.2.heard + 70000 ≤ s.gtick)) with
    | none => clkDone s
    | some e =>
      let x := { e.2 with mute := true }
      let x := if x.fallen then x else x.quietFrom (s.gtick + lead)
      clkDone (((s.onClk (·.setMem e.1 x)).flood tySilent 0 e.1 (s.gtick + lead)).event 19 0 [e.1])
/-- The round of an eviction: EVICT opens it, or joins the one that is open, which then needs every CONFIRM anew (R463, R466;
log 16). -/
def State.evictRound (s : State) (subj : Nat) : State :=
  match s.clk.round with
  | none => s.openRound tyEvict subj ⟨2, s.clk.local_, [], 0, 0, []⟩
  | some r => s.openRound tyEvict subj { r with confirmed := [] }
/-- EVICTION_TIMEOUT: 1 ms after the earliest SILENT tick the lowest member that is not silent evicts, and opens a round
(R466). -/
def execEvictionTimeout (s : State) : Host.Outcome State Fault Refusal :=
  let s := s.clkSettle
  let lowest := s.clk.members.find? (fun e => e.2.present && !e.2.mute)
  if !s.clk.isMember || (lowest.map (·.1)) != some ownModule then clkDone s
  else match s.clk.members.find? (fun e => e.1 != ownModule && e.2.present && e.2.mute &&
      (match e.2.silent with | some u => decide (u + 1000000 ≤ s.gtick) | none => false)) with
    | none => clkDone s
    | some e => clkDone ((s.onClk (·.evicts e.1 ownModule)).evictRound e.1)
/-- CONFIRMATION_RETRY: a round without every CONFIRM after 200 µs is announced again (R463). -/
def execConfirmationRetry (s : State) : Host.Outcome State Fault Refusal :=
  let s := s.clkSettle
  match s.clk.round with
  | none => clkDone s
  | some r =>
    if s.gtick < r.sentAt + 200000 then clkDone s
    else
      clkDone ((s.onClk (fun c => { c with round := some { r with sentAt := s.gtick } })).flood (if r.kind = 1 then tyLeave else tyRaise) r.code 0 0)

/-! ### Joins (R467) -/

/-- The sponsor answers the join in hand: a JOIN notice for each member, with its ceiling in effect, and a second one for its pending
ceiling; and a SYNC flit (log 16). -/
def State.answerJoin (s : State) : State :=
  match s.clk.serving with
  | [] => s
  | (j, _) :: _ =>
    let s := (s.clk.members.filter (fun e => e.2.present)).foldl (fun s e =>
      let s := s.flood tyJoin e.2.ceil e.1 e.2.since
      match e.2.pending with
      | some (c, u) => s.flood tyJoin c e.1 u
      | none => s) s
    s.colTo j { colZero with t1 := s.gtick }
/-- The join in hand is over, and the next one is served. -/
def State.nextJoin (s : State) : State := (s.onClk (fun c => { c with serving := c.serving.drop 1 })).answerJoin
/-- A JOIN request: served by the sponsor that it names, in its turn; on its way to it, forwarded as it stands, without a check (R467;
17 R430). -/
def State.joinRequest (s : State) (m : ColMsg) : State :=
  if m.subj != ownModule then
    let e := s.fab.route.get 0 m.subj
    if !e.getLsbD 7 || decide (16 ≤ m.hops + 1) then s else s.colOut { m with port := e.toNat % 16, hops := m.hops + 1 }
  else if !s.colOk m then s.badAuth m.port
  else if !s.clk.isMember || decide (4096 ≤ s.clk.present.length) || s.clk.serving.any (fun j => j.1 = m.origin) then s
  else
    let first := s.clk.serving.isEmpty
    let s := s.onClk (fun c => { c with serving := c.serving ++ [(m.origin, s.gtick)] })
    if first then s.answerJoin else s
/-- A joiner's table takes in one notice of its sponsor's answer. -/
def State.joinAnswer (s : State) (m : ColMsg) : State :=
  let x := { s.clk.mem m.subj with present := true, heard := s.gtick }
  s.onClk (·.setMem m.subj (if s.gtick < m.tick then { x with pending := some (m.code, m.tick) } else { x with ceil := m.code, since := m.tick }))
/-- A joiner's flooded JOIN, which its sponsor admits. -/
def State.admitJoin (s : State) (m : ColMsg) : State :=
  match s.clk.serving with
  | (j, _) :: _ =>
    if j = m.origin && s.clk.isMember then
      let t := s.gtick + lead
      let s := s.onClk (fun c => c.setMem j { c.mem j with ceil := m.code, joinAt := some t, since := t, seq := none })
      (s.flood tyAdmit m.code j t).nextJoin
    else s
  | [] => s
/-- A JOIN of a module that is no member is numbered apart from the notices of a member, which begin from 0 at its admission (R458). -/
def State.takeJoin (s : State) (m : ColMsg) : State × Bool :=
  let x := s.clk.mem m.origin
  if !s.colOk m then (s.badAuth m.port, false)
  else if m.origin = ownModule || !newer x.joinSeq m.seq then (s, false)
  else ((s.onClk (·.setMem m.origin { x with joinSeq := some m.seq })).forwardCol m, true)
/-- JOIN: a request, which holds no members; the sponsor's answer; or the joiner's flooded notice (R467; log 16). -/
def execJoin (m : ColMsg) (s : State) : Host.Outcome State Fault Refusal :=
  let s := s.clkSettle
  if m.ty != tyJoin then clkDone s
  else if m.count = 0 && m.subj != m.origin then clkDone (s.joinRequest m)
  else
    let asked := match s.clk.joining with | some j => j.sponsor = m.origin | none => false
    if asked || (s.clk.mem m.origin).present then
      match s.takeNotice m with
      | (s, b) => clkDone (if b && asked then s.joinAnswer m else s)
    else match s.takeJoin m with
      | (s, b) => clkDone (if b && m.subj = m.origin then s.admitJoin m else s)
/-- ADMIT (R467): the joiner is a member from the tick named. -/
def execAdmit (m : ColMsg) (s : State) : Host.Outcome State Fault Refusal :=
  let s := s.clkSettle
  if m.ty != tyAdmit then clkDone s
  else match s.takeNotice m with
  | (s, false) => clkDone s
  | (s, true) =>
    let own := m.subj = ownModule
    if own && s.clk.joining.isNone then clkDone s
    else
      let x := s.clk.mem m.subj
      let x := { x with joinAt := some m.tick, since := m.tick, seq := none, ceil := if own then s.localCeil else m.code }
      clkDone (s.onClk (fun c => { c.setMem m.subj x with local_ := if own then s.localCeil else c.local_ })).clkSettle
/-- The sponsor gives up a join that it has served for 10 ms (R467). -/
def State.joinServed (s : State) : State :=
  match s.clk.serving with
  | (_, t) :: _ => if t + 10000000 ≤ s.gtick then s.nextJoin else s
  | [] => s
/-- JOIN_TIMEOUT: a join not admitted within 10 ms gives GROUP; a sponsor gives up one as old (R467). -/
def execJoinTimeout (s : State) : Host.Outcome State Fault Refusal :=
  let s := s.clkSettle.joinServed
  match s.clk.joining with
  | none => clkDone s
  | some j =>
    if s.gtick < j.since + 10000000 then clkDone s
    else clkDone ((s.onClk (fun c => { c with joining := none, members := [] })).clkAnswer j.cmd (copErr errGroup))

/-! ### Time (R460) -/

/-- CEILING_EFFECTIVE: what has reached its tick takes effect (R460). -/
def execCeilingEffective (s : State) : Host.Outcome State Fault Refusal := clkDone s.clkSettle

end Sys2Proof.Machine
end

