-- ==== Sys2Proof/Machine/Combine.lean ====
section
/-! DEFINITION. The combine unit (08_coprocessor_instructions.md R257 to R259, 14_expert_vats.md R396 to R398): CBSET,
CBPUT, CBSTAT and REMOTE_PUT. -/
namespace Sys2Proof.Machine

def State.slotAt (s : State) (c : Nat) : Slot46 := s.comb.slots.get Slot46.empty c
def State.setSlot (s : State) (c : Nat) (x : Slot46) : State := s.onComb (fun u => { u with slots := u.slots.set Slot46.empty c x })
/-- A row length in FP32 elements; 0 stands for 4,096 (R257). -/
def rowLen (n : Nat) : Nat := if n = 0 then 4096 else n

/-- CBSET; false while it waits for a free origin slot (R257). A row that is mapped needs no page yet. -/
def State.cbset (s : State) (d : UnitCmd) : State × Bool :=
  let len := rowLen (d.a.extractLsb' 31 12).toNat
  let core := (d.a.extractLsb' 20 6).toNat
  let tgt := d.a.getLsbD 19
  let n := (d.a.extractLsb' 0 16).toNat
  let row := (d.b.extractLsb' 0 57).toNat
  if d.a.extractLsb' 43 21 != 0 || d.b.extractLsb' 57 7 != 0 || (tgt && d.a.extractLsb' 20 11 != 0) then (s.refuse d errRsvd, true)
  else if !tgt && s.jobOf core != some d.job then (s.refuse d errOwner, true)
  else if (s.slotAt n).k != 0 then (s.refuse d errState, true)
  else match s.jobMapped d.job combReq.die row (4 * len) true (spanFuel (4 * len)) with
    | (s, false) => (s.refuse d errTable, true)
    | (s, true) =>
      let x : Slot46 :=
        { Slot46.empty with k := (d.a.extractLsb' 16 3).toNat + 1, row := row, len := len, owner := d.job,
                            target := if tgt then none else some (core, (d.a.extractLsb' 26 5).toNat),
                            cgen := if tgt then 0 else (s.core core).cgen }
      if !tgt then ((s.setSlot n x).answer d 0, true)
      else match s.allocWm d.core d.job (s.core d.core).tcbHeld with
        | (s, none) => (s, false)
        | (s, some w) => ((s.setSlot n { x with wm := BitVec.ofNat 32 w }).answer d (BitVec.ofNat 64 w), true)

/-- The sum of one element over the staged rows, in ascending rank, each step rounded to FP32; a NaN is the canonical one
(R258). -/
def sumRanks (l : List (BitVec 32)) : BitVec 32 :=
  let y := match l with
    | [] => 0
    | y :: rest => rest.foldl (fun y z =>
        BitVec.ofNat 32 (f32Rne ((f32Val y.toNat).add .rne (f32Val z.toNat)).1).1) y
  if (f32Val y.toNat).isNan then BitVec.ofNat 32 (f32Rne .nan).1 else y
def Slot46.sum (x : Slot46) : List (BitVec 32) :=
  (List.range x.len).map (fun e => sumRanks ((List.range x.k).map (fun r => (x.stage.get [] r).getD e 0)))

/-- The completion target (R258, R398): a semaphore of a context that lives, or the watermark, void where the row was not
wholly written. -/
def State.combTarget (s : State) (x : Slot46) (done : Bool) : State :=
  match x.target with
  | none => s.settleWm x.wm.toNat done
  | some (c, k) =>
    if !done || s.jobOf c != some x.owner || (s.core c).cgen != x.cgen then s
    else if !s.semOk c k then s.deliver c causeHandle 0
    else match s.semAdd c k 1 with
      | some s => s
      | none => s.deliver c causeSem 0
/-- A slot whose mask is full: the combined row is written, as far as it has pages, and the slot is idle again (R258, R398). A
part that falls on a poisoned block is dropped, and the context `by_` whose put it was receives cause 0x0B (10 R317). -/
def State.combine (s : State) (n : Nat) (x : Slot46) (by_ : Option Nat) : State :=
  let r := s.jobWrite x.owner combReq 0 true x.row (wordsBytes x.sum) (spanFuel (4 * x.len))
  let ok := decide (r.2 = .ok)
  let s := (r.1.setSlot n Slot46.empty).combTarget x ok
  let s := match r.2, by_ with | .bad, some c => s.deliver c causeEcc 0 | _, _ => s
  if ok then s else s.event 23 x.owner [n]

/-- What a put gives: the reply, or that it waits for a page. -/
inductive PutRes where
  | done (v : Word)
  | refused (reason : Nat)
  | wait
  deriving DecidableEq, Repr

/-- A partial put into a slot by a job, from the context of core `by_` or over the fabric (R258, R396). -/
def State.put (s : State) (job va n r : Nat) (by_ : Option Nat) (ctxid : Word) : State × PutRes :=
  let x := s.slotAt n
  if x.k = 0 || x.owner != job then (s, .refused errOwner)
  else if x.k ≤ r then (s, .refused errRange)
  else if x.mask.getLsbD r then (s, .refused errDup)
  else match s.jobRead job combReq 7 by_ ctxid va (4 * x.len) (spanFuel (4 * x.len)) with
    | (s, .wait) => (s, .wait)
    | (s, .ok l) =>
      let x := { x with stage := x.stage.set [] r (bytesWords l), mask := setBit x.mask r true }
      if x.mask.toNat = 2 ^ x.k - 1 then
        match s.jobSettled x.owner combReq true x.row (4 * x.len) (spanFuel (4 * x.len)) with
        | (s, false) => (s, .wait)
        | (s, true) => (s.combine n x by_, .done (BitVec.ofNat 64 (256 + x.mask.toNat)))
      else (s.setSlot n x, .done (BitVec.ofNat 64 x.mask.toNat))
    | (s, _) => (s, .refused errTable)
def State.cbput (s : State) (d : UnitCmd) : State × Bool :=
  if d.a.extractLsb' 57 7 != 0 || d.b.extractLsb' 19 45 != 0 then (s.refuse d errRsvd, true)
  else match s.put d.job d.a.toNat (d.b.extractLsb' 0 16).toNat (d.b.extractLsb' 16 3).toNat (some d.core) (s.core d.core).ctx.ctxid with
    | (s, .wait) => (s, false)
    | (s, .done v) => (s.answer d v, true)
    | (s, .refused e) => (s.refuse d e, true)
def State.cbstat (s : State) (d : UnitCmd) : State :=
  let x := s.slotAt (d.a.extractLsb' 0 16).toNat
  if d.a.extractLsb' 16 48 != 0 then s.refuse d errRsvd
  else if x.k = 0 then s.answer d 0
  else if x.owner != d.job then s.refuse d errOwner
  else s.answer d (BitVec.ofNat 64 ((x.k - 1) * 2 ^ 16 + 2 ^ 15 + x.mask.toNat))

/-- The unit tries a command; false says that it waits. -/
def State.combTry (s : State) (d : UnitCmd) : State × Bool :=
  match d.op with
  | .cbset _ => s.cbset d
  | .cbput _ => s.cbput d
  | .cbstat _ => (s.cbstat d, true)
  | _ => (s, true)
/-- The unit goes on with the commands that wait, oldest first, while they can be applied; behind a remote put that waits none
is (R247, 14 R396). -/
def State.combGo (s : State) : Nat → State
  | 0 => s
  | n + 1 =>
    if s.comb.putting then s
    else match s.comb.waiting with
    | [] => s
    | d :: rest =>
      match s.combTry d with
      | (s, true) => (s.onComb (fun u => { u with waiting := rest })).combGo n
      | (s, false) => s
/-- A command arrives at the unit. -/
def State.combCmd (s : State) (d : UnitCmd) : State :=
  let s := s.onComb (fun u => { u with waiting := u.waiting ++ [d] })
  s.combGo s.comb.waiting.length

def execCbset (f : CF) (s : State) : Host.Outcome State Fault Refusal :=
  commitCop s (fun s => s.copIssue f notLookup (.cbset f) [] (·.combCmd ·))
def execCbput (f : CF) (s : State) : Host.Outcome State Fault Refusal :=
  commitCop s (fun s => s.copIssue f notLookup (.cbput f) [] (·.combCmd ·))
def execCbstat (f : CF) (s : State) : Host.Outcome State Fault Refusal :=
  commitCop s (fun s => s.copIssue f notLookup (.cbstat f) [] (·.combCmd ·))

/-! ### Remote puts (14 R383, R396) -/

/-- The fields of a 16-byte put: address, slot, rank, and whether a bit that is to be zero is not. -/
def putFields (l : List Byte) : Nat × Nat × Nat × Bool :=
  let a := num l 0 8
  (a % 2 ^ 57, num l 8 2, num l 10 1 % 8, decide (2 ^ 57 ≤ a) || decide (8 ≤ num l 10 1) || num l 11 5 != 0)
/-- One remote put; true once it is applied or dropped. -/
def State.remotePutOne (s : State) (job : Nat) (l : List Byte) : State × Bool :=
  let f := putFields l
  if f.2.2.2 then (s.event 22 job [f.2.1, errRsvd], true)
  else match s.put job f.1 f.2.1 f.2.2.1 none 0 with
    | (s, .wait) => (s, false)
    | (s, .done _) => (s, true)
    | (s, .refused e) => (s.event 22 job [f.2.1, e], true)
/-- REMOTE_PUT: the next committed part in the put window applies one of its puts (R397: in commit order). The commands of the
cores that wait for the unit go first (08 R247); a put that waits for a page holds the unit as a CBPUT does (14 R396). -/
def execRemotePut (s : State) : Host.Outcome State Fault Refusal :=
  let s := s.combGo s.comb.waiting.length
  match s.vat.parts.filter (fun p => p.vat = 2048) with
  | p :: _ =>
    if !s.comb.putting && !s.comb.waiting.isEmpty then .next s
    else match s.remotePutOne p.job (p.bytes.take 16) with
      | (s, false) => .next (s.onComb (fun u => { u with putting := true }))
      | (s, true) =>
        let left := p.bytes.drop 16
        let s := (s.onComb (fun u => { u with putting := false })).onVat (fun u =>
          { u with parts := if left.isEmpty then u.parts.erase p else u.parts.replace p { p with bytes := left } })
        .next (s.combGo s.comb.waiting.length)
  | [] => .next s

end Sys2Proof.Machine
end

