-- ==== Sys2Proof/Machine/Control.lean ====
section
/-! DEFINITION. Transfers of control, hardware loops, traps, the task flow, special registers and configuration
(04_scalar_control_instructions.md R136 to R154). A transfer takes effect after its bundle's last issue. -/
namespace Sys2Proof.Machine

/-- The transfer of the bundle in hand (R136). -/
def Core.goTo (k : Core) (x : Xfer) : Core := k.onSeq (fun q => { q with xfer := some x })
/-- JMPR's and CALLR's target (R137). -/
def jumpTarget (k : Ctx) (f : SF) : Nat := (k.src f.sa + immS f).toNat % 2 ^ 57
/-- CALL's target: an offset in 4-byte units from the bundle (R137). -/
def callTarget (u : UnitCtx) (f : SF) : Nat := (BitVec.ofNat 64 u.bundle + (immS f <<< 2)).toNat % 2 ^ 57

def execJmpr (f : SF) (s : State) : Host.Outcome State Fault Refusal :=
  commitCore s (fun k =>
    let t := jumpTarget k.ctx f
    if t % 4 != 0 then k.fault s.unit causeAlign else k.goTo (.jump t false))
/-- The push and then the transfer, unless the push faults (R137, R138). -/
def callTo (t : Nat) (s : State) : Host.Outcome State Fault Refusal :=
  commitState s (fun s => (s.rasPush s.unit (s.unit.bundle + s.unit.len)).onCore s.unit.core (·.goTo (.jump t true)))
def execCall (f : SF) (s : State) : Host.Outcome State Fault Refusal := callTo (callTarget s.unit f) s
def execCallr (f : SF) (s : State) : Host.Outcome State Fault Refusal :=
  let t := jumpTarget (s.core s.unit.core).ctx f
  if t % 4 != 0 then commitCore s (fun k => k.fault s.unit causeAlign) else callTo t s
/-- RET pops an entry: a return address, or a trap-return entry (R137, R139, 09 R284). -/
def execRet (_ : SF) (s : State) : Host.Outcome State Fault Refusal :=
  commitCore s (fun k =>
    match k.ctx.ras with
    | [] => if k.ctx.depth = 0 then k.fault s.unit causeUnder else k
    | e :: _ =>
      if e % 4 = 0 then (k.onCtx (·.rasPop)).goTo (.jump e false)
      else if e % 4 = 1 then (k.onCtx (·.rasPop)).goTo .trapRet
      else k.fault s.unit causeAlign)

/-! ### Hardware loops (R141, R142) -/

/-- The end address of a loop. -/
def loopEndAt (u : UnitCtx) (f : SF) : Nat := ((u.bundle : Int) + 4 * (f.imm.extractLsb' 0 24).toInt).toNat % 2 ^ 57
/-- Set a counter, or for a trip of 0 transfer to the bundle after the end bundle (R141). -/
def Core.setLoop (k : Core) (s : State) (f : SF) (trip : Nat) : Core :=
  let u := s.unit
  let n := (f.imm.extractLsb' 27 2).toNat
  let stop := loopEndAt u f
  let job := (k.job).getD fwJob
  let k1 := k.onCtx (fun x => { x with loop := x.loop.set LoopCtr.empty n ⟨trip, u.bundle + u.len, stop⟩ })
  if trip != 0 then k1
  else if !(s.inCode job stop) then k.fault u causeIllegal
  else
    let len := headerLen (BitVec.ofNat 32 (ofLe (s.codeBytes job stop 4)))
    k1.onSeq (fun q => { q with loopSkip := some (stop + len) })
def execLoop (f : SF) (s : State) : Host.Outcome State Fault Refusal :=
  commitCore s (fun k => k.setLoop s f ((k.ctx.src f.sa).toNat % 2 ^ 32))
/-- LOOPX pops the row pointers from a stream register (R142, 01 R28). -/
def execLoopx (f : SF) (s : State) : Host.Outcome State Fault Refusal :=
  commitCore s (fun k =>
    let q := (f.imm.extractLsb' 24 3).toNat
    let r := k.ctx.stream.get Stream.empty q
    match r.vecs with
    | [] => if r.bound then k else k.fault s.unit causeConfig
    | v :: rest =>
      let cur := lane 32 v 0
      let nxt := lane 32 v 1
      if nxt < cur then k.fault s.unit causeOp
      else
        ((k.onCtx (fun x => { x with stream := x.stream.set Stream.empty q { r with vecs := rest } })).result s.unit f 1
          (BitVec.ofNat 64 cur)).setLoop s f (nxt - cur))

/-! ### Traps and the task flow -/

/-- TRAP commits, then takes a restartable trap whose return point is the unit after it (R144). -/
def execTrap (f : SF) (s : State) : Host.Outcome State Fault Refusal :=
  commitCore s (fun k => k.trap ⟨causeTrap, s.unit.unit + 1, (f.imm.extractLsb' 0 16).setWidth 64, 0⟩)
/-- YIELD with PREQ = 0 has no effect; with PREQ = 1 the countdown stops and the context will be saved (R145). -/
def execYield (_ : SF) (s : State) : Host.Outcome State Fault Refusal :=
  commitCore s (fun k =>
    if k.ctx.sw.preq then (k.goTo .yield).onSeq (fun q => { q with preempt := none }) else k)
def execTend (_ : SF) (s : State) : Host.Outcome State Fault Refusal :=
  commitCore s (fun k => if k.seq.task.isNone then k.fault s.unit causeOp else k.goTo .tend)
def execWaittask (_ : SF) (s : State) : Host.Outcome State Fault Refusal :=
  commitCore s (fun k =>
    if k.seq.task.isSome || kindOf s.unit.core = .house then k.fault s.unit causeOp else k.goTo .waittask)

/-! ### Special registers (R148, R149) -/

def execGets (f : SF) (s : State) : Host.Outcome State Fault Refusal :=
  scalarOp f 1 (fun k => k.special s.gtick (f.imm.extractLsb' 0 5).toNat) s
/-- SETS of OVFPTR while entries stand in HBM is refused (R149). -/
def execSets (f : SF) (s : State) : Host.Outcome State Fault Refusal :=
  commitCore s (fun k =>
    let i := (f.imm.extractLsb' 0 5).toNat
    if i = 6 && k.ctx.depth > 528 then k.fault s.unit causeOp
    else k.after s.unit 1 (.special i (k.ctx.src f.sa)))

/-! ### Configuration (R150 to R154) -/

def execBlend (f : SF) (s : State) : Host.Outcome State Fault Refusal :=
  commitCore s (fun k => k.after s.unit 1 (.bank (f.imm.extractLsb' 0 2).toNat (f.imm.extractLsb' 2 3).toNat))
/-- TMIRROR pairs two registers of different banks, neither of them in another pair, within rows / 8 issue cycles; its
unpairing takes one (R21, R152). -/
def execTmirror (f : SF) (s : State) : Host.Outcome State Fault Refusal :=
  commitCore s (fun k =>
    let a := (f.imm.extractLsb' 0 4).toNat
    let b := (f.imm.extractLsb' 4 4).toNat
    if f.imm.getLsbD 8 then k.after s.unit 1 (.unpair a)
    else
      let other := fun x y => match k.pairedWith x with | some m => m != y | none => false
      if a / 4 = b / 4 || other a b || other b a then k.fault s.unit causeConfig
      else k.after s.unit (k.ctx.rows / 8) (.pair a b))
def execPortcfg (f : SF) (s : State) : Host.Outcome State Fault Refusal :=
  commitCore s (fun k => k.after s.unit 1 (.portcfg (f.imm.extractLsb' 16 3).toNat
    ⟨true, f.imm.getLsbD 15, f.imm.extractLsb' 0 15, k.ctx.src f.sa, k.ctx.src f.sb, 0⟩))
/-- The ring a parameter word describes (R154, 01 R25). -/
def Ring.ofWord (w : Word) : Ring :=
  { Ring.empty with base := (w.extractLsb' 0 15).toNat, slotb := (w.extractLsb' 15 12).toNat, nslot := (w.extractLsb' 27 6).toNat }
def execRingcfg (f : SF) (s : State) : Host.Outcome State Fault Refusal :=
  commitCore s (fun k =>
    let w := k.ctx.src f.sa
    let r := Ring.ofWord w
    if w.extractLsb' 33 31 != 0 || r.nslot > 32 then k.fault s.unit causeConfig
    else if r.nslot != 0 && 256 * r.base + r.slotBytes * r.nslot > spadSize s.unit.core k.ctx then k.fault s.unit causeRange
    else k.after s.unit 1 (.ringcfg (f.imm.extractLsb' 0 3).toNat r))

end Sys2Proof.Machine
end

