-- ==== Sys2Proof/Machine/Approx.lean ====
section
/-! DEFINITION. The approximate vector functions VRCP, VRSQ, VEXP2 and VLOG2 (02_arithmetic.md R80, R81). Each defined
result is the correctly rounded one; the value is computed far beyond the bits the rounding looks at, with one sticky
bit below it for what is left (log 9). -/
namespace Sys2Proof.Machine

/-- The integer square root of `x`, for `x` below 2^(2·b). -/
def isqrt : Nat → Nat → Nat → Nat
  | 0, _, r => r
  | b + 1, x, r => if (r + 2 ^ b) * (r + 2 ^ b) ≤ x then isqrt b x (r + 2 ^ b) else isqrt b x r

/-- A magnitude rounded RNE to 12 significant bits (R80). -/
def round12 (s : Bool) (m : Nat) (e : Int) : FVal :=
  let q := log2Val m e - 11
  .fin s (roundAt .rne 0 s m e q).1 q

/-- A quotient with its sticky bit: 2·⌊a ÷ b⌋, plus 1 where a remainder is left. -/
def divSticky (a b : Nat) : Nat := 2 * (a / b) + (if a % b = 0 then 0 else 1)

/-- 1/x of a nonzero finite x, to 12 significant bits. -/
def rcpVal (s : Bool) (m : Nat) (e : Int) : FVal :=
  let t := bitLen m + 40
  round12 s (divSticky (2 ^ t) m) (-(t : Int) - 1 - e)

/-- 1/√x of a positive finite x, to 12 significant bits. -/
def rsqVal (m : Nat) (e : Int) : FVal :=
  let t : Int := (e + bitLen m + 63) / 2
  let p := 2 ^ (2 * t - e).toNat
  let n := isqrt 48 (p / m) 0
  round12 false (2 * n + (if n * n * m = p then 0 else 1)) (-t - 1)

/-- ln 2 in units of 2^−256. -/
def ln2Fix : Nat := 0xb17217f7d1cf79abc9e3b39803f2f6af40f343267298b62d8a0d175b8baafa2b

/-- The sum of the exponential series, in units of 2^−256, for a `y` below 1: `k` counts the terms done. -/
def expSeries : Nat → Nat → Nat → Nat → Nat
  | 0, _, _, _ => 0
  | n + 1, k, y, t => t + expSeries n (k + 1) y (t * y / 2 ^ 256 / (k + 1))

/-- 2^x of a finite x. -/
def exp2Val (s : Bool) (m : Nat) (e : Int) : FVal :=
  let a : Int := if e + 256 < 0 then 0 else (m * 2 ^ (e + 256).toNat : Nat)
  let x := clampInt (-(300 * 2 ^ 256), 300 * 2 ^ 256) (if s then -a else a)
  let i := x / 2 ^ 256
  let f := (x % 2 ^ 256).toNat
  if f = 0 then .fin false 1 i
  else .fin false (2 * expSeries 90 0 (f * ln2Fix / 2 ^ 256) (2 ^ 256) + 1) (i - 257)

/-- The first `n` bits of log2 of `g`, a value from 1 to 2 in units of 2^−300. -/
def log2Bits : Nat → Nat → Nat → Nat
  | 0, _, acc => acc
  | n + 1, g, acc =>
    let h := g * g / 2 ^ 300
    if h ≥ 2 ^ 301 then log2Bits n (h / 2) (2 * acc + 1) else log2Bits n h (2 * acc)

/-- log2 x of a positive finite x. -/
def log2Fix (m : Nat) (e : Int) : FVal :=
  let l := log2Val m e
  if m = 2 ^ (bitLen m - 1) then .ofInt l
  else
    let n := l * 2 ^ 160 + (log2Bits 160 (m * 2 ^ (301 - bitLen m)) 0 : Nat)
    let d := 2 * n + 1
    .fin (decide (d < 0)) d.natAbs (-161)

/-- The four functions. -/
inductive ApproxFn where
  | rcp
  | rsq
  | exp2
  | log2
  deriving DecidableEq, Repr

/-- The special and the defined result of a function, before any rounding to FP32 (R80, R81). -/
def ApproxFn.val (fn : ApproxFn) (x : FVal) : FVal × Flags :=
  match fn, x with
  | _, .nan => (.nan, Flags.none)
  | .rcp, .inf s => (.zero s, Flags.none)
  | .rcp, .fin s m e => if m = 0 then (.inf s, Flags.DZ) else (rcpVal s m e, Flags.none)
  | .rsq, .inf s => if s then (.nan, Flags.IV) else (.zero false, Flags.none)
  | .rsq, .fin s m e =>
    if m = 0 then (.inf s, Flags.DZ) else if s then (.nan, Flags.IV) else (rsqVal m e, Flags.none)
  | .exp2, .inf s => if s then (.zero false, Flags.none) else (.inf false, Flags.none)
  | .exp2, .fin s m e => if m = 0 then (.fin false 1 0, Flags.none) else (exp2Val s m e, Flags.none)
  | .log2, .inf s => if s then (.nan, Flags.IV) else (.inf false, Flags.none)
  | .log2, .fin s m e =>
    if m = 0 then (.inf true, Flags.DZ) else if s then (.nan, Flags.IV) else (log2Fix m e, Flags.none)

/-- The FP32 value of a defined result: its rounding raises nothing but the overflow, and FZ flushes it with UF and NX
(R80). VRCP of a number just above 2^-128, whose quotient is finite and whose 12-bit rounding is 2^128, is no case that R80
names: infinity with OF and NX is a choice (log 9). -/
def definedF32 (fz : Bool) (v : FVal) : Nat × Flags :=
  let r := Fmt.f32.round .rne 0 false v
  if r.2.ov then (r.1, Flags.OFNX)
  else if fz && Fmt.f32.denormal r.1 then (r.1 / 2 ^ 31 * 2 ^ 31, Flags.UFNX)
  else (r.1, Flags.none)

/-- One lane of an approximate function, converted to its type with the instruction's mode (R80, R195). -/
def approx (fn : ApproxFn) (t : ETy) (mode : Rm) (rb : Nat) (fz : Bool) (code : Nat) : Nat × Flags :=
  let v := fn.val (t.valFz fz code)
  let d := definedF32 fz v.1
  let r := t.ofVal mode rb fz false (Fmt.f32.val d.1)
  (r.1, (v.2.or d.2).or r.2)

end Sys2Proof.Machine
end

