-- ==== Sys2Proof/Machine/Operands.lean ====
section
/-! DEFINITION. The operands of the vector slots: tile ports, operand ports, stream registers, latches and broadcasts
(03_bundle_encoding.md R99, R100; 01_machine_state.md R19, R28 to R31), the row result, its checks and its flags
(06_vector_instructions.md R187 to R191). -/
namespace Sys2Proof.Machine

/-! ### Fields -/

/-- The element type of a vector word. -/
def vType (f : VF) : ETy := ETy.ofCode f.ty.toNat
/-- F, the floating-point types of the vector slots (R188). -/
def ETy.isF : ETy → Bool
  | .f32 => true
  | .bf16 => true
  | .f16 => true
  | _ => false
/-- The rounding mode in force: the field's, or FPCTL.RM as read at issue (02 R56). -/
def vMode (k : Ctx) (f : VF) : Rm := Rm.ofCode (if f.rm = 7 then k.rm else f.rm.toNat)

/-! ### Stochastic draws (R191) -/

/-- The values a draw uses: read at the naming issue, and held with the pipe for its re-issues. What a re-issue draws from that
rounds stochastically although its naming issue did not is a choice: what stood at the naming issue (log 10). -/
def drawOf (k : Ctx) (u : UnitCtx) : Draw :=
  if u.n = 0 then Draw.ofWord k.seed k.fpStream (k.reg 23) else (Draw.ofWord u.cap.c2 u.cap.stream u.cap.c0).step u.n
/-- The 16-bit draw of destination lane `l`; only SR looks at it. -/
def rbOf (mode : Rm) (d : Draw) (row l : Nat) : Nat := if mode = .sr then d.rb row l else 0
/-- The pipe of an operation that draws, or may draw at a re-issue, keeps what stood at its naming issue (R191, 09 R517;
log 10). -/
def Core.keepDraw (k : Core) (u : UnitCtx) : Core :=
  if u.n = 0 && vecMayDraw u.word then
    let cap : Capture := ⟨k.ctx.reg 23, 0, k.ctx.seed, k.ctx.fpStream⟩
    let keep := fun (p : Pipe) => { p with cap := cap, hid := !vecDraws k.ctx u.word }
    k.onSeq (fun q => { q with pipes := q.pipes.set Pipe.empty u.unit (keep (q.pipes.get Pipe.empty u.unit)) })
  else k

/-! ### Ports and stream registers -/

/-- An access of an operand port: its address, checked and stepped at issue (01 R29). -/
def Core.usePort (k : Core) (u : UnitCtx) (n : Nat) (wr : Bool) : Core × Option Nat :=
  let p := k.ctx.port.get Port.empty n
  if !p.configured || p.write != wr then (k.fault u causeConfig, none)
  else
    let a := p.addr
    if a < 0 || (spadSize u.core k.ctx : Int) < a + 256 then (k.fault u causeRange, none)
    else (k.onCtx (fun x => { x with port := x.port.set Port.empty n p.step }), some a.toNat)
/-- A pop of a stream register (01 R28); the unit has waited where a bound register was empty. -/
def Core.popStream (k : Core) (u : UnitCtx) (n : Nat) : Core × Row :=
  let r := k.ctx.stream.get Stream.empty n
  match r.vecs with
  | v :: rest => (k.onCtx (fun x => { x with stream := x.stream.set Stream.empty n { r with vecs := rest } }), v)
  | [] => (if r.bound then k else k.fault u causeConfig, 0)

/-! ### Sources -/

/-- The element that an immediate broadcast stands for (R100). -/
def immElem (t : ETy) (i : BitVec 11) : Nat :=
  match t.fmt? with
  | some f => (f.round .rne 0 false (Fmt.imm11.val i.toNat)).1
  | none =>
    match t with
    | .b1 => i.toNat % 2
    | .e8m0 => i.toNat % 256
    | t => wrapInt t.w (clampInt t.range i.toInt)
/-- The same element in every lane. -/
def fillRow (w v : Nat) : Row := packLanes w (List.replicate (2048 / w) v)

/-- Read a source whose elements are `w` bits wide (R99). -/
def Core.vread (k : Core) (u : UnitCtx) (f : VF) (w : Nat) (code : BitVec 6) : Core × Row :=
  let c := code.toNat
  if c < 16 then (k, k.ctx.tileRow c u.tile)
  else if c < 32 then (k, k.ctx.tileCol (c - 16) u.tile w)
  else if c < 40 then
    match k.usePort u (c - 32) false with
    | (k, some a) => (k, rowOfBytes (k.spadNow.ld a 256))
    | (k, none) => (k, 0)
  else if c < 48 then k.popStream u (c - 40)
  else if c < 52 then (k, k.ctx.latchV.get 0 (c - 48))
  else if c = 52 then (k, fillRow w ((k.ctx.reg f.opx.toNat).toNat % 2 ^ w))
  else if c = 53 then (k, fillRow w (immElem (vType f) (f.sc ++ f.opx)))
  else (k, 0)

/-- The three sources of an operation, read in order at the widths given; a width of 0 stands for a source it does not
use. Where two of them pop the same port or stream register, source 1 pops first, then 2, then 3: R28 to R30 order commit units alone,
and this is a choice of the model (log 43). -/
structure Srcs where
  k : Core
  a : Row
  b : Row
  c : Row
def Core.srcs (k : Core) (u : UnitCtx) (f : VF) (wa wb wc : Nat) : Srcs :=
  let rd := fun (k : Core) (w : Nat) (code : BitVec 6) => if w = 0 then (k, (0 : Row)) else k.vread u f w code
  let a := rd k wa f.sa
  let b := rd a.1 wb f.sb
  let c := rd b.1 wc f.sc
  ⟨c.1, a.2, b.2, c.2⟩

/-! ### The result -/

/-- A write of the slot to a tile register: its bank is bound to the slot, or its partner's is (01 R20, R21). -/
def Core.tileCheck (k : Core) (u : UnitCtx) (t : Nat) : Core :=
  if !k.ctx.mayWrite k.ctx.bank (u.slot - 1) t then k.fault u causeBind
  else if k.pairing t then k.fault u causeConfig else k
/-- Schedule the row result for its destination and the pipe's latch, `w` bits an element (R187, 01 R29). -/
def Core.vwrite (k : Core) (u : UnitCtx) (f : VF) (l w : Nat) (v : Row) : Core :=
  let b := u.unit - 3
  let d := f.dst.toNat
  if f.ws = 1 then k.after u l (.row b none v)
  else if d < 32 then (k.tileCheck u (d % 16)).after u l (.row b (some (d % 16, u.tile, decide (16 ≤ d), w)) v)
  else
    match k.usePort u (d - 32) true with
    | (k, some a) => (k.after u l (.row b none v)).after u l (.spad a (rowBytes v))
    | (k, none) => k

/-- Commit the flags of a lockstep operation, or trap where one is enabled (02 R66, R67). -/
def Core.raise (k : Core) (u : UnitCtx) (fl : Flags) : Core :=
  if fl.enabled k.ctx.ten then k.trap ⟨causeArith, u.unit, fl.bits.setWidth 64, BitVec.ofNat 64 u.unit⟩
  else k.raiseFlags u.unit fl.bits

/-- The pool bytes a source reads: rows of a tile register, or a port's vector (10 R317). -/
def srcRange (c : Nat) (k : Ctx) (u : UnitCtx) (w : Nat) (code : BitVec 6) : List (Nat × Nat) :=
  let x := code.toNat
  if w = 0 then []
  else if x < 16 then [(256 * (k.rows * x + u.tile % k.rows), 256)]
  else if x < 32 then [(256 * k.rows * (x - 16), 256 * k.rows)]
  else if 32 ≤ x && x < 40 then
    let a := (k.port.get Port.empty (x - 32)).addr
    if a < 0 then [] else [(spadPool c k + a.toNat, 256)]
  else []
/-- The error correction of an operation's operands: the state, and whether a word was uncorrectable. -/
def State.operandEcc (s : State) (f : VF) (ws : Nat × Nat × Nat) : State × Bool :=
  let c := s.unit.core
  let k := (s.core c).ctx
  s.sramAll c 2 (srcRange c k s.unit ws.1 f.sa ++ srcRange c k s.unit ws.2.1 f.sb ++ srcRange c k s.unit ws.2.2 f.sc)

/-- A vector operation with a row result: sources of the widths `ws`, a result of elements `w` wide, latency `l`. -/
def vecOp (f : VF) (l w : Nat) (ws : Nat × Nat × Nat) (g : Ctx → UnitCtx → Srcs → Row × Flags) (s : State) :
    Host.Outcome State Fault Refusal :=
  let e := s.operandEcc f ws
  commitCore e.1 (fun k =>
    let u := s.unit
    if e.2 then k.fault u causeEcc
    else
      let x := k.srcs u f ws.1 ws.2.1 ws.2.2
      let r := g k.ctx u x
      ((x.k.vwrite u f l w r.1).raise u r.2).keepDraw u)

/-! ### Lane by lane -/

/-- The lanes that `g` gives for lane 0 up to `n`, with the flags they raise. -/
def genLanes (w n : Nat) (g : Nat → Nat × Flags) : Row × Flags :=
  let l := (List.range n).map g
  (packLanes w (l.map (·.1)), Flags.all (l.map (·.2)))
/-- A lane-wise operation at TYPE on one, two or three sources: `g` is given the lane number and the three lanes. -/
def laneOp (f : VF) (l n : Nat) (g : Ctx → UnitCtx → Nat → Nat → Nat → Nat → Nat × Flags) (s : State) :
    Host.Outcome State Fault Refusal :=
  let w := (vType f).w
  vecOp f l w (w, if n < 2 then 0 else w, if n < 3 then 0 else w)
    (fun k u x => genLanes w (2048 / w) (fun i => g k u i (lane w x.a i) (lane w x.b i) (lane w x.c i))) s

end Sys2Proof.Machine
end

