-- ==== Sys2Proof/Machine/Vector.lean ====
section
/-! DEFINITION. The vector instructions (06_vector_instructions.md R194 to R209). -/
namespace Sys2Proof.Machine

/-! ### Arithmetic (R194, R195) -/

/-- An integer lane: exact, then wrapped, or clamped with RM = 0 (R189). -/
def intLane (f : VF) (e : Int) : Nat × Flags :=
  let t := vType f
  (wrapInt t.w (if f.rm = 0 then clampInt t.range e else e), Flags.none)
/-- The integer that a lane of an integer type holds (02 R53). -/
def ETy.int (t : ETy) (code : Nat) : Int := if t = .u32 then (code % 2 ^ 32 : Nat) else sextNat t.w code
/-- A floating-point lane: the exact result rounded once under the operation's mode (R189). -/
def floatLane (f : VF) (k : Ctx) (u : UnitCtx) (i : Nat) (x : FVal × Flags) : Nat × Flags :=
  let t := vType f
  let mode := vMode k f
  let r := t.ofVal mode (rbOf mode (drawOf k u) u.tile i) k.fz false x.1
  (r.1, x.2.or r.2)
/-- An arithmetic operation on `n` sources, in its floating-point and its integer form. -/
def arith (f : VF) (l n : Nat) (fl : Rm → FVal → FVal → FVal → FVal × Flags) (int : Int → Int → Int → Int) (s : State) :
    Host.Outcome State Fault Refusal :=
  let t := vType f
  laneOp f l n (fun k u i a b c =>
    if t.isF then floatLane f k u i (fl (vMode k f) (t.valFz k.fz a) (t.valFz k.fz b) (t.valFz k.fz c))
    else intLane f (int (t.int a) (t.int b) (t.int c))) s
def execVadd (f : VF) (s : State) : Host.Outcome State Fault Refusal :=
  arith f 2 2 (fun m x y _ => x.add m y) (fun x y _ => x + y) s
def execVsub (f : VF) (s : State) : Host.Outcome State Fault Refusal :=
  arith f 2 2 (fun m x y _ => x.add m y.neg) (fun x y _ => x - y) s
def execVmul (f : VF) (s : State) : Host.Outcome State Fault Refusal :=
  arith f 4 2 (fun _ x y _ => x.mul y) (fun x y _ => x * y) s
def execVfma (f : VF) (s : State) : Host.Outcome State Fault Refusal :=
  arith f 4 3 (fun m x y z => x.fma m y z) (fun x y z => x * y + z) s
def execVfms (f : VF) (s : State) : Host.Outcome State Fault Refusal :=
  arith f 4 3 (fun m x y z => x.fma m y z.neg) (fun x y z => x * y - z) s

/-- The larger or smaller of two lanes of a type, as a code (R194, 02 R64). -/
def pickLane (t : ETy) (fz isMax : Bool) (a b : Nat) : Nat :=
  if t.isF then (t.ofVal .rne 0 false false ((t.valFz fz a).maxMin isMax (t.valFz fz b))).1
  else
    let x := t.int a
    let y := t.int b
    wrapInt t.w (if isMax then max x y else min x y)
def execVmax (f : VF) (s : State) : Host.Outcome State Fault Refusal :=
  laneOp f 2 2 (fun k _ _ a b _ => (pickLane (vType f) k.fz true a b, Flags.none)) s
def execVmin (f : VF) (s : State) : Host.Outcome State Fault Refusal :=
  laneOp f 2 2 (fun k _ _ a b _ => (pickLane (vType f) k.fz false a b, Flags.none)) s
/-- VABS and VNEG on F: the sign of the flushed input cleared or inverted, a NaN canonical (R194). -/
def signLane (f : VF) (k : Ctx) (a : Nat) (g : FVal → FVal) : Nat × Flags :=
  (((vType f).ofVal .rne 0 false false (g ((vType f).valFz k.fz a))).1, Flags.none)
def FVal.abs (x : FVal) : FVal := if x.signBit then x.neg else x
def execVabs (f : VF) (s : State) : Host.Outcome State Fault Refusal :=
  let t := vType f
  laneOp f 1 1 (fun k _ _ a _ _ => if t.isF then signLane f k a FVal.abs else intLane f ((t.int a).natAbs : Int)) s
def execVneg (f : VF) (s : State) : Host.Outcome State Fault Refusal :=
  let t := vType f
  laneOp f 1 1 (fun k _ _ a _ _ => if t.isF then signLane f k a FVal.neg else intLane f (-(t.int a))) s
/-- VRCP, VRSQ, VEXP2 and VLOG2 (R195). -/
def approxOp (fn : ApproxFn) (f : VF) (s : State) : Host.Outcome State Fault Refusal :=
  laneOp f 8 1 (fun k u i a _ _ =>
    let mode := vMode k f
    approx fn (vType f) mode (rbOf mode (drawOf k u) u.tile i) k.fz a) s
def execVrcp (f : VF) (s : State) : Host.Outcome State Fault Refusal := approxOp .rcp f s
def execVrsq (f : VF) (s : State) : Host.Outcome State Fault Refusal := approxOp .rsq f s
def execVexp2 (f : VF) (s : State) : Host.Outcome State Fault Refusal := approxOp .exp2 f s
def execVlog2 (f : VF) (s : State) : Host.Outcome State Fault Refusal := approxOp .log2 f s

/-! ### Bits and shifts (R196) -/

/-- An operation on the bits of two whole rows (R190, R196). -/
def bitOp (f : VF) (g : Row → Row → Row) (s : State) : Host.Outcome State Fault Refusal :=
  let w := (vType f).w
  vecOp f 1 w (w, w, 0) (fun _ _ x => (g x.a x.b, Flags.none)) s
def execVand (f : VF) (s : State) : Host.Outcome State Fault Refusal := bitOp f (fun a b => a &&& b) s
def execVor (f : VF) (s : State) : Host.Outcome State Fault Refusal := bitOp f (fun a b => a ||| b) s
def execVxor (f : VF) (s : State) : Host.Outcome State Fault Refusal := bitOp f (fun a b => a ^^^ b) s
def execVshl (f : VF) (s : State) : Host.Outcome State Fault Refusal :=
  let w := (vType f).w
  laneOp f 2 2 (fun _ _ _ a b _ => (if b < w then a * 2 ^ b % 2 ^ w else 0, Flags.none)) s
def execVshr (f : VF) (s : State) : Host.Outcome State Fault Refusal :=
  let w := (vType f).w
  laneOp f 2 2 (fun _ _ _ a b _ => (if b < w then a / 2 ^ b else 0, Flags.none)) s
def execVsar (f : VF) (s : State) : Host.Outcome State Fault Refusal :=
  let w := (vType f).w
  laneOp f 2 2 (fun _ _ _ a b _ => (wrapInt w (sextNat w a / 2 ^ min b w), Flags.none)) s

/-! ### Compare, select and test (R197 to R199) -/

/-- The condition of a compare (R197). -/
def vcompare (cc : Nat) (lt eq un : Bool) : Bool :=
  match cc with
  | 0 => eq
  | 1 => un || !eq
  | 2 => lt
  | 3 => lt || eq
  | 4 => !un && !lt && !eq
  | 5 => !un && !lt
  | 6 => un
  | _ => !un
def execVcmp (f : VF) (s : State) : Host.Outcome State Fault Refusal :=
  let t := vType f
  let cc := (f.sc.extractLsb' 0 3).toNat
  laneOp f 2 2 (fun k _ _ a b _ =>
    let c :=
      if t.isF then
        let x := t.valFz k.fz a
        let y := t.valFz k.fz b
        vcompare cc (x.lt false y) (x.eqv y) (x.isNan || y.isNan)
      else vcompare cc (decide (t.int a < t.int b)) (a = b) false
    (if c then 2 ^ t.w - 1 else 0, Flags.none)) s
def execVsel (f : VF) (s : State) : Host.Outcome State Fault Refusal :=
  laneOp f 1 3 (fun _ _ _ a b m => (if m != 0 then a else b, Flags.none)) s
/-- VTEST has a predicate and no row result (R199). -/
def execVtest (f : VF) (s : State) : Host.Outcome State Fault Refusal :=
  let w := (vType f).w
  let e := s.operandEcc f (w, 0, 0)
  commitCore e.1 (fun k =>
    let x := k.vread s.unit f w f.sa
    let l := (lanes w x.2).map (· != 0)
    if e.2 then k.fault s.unit causeEcc
    else x.1.after s.unit 2 (.pred (f.opx.extractLsb' 0 4).toNat (if f.opx.getLsbD 4 then l.all id else l.any id) none))

/-! ### Conversions (R200 to R203) -/

/-- The row `m` with lanes `at0` upward replaced by the lanes given. -/
def mergeLanes (w at0 : Nat) (m : Row) (l : List Nat) : Row :=
  packLanes w ((List.range (2048 / w)).map (fun i =>
    if at0 ≤ i && i < at0 + l.length then l.getD (i - at0) 0 else lane w m i))
def execVcvt (f : VF) (s : State) : Host.Outcome State Fault Refusal :=
  let t := vType f
  let st := ETy.ofCode (f.opx.extractLsb' 0 4).toNat
  let part := (f.sc.extractLsb' 0 5).toNat
  let narrow := t.w < st.w
  vecOp f 3 t.w (st.w, if narrow then t.w else 0, 0) (fun k u x =>
    let mode := vMode k f
    let one := fun (src dst : Nat) => cvt t st mode (rbOf mode (drawOf k u) u.tile dst) k.fz (lane st.w x.a src)
    if narrow then
      let at0 := part * (2048 / st.w)
      let l := (List.range (2048 / st.w)).map (fun i => one i (at0 + i))
      (mergeLanes t.w at0 x.b (l.map (·.1)), Flags.all (l.map (·.2)))
    else genLanes t.w (2048 / t.w) (fun i => one (part * (2048 / t.w) + i) i)) s

/-- EMAX of an element format (02 R84). -/
def ETy.emax : ETy → Int
  | .e2m1 => 2
  | .e4m3 => 8
  | _ => 15
/-- The largest magnitude of a block (02 R84). -/
def blockMax (v : List FVal) : FVal := v.foldl (fun m x => if m.lt false x.abs then x.abs else m) (.zero false)
/-- The scale byte of a block, its exponent, and whether the block is flushed to a NaN scale (02 R84). -/
def mxScale (t : ETy) (v : List FVal) : Nat × Int × Bool × Flags :=
  let nan := v.any (·.isNan)
  match nan, blockMax v with
  | false, .fin _ m e =>
    let x := clampInt (-127, 127) (if m = 0 then -127 else log2Val m e - t.emax)
    ((x + 127).toNat, x, false, Flags.none)
  | true, _ => (255, 0, true, Flags.none)
  | false, _ => (255, 0, true, Flags.IV)
/-- One element of a block: rounded and clamped to the largest finite value, which raises NX alone (02 R84). -/
def mxElem (t : ETy) (mode : Rm) (rb : Nat) (e : Int) (x : FVal) : Nat × Flags :=
  match t.fmt?, x with
  | some f, .fin s m ex =>
    let r := f.round mode rb false (.fin s m (ex - e))
    if r.2.ov then ((if s then f.sign else 0) + f.maxFin, Flags.NX) else r
  | _, _ => (0, Flags.none)
def execVqmx (f : VF) (s : State) : Host.Outcome State Fault Refusal :=
  let t := vType f
  let st : ETy := match (f.opx.extractLsb' 2 2).toNat with | 0 => .f32 | 1 => .bf16 | _ => .f16
  let part := (f.opx.extractLsb' 0 2 ++ f.sc).toNat
  let ns := 2048 / st.w
  let nb := ns / 32
  vecOp f 4 t.w (st.w, t.w, 0) (fun k u x =>
    let v := (lanes st.w x.a).map (st.valFz k.fz)
    let sc := (List.range nb).map (fun b => mxScale t ((v.drop (32 * b)).take 32))
    let fl := Flags.all (sc.map (·.2.2.2))
    if f.opx.getLsbD 4 then (mergeLanes 8 (part * nb) x.b (sc.map (·.1)), fl)
    else
      let mode := vMode k f
      let q := v.zipIdx.map (fun y =>
        match sc.getD (y.2 / 32) (255, 0, true, Flags.none) with
        | (_, e, nan, _) =>
          if nan then (0, Flags.none)
          else mxElem t mode (rbOf mode (drawOf k u) u.tile (part * ns + y.2)) e y.1)
      (mergeLanes t.w (part * ns) x.b (q.map (·.1)), fl.or (Flags.all (q.map (·.2))))) s
/-- The value of an MX element with its scale (02 R55). -/
def mxVal (et : ETy) (scale code : Nat) : FVal :=
  if scale = 255 then .nan
  else match et.val code with
    | .fin s m e => .fin s m (e + (scale - 127))
    | x => x
def execVdqmx (f : VF) (s : State) : Host.Outcome State Fault Refusal :=
  let t := vType f
  let et := ETy.ofCode (f.opx.extractLsb' 0 4).toNat
  let part := (f.sc.extractLsb' 0 5).toNat
  let nd := 2048 / t.w
  vecOp f 4 t.w (et.w, 8, 0) (fun k u x =>
    let mode := vMode k f
    genLanes t.w nd (fun i =>
      let q := part * nd + i
      t.ofVal mode (rbOf mode (drawOf k u) u.tile i) k.fz false (mxVal et (lane 8 x.b (q / 32)) (lane et.w x.a q)))) s
def execVpack (f : VF) (s : State) : Host.Outcome State Fault Refusal :=
  let w := (vType f).w
  vecOp f 2 w (8, w, 0) (fun _ _ x =>
    (mergeLanes w ((f.sc.extractLsb' 0 3).toNat * 256) x.b ((lanes 8 x.a).map (· % 2 ^ w)), Flags.none)) s
def execVunpack (f : VF) (s : State) : Host.Outcome State Fault Refusal :=
  let w := (vType f).w
  vecOp f 2 8 (w, 0, 0) (fun _ _ x =>
    (packLanes 8 ((List.range 256).map (fun i =>
      let v := lane w x.a ((f.sc.extractLsb' 0 3).toNat * 256 + i)
      if f.opx.getLsbD 0 then wrapInt 8 (sextNat w v) else v)), Flags.none)) s

/-! ### Reductions and scans (R204, 02 R82, R83) -/

/-- One level of the pairwise tree. -/
def pairUp {α : Type} (g : α → α → α) : List α → List α
  | a :: b :: r => g a b :: pairUp g r
  | l => l
/-- The tree over a list of a power of two of values, in `n` levels. -/
def treeOf {α : Type} (g : α → α → α) : Nat → List α → List α
  | 0, l => l
  | n + 1, l => treeOf g n (pairUp g l)
/-- The value of the tree's root. -/
def reduce {α : Type} (g : α → α → α) (d : α) (l : List α) : α := (treeOf g 11 l).headD d
/-- The FP32 code of a lane, widened exactly; denormals are flushed where FZ says so. -/
def widen (t : ETy) (fz : Bool) (code : Nat) : Nat := (Fmt.f32.round .rne 0 false (t.valFz fz code)).1
/-- Add in FP32, RNE, under FZ, with the flags gathered (02 R82). -/
def addF32 (fz : Bool) (p q : Nat × Flags) : Nat × Flags :=
  let x := (ETy.f32.valFz fz p.1).add .rne (ETy.f32.valFz fz q.1)
  let r := Fmt.f32.round .rne 0 fz x.1
  (r.1, ((p.2.or q.2).or x.2).or r.2)
/-- The final Convert of a tree's FP32 result. -/
def convertOut (f : VF) (k : Ctx) (u : UnitCtx) (l : Nat) (x : Nat × Flags) : Nat × Flags :=
  let mode := vMode k f
  let r := cvt (vType f) .f32 mode (rbOf mode (drawOf k u) u.tile l) k.fz x.1
  (r.1, x.2.or r.2)
/-- A reduction of the lanes of source 1: its result in every lane. -/
def reduceOp (f : VF) (g : Ctx → UnitCtx → List Nat → Nat × Flags) (s : State) : Host.Outcome State Fault Refusal :=
  let w := (vType f).w
  vecOp f 6 w (w, 0, 0) (fun k u x => let r := g k u (lanes w x.a); (fillRow w r.1, r.2)) s
def execVrsum (f : VF) (s : State) : Host.Outcome State Fault Refusal :=
  let t := vType f
  reduceOp f (fun k u l =>
    if t.isF then convertOut f k u 0 (reduce (addF32 k.fz) (0, Flags.none) (l.map (fun c => (widen t k.fz c, Flags.none))))
    else (wrapInt t.w (reduce (· + ·) 0 (l.map t.int)), Flags.none)) s
def execVrmax (f : VF) (s : State) : Host.Outcome State Fault Refusal :=
  reduceOp f (fun k _ l => (reduce (pickLane (vType f) k.fz true) 0 l, Flags.none)) s
def execVrmin (f : VF) (s : State) : Host.Outcome State Fault Refusal :=
  reduceOp f (fun k _ l => (reduce (pickLane (vType f) k.fz false) 0 l, Flags.none)) s
/-- The winner of two lanes: a NaN wins, then the larger value, then the lower lane (02 R82). -/
def argPick (t : ETy) (fz : Bool) (p q : Nat × Nat) : Nat × Nat :=
  if t.isF then
    let x := t.valFz fz p.1
    let y := t.valFz fz q.1
    if x.isNan then p else if y.isNan then q else if x.lt true y then q else p
  else if t.int p.1 < t.int q.1 then q else p
def execVargmax (f : VF) (s : State) : Host.Outcome State Fault Refusal :=
  let t := vType f
  vecOp f 6 32 (t.w, 0, 0) (fun k _ x =>
    (fillRow 32 (reduce (argPick t k.fz) (0, 0) (lanes t.w x.a).zipIdx).2, Flags.none)) s
/-- One level of the scan: each lane from `d` on takes in the lane `d` below it. -/
def scanLevel {α : Type} (g : α → α → α) (d : Nat) (l : List α) : List α :=
  l.take d ++ List.zipWith g (l.drop d) l
/-- The levels of a scan of `n` lanes, `m` of them (02 R83). -/
def scanOf {α : Type} (g : α → α → α) (n : Nat) : Nat → Nat → List α → List α
  | 0, _, l => l
  | m + 1, d, l => if d < n then scanOf g n m (2 * d) (scanLevel g d l) else l
def execVscan (f : VF) (s : State) : Host.Outcome State Fault Refusal :=
  let t := vType f
  vecOp f 8 t.w (t.w, 0, 0) (fun k u x =>
    let l := lanes t.w x.a
    if t.isF then
      let y := scanOf (addF32 k.fz) l.length 11 1 (l.map (fun c => (widen t k.fz c, Flags.none)))
      let z := y.zipIdx.map (fun v => convertOut f k u v.2 v.1)
      (packLanes t.w (z.map (·.1)), Flags.all (z.map (·.2)))
    else (packLanes t.w ((scanOf (· + ·) l.length 11 1 (l.map t.int)).map (wrapInt t.w)), Flags.none)) s

/-! ### Movement (R205 to R209) -/

/-- The lane number {SC, OPX} (R205). -/
def laneK (f : VF) : Nat := (f.sc ++ f.opx).toNat
/-- A move of whole lanes: `g` gives the source lane of each destination lane, or none for zeros. -/
def moveOp (f : VF) (l : Nat) (two : Bool) (g : List Nat → List Nat → List Nat) (s : State) :
    Host.Outcome State Fault Refusal :=
  let w := (vType f).w
  vecOp f l w (w, if two then w else 0, 0) (fun _ _ x => (packLanes w (g (lanes w x.a) (lanes w x.b)), Flags.none)) s
def execVbcast (f : VF) (s : State) : Host.Outcome State Fault Refusal :=
  moveOp f 1 false (fun a _ => List.replicate a.length (a.getD (laneK f) 0)) s
def execVshuf (f : VF) (s : State) : Host.Outcome State Fault Refusal :=
  moveOp f 3 true (fun a b => b.map (fun j => a.getD (j % a.length) 0)) s
def execVrot (f : VF) (s : State) : Host.Outcome State Fault Refusal :=
  moveOp f 1 false (fun a _ => a.drop (laneK f) ++ a.take (laneK f)) s
def execVcompress (f : VF) (s : State) : Host.Outcome State Fault Refusal :=
  moveOp f 4 true (fun a b => ((a.zip b).filter (fun x => x.2 != 0)).map (·.1)) s
def execVmov (f : VF) (s : State) : Host.Outcome State Fault Refusal :=
  let w := (vType f).w
  vecOp f 1 w (w, 0, 0) (fun _ _ x => (x.a, Flags.none)) s
/-- VRAND: the generator words of the row (R209). -/
def execVrand (f : VF) (s : State) : Host.Outcome State Fault Refusal :=
  let t := vType f
  vecOp f 6 t.w (0, 0, 0) (fun k u _ =>
    (packLanes 32 ((List.range 64).map (fun j =>
      let wd := (drawOf k u).word u.tile j
      if t = .f32 then (Fmt.f32.round .rne 0 false (.fin false (wd.toNat / 256) (-24))).1 else wd.toNat)), Flags.none)) s

end Sys2Proof.Machine
end

