-- ==== Sys2Proof/Machine/Copy.lean ====
section
/-! DEFINITION. The copy slots: the issue of their commands (07_matrix_copy_instructions.md R236), the checks of a parameter
block (R233, R234), and the copies themselves, granule by granule (R235 to R245, 13_engines_arbitration.md R372). -/
namespace Sys2Proof.Machine

/-! ### Issue -/

/-- A command that the core's type does not have is refused at issue (R236). -/
def issueCopy (s : State) (mainOnly : Bool) (noHouse : Bool) : Host.Outcome State Fault Refusal :=
  commitCore s (fun k =>
    let t := kindOf s.unit.core
    if (mainOnly && t != .main) || (noHouse && t = .house) then k.fault { s.unit with bundle := s.unit.naming } causeOp
    else k.enqueue s.unit)
def execCpy (_ : DF) (s : State) : Host.Outcome State Fault Refusal := issueCopy s false false
def execCpyt (_ : DF) (s : State) : Host.Outcome State Fault Refusal := issueCopy s false false
def execCgath (_ : DF) (s : State) : Host.Outcome State Fault Refusal := issueCopy s false true
def execCscat (_ : DF) (s : State) : Host.Outcome State Fault Refusal := issueCopy s false true
/-- CBIND binds its stream register as it issues (01 R28, R44). -/
def execCbind (f : DF) (s : State) : Host.Outcome State Fault Refusal :=
  commitCore s (fun k =>
    let n := (f.cmd.extractLsb' 18 3).toNat
    if kindOf s.unit.core = .house then k.fault { s.unit with bundle := s.unit.naming } causeOp
    else (k.enqueue s.unit).onCtx (fun x =>
      { x with stream := x.stream.set Stream.empty n { x.stream.get Stream.empty n with bound := true } }))
def execCring (_ : DF) (s : State) : Host.Outcome State Fault Refusal := issueCopy s false true
def execCbcast (_ : DF) (s : State) : Host.Outcome State Fault Refusal := issueCopy s true true
def execCfill (_ : DF) (s : State) : Host.Outcome State Fault Refusal := issueCopy s false false
def execCarm (_ : DF) (s : State) : Host.Outcome State Fault Refusal := issueCopy s false false
def execCwait (_ : DF) (s : State) : Host.Outcome State Fault Refusal := issueCopy s false false

/-! ### The parameter block (R233 to R239) -/

/-- The endpoint kinds a command permits (R236). -/
def kindsOk (op src dst : Nat) : Bool :=
  match op with
  | 3 => src ≤ 1 && (dst = 0 || dst = 2)
  | 4 => (src = 0 || src = 2) && dst ≤ 1
  | 5 => src ≤ 2
  | 6 => src ≤ 2 && dst = 0
  | 7 => src ≤ 2 && dst = 0
  | 8 => dst ≤ 2
  | _ => src ≤ 2 && dst ≤ 2
/-- An endpoint word in scratchpad has NUM zero (R234). -/
def epOk (w : Nat) : Bool := epKind w != 0 || epNum w = 0
def Cmd.pool (d : Cmd) : Nat := d.bits 19 2
def Cmd.zf (d : Cmd) : Bool := d.word.getLsbD 18
def ETy.floatElem (t : ETy) : Bool := t.fmt?.isSome
/-- The block keeps every rule of its command (R233 to R239, R241, R243, R244). -/
def blkOk (d : Cmd) (b : Blk) : Bool :=
  let st := ETy.ofCode b.sty
  let dt := ETy.ofCode b.dty
  let ones := fun (from_ : Nat) => (List.range 7).all (fun i => i < from_ || b.count i = 1)
  b.reservedOk && (b.dim 0).ss = 0 && (b.dim 0).ds = 0 && epOk b.src && epOk b.dst && kindsOk d.op (epKind b.src) (epKind b.dst) &&
  (b.status = 0 || (d.op = 3 && d.zf)) &&
  (!b.cvt || (b.sty < 12 && b.dty < 12 && b.count 0 * st.w % 8 = 0 && b.count 0 * dt.w % 8 = 0)) &&
  (match d.op with
   | 2 => !b.cvt && b.dty = 0 && b.sty < 12 && b.count 0 ≤ 4096 && b.count 1 ≤ 4096 && b.count 0 * st.w % 8 = 0 &&
            b.count 1 * st.w % 8 = 0
   | 3 => ones 3 && (d.pool = 0 || b.cvt) && (d.pool != 2 || st.floatElem)
   | 4 => ones 2
   | 5 => b.dst = 0
   | 7 => d.ck != 2
   | 8 => !b.cvt && b.src = 0
   | _ => true)

/-! ### Runs and addresses (R235, R237) -/

/-- Bytes of one run at the destination, and the number of runs; CGATH's are counted in bags. -/
def runBytes (d : Cmd) (b : Blk) : Nat :=
  if d.op = 2 then b.count 1 * (ETy.ofCode b.sty).w / 8
  else if b.cvt then b.count 0 * (ETy.ofCode b.dty).w / 8 else b.count 0
def outerRuns (b : Blk) (from_ : Nat) : Nat := (List.range 7).foldl (fun n i => if from_ ≤ i then n * b.count i else n) 1
def runCount (d : Cmd) (b : Blk) : Nat :=
  match d.op with
  | 2 => b.count 0 * outerRuns b 2
  | 3 => b.count 2
  | 4 => b.count 1
  | _ => outerRuns b 1
/-- The index of dimension `i` in run `r`, the runs counted over the dimensions from `from_` up. -/
def dimIdx (b : Blk) (from_ i r : Nat) : Nat :=
  r / ((List.range 7).foldl (fun n j => if from_ ≤ j && j < i then n * b.count j else n) 1) % b.count i
/-- The offset that dimensions from `from_` up give run `r`. -/
def dimOff (b : Blk) (from_ r : Nat) (src : Bool) : Int :=
  (List.range 7).foldl (fun t i =>
    if from_ ≤ i then t + (dimIdx b from_ i r : Int) * (if src then (b.dim i).ss else (b.dim i).ds) else t) 0
/-- An address, modulo 2^64. -/
def addr64 (i : Int) : Nat := wrapInt 64 i
def Cmd.dadj (d : Cmd) : Bool := (d.op = 1 || d.op = 2) && d.word.getLsbD 20
/-- The captured offset, for the source and for the destination (R235, R236). -/
def Cmd.offS (d : Cmd) : Int :=
  if (d.op = 1 || d.op = 2 || d.op = 5 || d.op = 7 || (d.op = 6 && !d.word.getLsbD 17)) && !d.dadj then (d.rb.toNat : Int) else 0
def Cmd.offD (d : Cmd) : Int := if d.dadj then (d.rb.toNat : Int) else 0
/-- The sticky steps of the bases (R215). -/
def Cmd.stepS (d : Cmd) (b : Blk) : Int := d.n * (if d.op = 3 then 0 else if d.op = 4 then b.dstep else b.sstep)
def Cmd.stepD (d : Cmd) (b : Blk) : Int := d.n * (if d.op = 4 || d.op = 6 then 0 else b.dstep)
/-- Where run `r` starts. -/
def srcAt (d : Cmd) (b : Blk) (r : Nat) : Int :=
  (epBase b.src : Int) + d.offS + d.stepS b +
    (if d.op = 2 then dimOff b 2 (r / b.count 0) true else if d.op = 4 then (r : Int) * (b.dim 1).ss else dimOff b 1 r true)
/-- The index list of CGATH and CSCAT: a UINT32 (R238, R239). -/
def Cmd.index (d : Cmd) (i : Nat) : Nat := ofLe ((d.aux.drop (4 * i)).take 4)
def dstAt (d : Cmd) (b : Blk) (r : Nat) : Int :=
  (epBase b.dst : Int) + d.offD + d.stepD b +
    (if d.op = 2 then dimOff b 2 (r / b.count 0) false + (r % b.count 0 : Nat) * (b.dim 1).ds
     else if d.op = 4 then (d.index r : Int) * (b.dim 1).ds else dimOff b 1 r false)

/-! ### Memory beyond one frame -/

/-- Read `n` bytes of HBM, frame by frame; the flags are those of `readHbm`. -/
def State.readSpan (s : State) (reader : Nat) (ctxid : Word) (key n : Nat) : Nat → State × List Byte × Bool × Bool
  | 0 => (s, [], false, false)
  | f + 1 =>
    let m := min n (65536 - key % 65536)
    let r := s.readHbm reader ctxid key m
    if m = n then r
    else
      let t := r.1.readSpan reader ctxid (key + m) (n - m) f
      (t.1, r.2.1 ++ t.2.1, r.2.2.1 || t.2.2.1, r.2.2.2 || t.2.2.2)
/-- Write bytes of HBM, frame by frame; the flag says that a block was poisoned. -/
def State.writeSpan (s : State) (job : Nat) (ctxid : Word) (key : Nat) (l : List Byte) : Nat → State × Bool
  | 0 => (s, false)
  | f + 1 =>
    let m := min l.length (65536 - key % 65536)
    let r := s.writeHbm job ctxid key (l.take m)
    if m = l.length then r
    else
      let t := r.1.writeSpan job ctxid (key + m) (l.drop m) f
      (t.1, r.2 || t.2)
def frames (n : Nat) : Nat := n / 65536 + 2

/-! ### Endpoints (R234) -/

/-- Bytes read at an endpoint, or the cause of its fault; an uncorrectable error is told apart. -/
inductive EpRead where
  | ok (l : List Byte)
  | bad
  | fault (cause : Nat)
  deriving DecidableEq, Repr

def State.epRead (s : State) (c : Nat) (d : Cmd) (w : Nat) (h : Handle) (reader addr n : Nat) : State × EpRead :=
  let k := (s.core c).view d
  match epKind w with
  | 0 =>
    if spadSize c k < addr + n then (s, .fault causeRange)
    else
      let e := s.sram c reader (spadPool c k + addr) n
      (e.1, if e.2 then .bad else .ok (k.ldRange addr n))
  | 1 =>
    if !h.valid then (s, .fault causeHandle)
    else if pageBytes h.size < addr + n then (s, .fault causeOffset)
    else
      let r := s.readSpan reader k.ctxid (h.place addr).key n (frames n)
      let s := if r.2.2.2 then r.1.onCtx c (fun x => { x with sw := { x.sw with disc := true } }) else r.1
      (s, if r.2.2.1 then .bad else .ok r.2.1)
  | _ =>
    if 256 * k.rows < addr + n then (s, .fault causeConfig)
    else
      let e := s.sram c reader (256 * k.rows * epNum w + addr) n
      (e.1, if e.2 then .bad else .ok (k.tileBytesAt (epNum w) addr n))

/-- Bytes written at an endpoint of core `c`, or the cause of a fault. -/
def State.epWrite (s : State) (c w : Nat) (h : Handle) (banks : BitVec 8) (addr : Nat) (l : List Byte) : State × Option Nat :=
  let k := (s.core c).ctx
  match epKind w with
  | 0 => if spadSize c k < addr + l.length then (s, some causeRange) else (s.engStore c addr l, none)
  | 1 =>
    if !h.valid then (s, some causeHandle)
    else if pageBytes h.size < addr + l.length then (s, some causeOffset)
    else if !h.writable || s.codeHit c (h.va.toNat + addr) l.length then (s, some causeWrite)
    else
      let r := s.writeSpan ((s.jobOf c).getD fwJob) k.ctxid (h.place addr).key l (frames l.length)
      (r.1, if r.2 then some causeEcc else none)
  | _ =>
    if 256 * k.rows < addr + l.length then (s, some causeConfig)
    else if !k.mayWrite banks 3 (epNum w) then (s, some causeBind)
    else if (s.core c).pairing (epNum w) then (s, some causeConfig)
    else (s.onCtx c (·.setTileBytes (epNum w) addr l), none)

/-! ### Conversion of elements -/

/-- `n` elements of width `w` from bit `bit` of a packed list of bytes. -/
def unpackElems (w bit n : Nat) (l : List Byte) : List Nat :=
  let v := ofLe l / 2 ^ bit
  (List.range n).map (fun i => elemAt w v i)
def packElems (w : Nat) (l : List Nat) : List Byte :=
  leBytes (l.length * w / 8) (l.foldr (fun v acc => acc * 2 ^ w + v % 2 ^ w) 0)
/-- Elements converted from STYPE to DTYPE under RND (02 R68 to R70). -/
def convElems (d : Cmd) (b : Blk) (l : List Nat) : List Nat × Flags :=
  let r := l.map (cvt (ETy.ofCode b.dty) (ETy.ofCode b.sty) (Rm.ofCode b.rnd) 0 d.fz)
  (r.map (·.1), Flags.all (r.map (·.2)))

/-- The outcome of getting a piece of a run: the state, its bytes and flags, or a cause. -/
abbrev Piece := State × Except Nat (List Byte × Flags)

def pieceOf (r : State × EpRead) (g : List Byte → List Byte × Flags) : Piece :=
  match r with
  | (s, .ok l) => (s, .ok (g l))
  | (s, .bad) => (s, .error causeEcc)
  | (s, .fault e) => (s, .error e)

/-- Elements of CPYT's destination row, element by element from the source (R237). -/
def State.transposed (s : State) (c : Nat) (d : Cmd) (b : Blk) (base : Int) (e : Nat) : Nat → Nat → State × Except Nat (List Nat)
  | 0, _ => (s, .ok [])
  | n + 1, m =>
    let w := (ETy.ofCode b.sty).w
    let at0 := addr64 (base + (m : Int) * (b.dim 1).ss + (e * w / 8 : Nat))
    match s.epRead c d b.src d.hs 4 at0 ((w + 7) / 8) with
    | (s, .ok l) =>
      match s.transposed c d b base e n (m + 1) with
      | (s, .ok r) => (s, .ok (elemAt w (ofLe l / 2 ^ (e * w % 8)) 0 :: r))
      | x => x
    | (s, .bad) => (s, .error causeEcc)
    | (s, .fault x) => (s, .error x)

/-- The destination bytes `off` to `off + len - 1` of run `r`. -/
def State.piece (s : State) (c : Nat) (d : Cmd) (b : Blk) (r off len : Nat) : Piece :=
  if d.op = 8 then
    (s, .ok ((List.range len).map (fun o => d.rb.extractLsb' (8 * ((off + o) % 8)) 8), Flags.none))
  else if d.op = 2 then
    let w := (ETy.ofCode b.sty).w
    match s.transposed c d b (srcAt d b r) (r % b.count 0) (len * 8 / w) (off * 8 / w) with
    | (s, .ok l) => (s, .ok (packElems w l, Flags.none))
    | (s, .error e) => (s, .error e)
  else if !b.cvt then
    pieceOf (s.epRead c d b.src d.hs 4 (addr64 (srcAt d b r + off)) len) (fun l => (l, Flags.none))
  else
    let ws := (ETy.ofCode b.sty).w
    let wd := (ETy.ofCode b.dty).w
    let bit := off * 8 / wd * ws
    let n := len * 8 / wd
    pieceOf (s.epRead c d b.src d.hs 4 (addr64 (srcAt d b r + (bit / 8 : Nat))) ((bit % 8 + n * ws + 7) / 8)) (fun l =>
      let x := convElems d b (unpackElems ws (bit % 8) n l)
      (packElems wd x.1, x.2))

/-! ### Granules (13 R372) -/

/-- The pieces of runs that the destination bytes from `pos` to `stop` are made of: run, offset, length. -/
def segments (rb stop : Nat) : Nat → Nat → List (Nat × Nat × Nat)
  | 0, _ => []
  | f + 1, pos =>
    if pos < stop then
      let len := min (rb - pos % rb) (stop - pos)
      (pos / rb, pos % rb, len) :: segments rb stop f (pos + len)
    else []

/-- Arrivals of engine `by_` at a byte barrier of a core (01 R27), and at a ring slot (01 R26), in the cycle of that core: those
that would overshoot count nothing and are a fault. -/
def State.barrierArrive (s : State) (by_ c n bytes : Nat) : State × Option Nat :=
  match ((s.core c).ctx.bb.get Barrier.empty n).arrive ((s.core c).seq.cycles, by_) bytes with
  | some b => (s.onCtx c (fun x => { x with bb := x.bb.set Barrier.empty n b }), none)
  | none => (s, some causeRing)
def State.ringArrive (s : State) (by_ c n slot bytes : Nat) : State × Option Nat :=
  match ((s.core c).ctx.rg n).arrive ((s.core c).seq.cycles, by_) slot bytes with
  | some r => (s.onCtx c (·.setRg n r), none)
  | none => (s, some causeRing)

/-- The core whose ring a CRING delivers into (R242). -/
def Cmd.ringCore (d : Cmd) (c : Nat) : Nat := if d.word.getLsbD 17 then d.rb.toNat % 64 else c
/-- The cores a CBCAST names (R243). -/
def Cmd.castCores (d : Cmd) (c : Nat) : List Nat :=
  ((List.range 8).filter (fun i => d.bits 13 8 / 2 ^ i % 2 = 1)).map (fun i => c / 8 * 8 + i)

/-- A piece delivered to its destination. -/
def State.deliverPiece (s : State) (c : Nat) (d : Cmd) (b : Blk) (r off : Nat) (l : List Byte) : State × Option Nat :=
  let t := addr64 (dstAt d b r + off)
  match d.op with
  | 6 =>
    let tc := d.ringCore c
    let ring := (s.core tc).ctx.rg (d.bits 18 3)
    let a := (ring.slotAddr (d.slotNo.getD 0) + t) % 2 ^ 64
    if spadSize tc (s.core tc).ctx < a + l.length then (s, some causeRange) else (s.engStore tc a l, none)
  | 7 =>
    let cores := d.castCores c
    if cores.any (fun x => decide (spadSize x (s.core x).ctx < t + l.length)) then (s, some causeRange)
    else (cores.foldl (fun s x => s.engStore x t l) s, none)
  | _ => s.epWrite c b.dst d.hd d.banks t l

/-- The pieces of a granule, read and written in turn. -/
def State.pieces (s : State) (c : Nat) (d : Cmd) (b : Blk) : List (Nat × Nat × Nat) → Flags → State × Except Nat Flags
  | [], fl => (s, .ok fl)
  | (r, off, len) :: rest, fl =>
    match s.piece c d b r off len with
    | (s, .error e) => (s, .error e)
    | (s, .ok (l, f)) =>
      match s.deliverPiece c d b r off l with
      | (s, some e) => (s, .error e)
      | (s, none) => s.pieces c d b rest (fl.or f)
/-- The bytes of a vector for a stream register (R241). -/
def State.gather (s : State) (c : Nat) (d : Cmd) (b : Blk) : List (Nat × Nat × Nat) → State × Except Nat (List Byte × Flags)
  | [] => (s, .ok ([], Flags.none))
  | (r, off, len) :: rest =>
    match s.piece c d b r off len with
    | (s, .error e) => (s, .error e)
    | (s, .ok (l, f)) =>
      match s.gather c d b rest with
      | (s, .error e) => (s, .error e)
      | (s, .ok (l', f')) => (s, .ok (l ++ l', f.or f'))

/-- The count of delivered bytes (R212, R242, R243): each ring slot and each barrier that they name counts for itself. -/
def State.countBytes (s : State) (c : Nat) (d : Cmd) (n : Nat) : State × Option Nat :=
  let by_ := 2 * c + d.q
  let own := fun (s : State) => if d.ck = 2 && d.op != 7 then s.barrierArrive by_ c d.cn n else (s, none)
  match d.op with
  | 6 =>
    let r := s.ringArrive by_ (d.ringCore c) (d.bits 18 3) (d.slotNo.getD 0) n
    let o := own r.1
    (o.1, r.2.or o.2)
  | 7 =>
    if d.word.getLsbD 12 then
      (d.castCores c).foldl (fun r x => let o := r.1.barrierArrive by_ x (d.bits 8 4) n; (o.1, r.2.or o.2)) (s, none)
    else (s, none)
  | _ => own s

/-- An access of a copy to memory at an endpoint counts for migration (10 R311). -/
def State.countAt (s : State) (c w : Nat) (h : Handle) (a : Int) : State :=
  if epKind w = 1 && h.valid then s.countAcc ((s.jobOf c).getD fwJob) (h.place (addr64 a % pageBytes h.size)).key (dieOf c) 1 else s
/-- Bytes of one run at the source. -/
def srcBytes (d : Cmd) (b : Blk) : Nat :=
  if d.op != 2 && b.cvt then b.count 0 * (ETy.ofCode b.sty).w / 8 else runBytes d b
/-- Granule `g` counts for migration, 1 for each 256 bytes of its memory side: of what it reads, and of what it writes
(10 R311). -/
def State.countCopy (s : State) (c : Nat) (d : Cmd) (b : Blk) (g : Nat) : State :=
  let rb := runBytes d b
  let sb := srcBytes d b
  let stop := min (256 * g + 256) (rb * runCount d b)
  let lo := (256 * g * sb / rb + 255) / 256
  let hi := (stop * sb / rb + 255) / 256
  let s := if d.op = 8 then s
    else (List.range (hi - lo)).foldl (fun s j =>
      let p := 256 * (lo + j)
      s.countAt c b.src d.hs (srcAt d b (p / sb) + (p % sb : Nat))) s
  if d.op = 5 || d.op = 6 || d.op = 7 then s
  else s.countAt c b.dst d.hd (dstAt d b (256 * g / rb) + (256 * g % rb : Nat))

def Cmd.did (d : Cmd) (g : Nat) (fl : Flags) : Cmd :=
  { d with done := d.done ++ [g], flags := d.flags.or fl, finished := decide (d.prog0 ≤ d.done.length + 1) }

/-- A granule's outcome: what was delivered is counted, and the command's progress steps. -/
def State.granuleDone (c : Nat) (d : Cmd) (g n : Nat) (r : State × Except Nat Flags) : State × Except Nat Cmd :=
  match r.2 with
  | .error e => (r.1, .error e)
  | .ok fl =>
    match r.1.countBytes c d n with
    | (s, some e) => (s, .error e)
    | (s, none) => (s, .ok (d.did g fl))
/-- A vector enters a stream register (R241). -/
def State.pushVec (c q : Nat) (r : State × Except Nat (List Byte × Flags)) : State × Except Nat Flags :=
  match r.2 with
  | .error e => (r.1, .error e)
  | .ok (l, fl) =>
    (r.1.onCtx c (fun x =>
      let st := x.stream.get Stream.empty q
      { x with stream := x.stream.set Stream.empty q { st with vecs := st.vecs ++ [rowOfBytes l] } }), .ok fl)
/-- The pieces of granule `g`. -/
def granuleSegs (fuel : Nat) (d : Cmd) (b : Blk) (g : Nat) : List (Nat × Nat × Nat) :=
  segments (runBytes d b) (min (256 * g + 256) (runBytes d b * runCount d b)) fuel (256 * g)

/-! ### CBIND's vectors (R241, 15 R410) -/

/-- The destination positions at which the runs of a CBIND start, in loop order. -/
def runStarts (d : Cmd) (b : Blk) : List Int := (List.range (runCount d b)).map (dstAt d b)
/-- The positions cover each of 0 to total − 1 exactly once: as many runs of one length as there are places, one in each. -/
def coverOk (d : Cmd) (b : Blk) : Bool :=
  let l := runStarts d b
  (List.range (runCount d b)).all (fun k => l.contains ((k * runBytes d b : Nat) : Int))
/-- The pieces of vector `v`, by position: run, offset, length. -/
def vectorSegs (d : Cmd) (b : Blk) (v : Nat) : List (Nat × Nat × Nat) :=
  let l := runStarts d b
  (granuleSegs 257 d b v).map (fun x => (l.idxOf ((x.1 * runBytes d b : Nat) : Int), x.2.1, x.2.2))
/-- The run whose bytes complete vector `v`. -/
def lastRun (d : Cmd) (b : Blk) (v : Nat) : Nat := (vectorSegs d b v).foldl (fun m x => max m x.1) 0
/-- The vectors in the order in which the loop order completes them: the order of their arrival. -/
def vectorOrder (d : Cmd) (b : Blk) : List Nat :=
  (List.range (runCount d b)).flatMap (fun r =>
    (List.range (runBytes d b * runCount d b / 256)).filter (fun v => lastRun d b v = r))

/-- Granule `g` of a copy whose granules are pieces of runs, or the `g`-th vector of a CBIND: none while it cannot complete. -/
def State.copyGranule (s : State) (c : Nat) (d : Cmd) (g : Nat) : Option (State × Except Nat Cmd) :=
  let b := Blk.ofBytes d.blk
  let stop := min (256 * g + 256) (runBytes d b * runCount d b)
  if (d.op = 4 || d.op = 5) && !(List.range g).all d.done.contains then none
  else if d.op = 5 then
    let q := d.bits 18 3
    let v := (vectorOrder d b).getD g 0
    if 8 ≤ ((s.core c).ctx.stream.get Stream.empty q).vecs.length then none
    else some (State.granuleDone c d g 256 (State.pushVec c q ((s.countCopy c d b g).gather c d b (vectorSegs d b v))))
  else some (State.granuleDone c d g (stop - 256 * g) ((s.countCopy c d b g).pieces c d b (granuleSegs 257 d b g) Flags.none))

/-! ### CGATH (R238) -/

/-- The row of an index: read once by the command, and kept. -/
def State.gathRow (s : State) (c : Nat) (d : Cmd) (b : Blk) (i n : Nat) : State × Except Nat (Cmd × Option (List Byte)) :=
  let s := s.ldAdd c 3
  match d.rows.find? (fun e => e.1 = i) with
  | some e => (s, .ok (d, e.2))
  | none =>
    let s := s.ldAdd c 4
    let a := addr64 ((epBase b.src : Int) + (i : Int) * (b.dim 1).ss)
    let s := if epKind b.src = 1 && d.hs.valid then
        s.countAcc ((s.jobOf c).getD fwJob) (d.hs.place (a % pageBytes d.hs.size)).key (dieOf c) 1 else s
    match s.epRead c d b.src d.hs (if d.zf then 5 else 4) a n with
    | (s, .ok l) => (s, .ok ({ d with rows := d.rows ++ [(i, some l)] }, some l))
    | (s, .bad) => if d.zf then (s.ldAdd c 5, .ok ({ d with rows := d.rows ++ [(i, none)] }, none)) else (s, .error causeEcc)
    | (s, .fault e) => (s, .error e)
/-- A quotient by a count, rounded RNE to FP32. -/
def meanF32 (fz : Bool) (n : Nat) (y : Nat × Flags) : Nat × Flags :=
  match f32Val y.1 with
  | .fin s m e =>
    if m = 0 then y
    else
      let t := bitLen n + 40
      let r := Fmt.f32.round .rne 0 fz (.fin s (divSticky (m * 2 ^ t) n) (e - t - 1))
      (r.1, y.2.or r.2)
  | _ => y
/-- An element widened to FP32 for a pooled sum: with FZ, a denormal result is flushed like any conversion's (02 R65). -/
def widenFlush (t : ETy) (fz : Bool) (code : Nat) : Nat × Flags := Fmt.f32.round .rne 0 fz (t.valFz fz code)
/-- The pooled value of one element, from its lookups in ascending order, converted to DTYPE. -/
def poolElem (d : Cmd) (b : Blk) (l : List Nat) : Nat × Flags :=
  let st := ETy.ofCode b.sty
  let dt := ETy.ofCode b.dty
  let mode := Rm.ofCode b.rnd
  if st.isInt then
    let sum := (l.map (fun (x : Nat) => if st = .b1 then (x : Int) else st.int x)).foldl (· + ·) 0
    if dt.isInt && dt != .b1 then (wrapInt dt.w sum, Flags.none) else dt.ofVal mode 0 d.fz true (.ofInt sum)
  else
    let y := l.foldl (fun y x => addF32 d.fz y (widenFlush st d.fz x)) (0, Flags.none)
    let y := if d.pool = 2 then meanF32 d.fz l.length y else y
    let r := cvt dt .f32 mode 0 d.fz y.1
    (r.1, y.2.or r.2)

/-- Bytes written by CGATH at an offset from its base, and counted. Those of a bag that runs again after a suspension (13 R371) count
again: the specification is silent, and it is a choice of the model (07 R212; log 43). -/
def State.gathWrite (s : State) (c : Nat) (d : Cmd) (b : Blk) (off : Int) (l : List Byte) : State × Option Nat :=
  match s.epWrite c b.dst d.hd d.banks (addr64 ((epBase b.dst : Int) + d.stepD b + off)) l with
  | (s, some e) => (s, some e)
  | (s, none) => s.countBytes c d l.length
/-- The bit of bag `g` in the STATUS bitmap is set (15 R407). -/
def State.statusBit (s : State) (c : Nat) (b : Blk) (g : Nat) : State × Option Nat :=
  let k := (s.core c).ctx
  let a := b.status + g / 8
  if spadSize c k ≤ a then (s, some causeRange)
  else (s.engStore c a [k.spad.get 0 a ||| BitVec.twoPow 8 (g % 8)], none)
/-- The bytes of the row read for an index; none where they are replaced by zeros. -/
def Cmd.rowOf (d : Cmd) (i : Nat) : Option (List Byte) := (d.rows.find? (fun e => e.1 = i)).bind (·.2)
/-- Granules in one row as it is written: a pooled row is written whole. -/
def Cmd.rowGrains (d : Cmd) (b : Blk) : Nat := if d.pool = 0 then (runBytes d b + 255) / 256 else 1
/-- A row of POOL = 0 as it is written. -/
def rowOut (d : Cmd) (b : Blk) (n : Nat) (r : Option (List Byte)) : List Byte × Flags :=
  let l := r.getD (zeros n)
  if b.cvt then
    let x := convElems d b (unpackElems (ETy.ofCode b.sty).w 0 (b.count 0) l)
    (packElems (ETy.ofCode b.dty).w x.1, x.2)
  else (l, Flags.none)
/-- The pooled row of a bag, from the rows of its lookups. -/
def pooledOut (d : Cmd) (b : Blk) (n : Nat) (rows : List (Option (List Byte))) : List Byte × Flags :=
  let elems := rows.map (fun r => unpackElems (ETy.ofCode b.sty).w 0 (b.count 0) (r.getD (zeros n)))
  let r := (List.range (b.count 0)).map (fun e => poolElem d b (elems.map (fun l => l.getD e 0)))
  (packElems (ETy.ofCode b.dty).w (r.map (·.1)), Flags.all (r.map (·.2)))
/-- The next granule of bag `g` of a CGATH, the bag in hand (13 R371, R372): a lookup reads its row, or finds it read; with
POOL = 0 the row is written granule by granule, else the bag's row at its last lookup. `prog1` counts the bag's granules; the
STATUS bit of a bag that uses a zero-filled row is set with its last one (15 R407). -/
def State.gathStep (s : State) (c : Nat) (d : Cmd) (g : Nat) : Option (State × Except Nat Cmd) :=
  let b := Blk.ofBytes d.blk
  let n := if b.cvt then b.count 0 * (ETy.ofCode b.sty).w / 8 else b.count 0
  let per := d.rowGrains b
  let m := d.prog1 / per
  let j := d.prog1 % per
  let idx := fun (m : Nat) => d.index (g * b.count 1 + m)
  let last := decide (b.count 1 * per ≤ d.prog1 + 1)
  let next := fun (d : Cmd) (fl : Flags) =>
    if last then { d with prog1 := 0 }.did g fl else { d with prog1 := d.prog1 + 1, flags := d.flags.or fl }
  let write := fun (s : State) (d : Cmd) (zero : Bool) (off : Int) (x : List Byte × Flags) =>
    match (if zero then s.statusBit c b g else (s, none)) with
    | (s, some e) => (s, .error e)
    | (s, none) => match s.gathWrite c d b off x.1 with
      | (s, some e) => (s, .error e)
      | (s, none) => (s, .ok (next d x.2))
  if g != d.done.length then none
  else match (if j = 0 then s.gathRow c d b (idx m) n else (s, .ok (d, d.rowOf (idx m)))) with
    | (s, .error e) => some (s, .error e)
    | (s, .ok (d, r)) =>
      if d.pool = 0 then
        let x := rowOut d b n r
        some (write s d (last && (List.range (b.count 1)).any (fun m => (d.rowOf (idx m)).isNone)) ((m : Int) * (b.dim 1).ds + (g : Int) * (b.dim 2).ds + (256 * j : Nat))
          ((x.1.drop (256 * j)).take 256, if j = 0 then x.2 else Flags.none))
      else if !last then some (s, .ok (next d Flags.none))
      else
        let rows := (List.range (b.count 1)).map (fun m => d.rowOf (idx m))
        some (write s d (rows.contains none) ((g : Int) * (b.dim 2).ds) (pooledOut d b n rows))

/-! ### Starts -/

/-- The ring a CRING delivers into may be used (R242): none, or the cause of the fault. -/
def State.ringCheck (s : State) (c : Nat) (d : Cmd) : Option Nat :=
  let remote := d.word.getLsbD 17
  let tc := d.ringCore c
  if remote && d.rb.toNat ≥ 64 then some causeOp
  else if remote && !(dieOf tc = dieOf c && (s.core tc).job.isSome && (s.core tc).job = (s.core c).job) then some causeHandle
  else if ((s.core tc).ctx.rg (d.bits 18 3)).nslot = 0 then some causeConfig
  else none
def Cmd.cont (d : Cmd) : Bool := d.word.getLsbD 16
/-- A CRING that must claim a slot waits for Free (13 R368). -/
def State.ringWaits (s : State) (c : Nat) (d : Cmd) : Bool :=
  d.isRing && !d.cont && d.slotNo.isNone && (s.ringCheck c d).isNone &&
    !((s.core (d.ringCore c)).ctx.rg (d.bits 18 3)).free
/-- The slot a CRING delivers into: claimed, or the one claimed before (R242). -/
def State.ringStart (s : State) (c : Nat) (d : Cmd) : Except Nat (State × Cmd) :=
  let tc := d.ringCore c
  let id := 8 * tc + d.bits 18 3
  match s.ringCheck c d with
  | some e => .error e
  | none =>
    if d.slotNo.isSome then .ok (s, d)
    else if d.cont then
      match (s.core c).eng.lastRing.get none d.q with
      | some (r, slot) => if r = id then .ok (s, { d with slotNo := some slot }) else .error causeOp
      | none => .error causeOp
    else
      let ring := (s.core tc).ctx.rg (d.bits 18 3)
      let s := s.onCtx tc (·.setRg (d.bits 18 3) ring.claim)
      .ok (s.onCore c (·.onEng (fun e => { e with lastRing := e.lastRing.set none d.q (some (id, ring.tail)) })),
        { d with slotNo := some ring.tail })

/-- The index list of a CGATH or CSCAT, read at the start (R215, R238, R239); only a CGATH's is to be 4-byte aligned. -/
def State.indexList (s : State) (c : Nat) (d : Cmd) (b : Blk) : Except Nat (List Byte) :=
  let a := addr64 ((d.rb.toNat : Int) + d.n * b.sstep)
  let n := 4 * (if d.op = 3 then b.count 1 * b.count 2 else b.count 1)
  if d.op = 3 && a % 4 != 0 then .error causeAlign
  else if spadSize c (s.core c).ctx < a + n then .error causeRange
  else .ok ((s.core c).ctx.ldRange a n)

/-- The cause that the start of a copy with a parameter block meets, in the order of its checks (R233 to R239). -/
def State.copyCheck (s : State) (c : Nat) (d : Cmd) (b : Blk) : Option Nat :=
  let k := (s.core c).ctx
  let a := d.ra.toNat
  if a % 32 != 0 then some causeAlign
  else if spadSize c k < a + 160 then some causeRange
  else if !blkOk d b then some causeOp
  else if d.op = 5 && (runBytes d b * runCount d b % 256 != 0 || !coverOk d b) then some causeOp
  else if d.op != 5 && epKind b.dst = 2 && !k.mayWrite d.banks 3 (epNum b.dst) then some causeBind
  else if d.op = 7 && (d.castCores c).any (fun x => !((s.core x).job.isSome && (s.core x).job = (s.core c).job)) then some causeHandle
  else none
/-- The pages of a copy's two handles are pinned while it is in flight (R210). -/
def State.pinBoth (s : State) (hs hd : Handle) : State :=
  let s := if hs.valid then s.onMem (·.pin hs.frame) else s
  if hd.valid then s.onMem (·.pin hd.frame) else s
/-- A copy with a parameter block that has passed its checks: its handles, its size, its index list or its ring slot. -/
def State.copyBlock (s : State) (c : Nat) (d : Cmd) (bytes : List Byte) : Except Nat (State × Cmd) :=
  let k := (s.core c).ctx
  let b := Blk.ofBytes bytes
  let hs := if d.op != 8 && epKind b.src = 1 then k.h (epNum b.src) else Handle.empty
  let hd := if d.op != 5 && epKind b.dst = 1 then k.h (epNum b.dst) else Handle.empty
  let total := if d.op = 3 then b.count 2 else (runBytes d b * runCount d b + 255) / 256
  let d := { d with blk := bytes, hs := hs, hd := hd, prog0 := total, finished := decide (total ≤ d.done.length) }
  if d.op = 3 || d.op = 4 then
    match s.indexList c d b with
    | .error e => .error e
    | .ok l => .ok (s.pinBoth hs hd, { d with aux := l })
  else if d.op = 6 then
    match s.ringStart c d with
    | .error e => .error e
    | .ok r => .ok (r.1.pinBoth hs hd, r.2)
  else .ok (s.pinBoth hs hd, d)
/-- Start a copy command: the block and handles it reads, its checks, and the number of its granules. -/
def State.copyStart (s : State) (c : Nat) (d : Cmd) : Except Nat (State × Cmd) :=
  let k := (s.core c).ctx
  if d.op = 9 then
    if 2 ^ 24 ≤ d.ra.toNat then .error causeOp
    else
      let n := d.bits 17 4
      let new : Barrier := { k.bb.get Barrier.empty n with target := d.ra.toNat, count := 0, full := none }
      .ok (s.onCtx c (fun x => { x with bb := x.bb.set Barrier.empty n new }), { d with finished := true })
  else if d.op = 10 then .ok (s, { d with finished := true })
  else
    let bytes := k.ldRange d.ra.toNat 160
    match s.copyCheck c d (Blk.ofBytes bytes) with
    | some e => .error e
    | none => s.copyBlock c d bytes

end Sys2Proof.Machine
end

