-- ==== Sys2Proof/Machine/Engine.lean ====
section
/-! DEFINITION. The engines' events: COMMAND_START, MRUN_PANEL_READY, COPY_GRANULE_COMPLETE and COMMAND_RETIRE
(13_engines_arbitration.md R368 to R372, 07_matrix_copy_instructions.md R211 to R213, R223, R226, R240). -/
namespace Sys2Proof.Machine

/-- A fault that a command raises, against its slot and its naming bundle (09 R518); a command in flight goes no further. -/
def State.engFault (s : State) (c : Nat) (d : Cmd) (cause : Nat) : State :=
  s.onCore c (fun k => ((k.fatal ⟨cause, 3 + d.q, 0, d.naming⟩).noteFatal s.gtick).onEng (fun e =>
    { e with fly := e.fly.map (fun x => if x.tag = d.tag then { x with failed := some cause } else x) }))
/-- The engine has moved: the watchdog's count returns to zero (09 R292). -/
def State.engMoved (s : State) (c : Nat) : State := s.onSeq c (fun q => { q with idleCycles := 0 })
/-- A trap, a save or a fatal cause stops the engines at their interrupt steps (09 R280, R293). -/
def Core.engStops (k : Core) : Bool :=
  k.seq.fatal.isSome || k.seq.phase = .trapDrain || k.seq.phase = .saveDrain || k.seq.phase = .fatal || k.seq.phase = .off
def State.putFly (s : State) (c : Nat) (d : Cmd) : State :=
  s.onCore c (·.onEng (fun e => { e with fly := e.fly.map (fun x => if x.tag = d.tag then { d with old := x.old } else x) }))

/-! ### COMMAND_START -/

/-- Every earlier ST, STS and ATOM is performed (11 R333), and with ACQ every earlier LD and ATOM has landed. -/
def Core.storesBefore (k : Core) (d : Cmd) : Bool :=
  k.seq.stores.all (fun x => decide (d.key ≤ x.issue)) && k.seq.loads.all (fun l => l.atom.isNone || decide (d.key ≤ l.issue)) &&
    k.seq.pend.all (fun p => match p.eff with
      | .spad _ _ => decide (2 < p.unit) || decide (d.key ≤ writeKey p.issue p.unit)
      | _ => true)
def Core.loadsBefore (k : Core) (d : Cmd) : Bool := k.seq.loads.all (fun l => decide (d.key ≤ l.issue))
/-- The engine is free for the command: it starts in queue order, and nothing is done before an earlier CWAIT or CARM has retired
(R211, 21 R499). -/
def Core.engineFree (k : Core) (d : Cmd) : Bool :=
  let n := (k.eng.fly.filter (fun x => x.q = d.q)).length
  if d.isM || d.isWaitOrArm then n = 0
  else n < 4 && (k.eng.fly.all (fun x => x.q != d.q || !x.isWaitOrArm))
/-- The semaphore a command signals (R212, R240). -/
def Cmd.signals (d : Cmd) : Option Nat :=
  if d.isWait then d.wSig
  else if d.isM || d.op = 9 then none
  else if d.ck = 1 then some d.cn else none

/-- Mould loads of other cores that wait for this core's engine (R223). -/
def State.applyMoulds (s : State) (c : Nat) : State :=
  (s.mouldPeers c).foldl (fun s p =>
    (s.core p).eng.fly.foldl (fun s d =>
      let ml := d.bits 31 2
      if d.isM && d.op = 1 && d.word.getLsbD 25 && !d.done.contains c && !((s.core c).eng.fly.any (·.usesMould ml)) then
        (s.onCtx c (·.setMould ml d.aux)).putFly p { d with done := d.done ++ [c] }
      else s) s) s

def State.cmdStart (s : State) (c : Nat) (d : Cmd) : Except Nat (State × Cmd) :=
  if d.isM then s.matStart c d else s.copyStart c d
/-- The error correction of what a command reads as it starts: its own place in the queue, and in the scratchpad a mould image, or a
parameter block and an index list (10 R316, R317). -/
def State.startEcc (s : State) (c : Nat) (d d' : Cmd) : State × Bool :=
  let p := spadPool c (s.core c).ctx
  let e := s.coreEcc c (if d.isM then 3 else 4) [512 + d.q]
  let l : List (Nat × Nat) :=
    if d.isM then (if d.op = 1 && !d.word.getLsbD 30 then [(d.ra.toNat, 512)] else [])
    else if d.op = 9 || d.op = 10 then []
    else (d.ra.toNat, 160) ::
      (if d.op = 3 || d.op = 4 then [(addr64 ((d.rb.toNat : Int) + d.n * (Blk.ofBytes d'.blk).sstep), d'.aux.length)] else [])
  let t := e.1.sramAll c (if d.isM then 3 else 4) (l.map (fun r => (p + r.1, r.2)))
  (t.1, e.2 || t.2)

/-- A suspended command goes on from its interrupt step with what it read at its start (07 R210, R216, 09 R280). -/
def State.goOn (s : State) (c : Nat) (d : Cmd) : State :=
  (s.onCore c (·.onEng (fun e => { e with queue := e.queue.filter (fun x => x.tag != d.tag),
                                          fly := e.fly ++ [d] }))).engMoved c
/-- The command starts: what it reads is checked, its registers and handles are read, and it is in flight (R211, R213). -/
def State.startCmd (s : State) (c : Nat) (d : Cmd) : State :=
  if d.started then s.goOn c d
  else match s.cmdStart c d with
  | .error e => s.engFault c d e
  | .ok (_, d') =>
    let r := s.startEcc c d d'
    if r.2 then r.1.engFault c d causeEcc
    else match r.1.cmdStart c d with
      | .error e => r.1.engFault c d e
      | .ok (s, d) =>
        (s.onCore c (·.onEng (fun e => { e with queue := e.queue.filter (fun x => x.tag != d.tag),
                                                fly := e.fly ++ [{ d with started := true, birth := s.mem.qseq }] }))).engMoved c

/-- A remote CRING that has claimed no slot does not start while the core that owns its ring is being saved (15 R409). -/
def State.ringShut (s : State) (c : Nat) (d : Cmd) : Bool :=
  d.isRing && d.word.getLsbD 17 && d.slotNo.isNone &&
    ((s.core (d.ringCore c)).seq.phase = .saveDrain || (s.core (d.ringCore c)).seq.phase = .yielding)
/-- The conditions of a queue's head to start, beside those of a wait (R368). -/
def State.mayStart (s : State) (c : Nat) (d : Cmd) : Bool :=
  let k := s.core c
  !(k.engStops || !d.guarded || !k.engineFree d || !k.storesBefore d || (d.acq && !k.loadsBefore d) || s.ringWaits c d ||
    s.ringShut c d)
/-- The ring that a CRING is about to claim a slot of. -/
def Cmd.claimAt (d : Cmd) (c : Nat) : Option Nat :=
  if d.isRing && !d.cont && d.slotNo.isNone then some (8 * d.ringCore c + d.bits 18 3) else none
/-- The place of core `c`'s queue `q` in the order of the claims of one cycle on a ring of core `o` (15 R409). -/
def claimRank (o c q : Nat) : Nat := if c = o then q else 2 * c + q + 2
/-- Another claim on the same ring falls in this cycle and comes first: its command, too, may start now (13 R368, 15 R409). -/
def State.claimAhead (s : State) (c : Nat) (d : Cmd) : Bool :=
  match d.claimAt c with
  | none => false
  | some r => s.cores.any (fun e => [1, 2].any (fun q =>
      decide (claimRank (r / 8) e.1 q < claimRank (r / 8) c d.q) &&
        (match e.2.eng.queue.find? (fun x => x.q = q) with
         | some x => x.claimAt e.1 = some r && s.mayStart e.1 x
         | none => false)))
/-- The head of queue `q` starts, once all its conditions hold (R368). -/
def execCommandStart (c q : Nat) (s : State) : Host.Outcome State Fault Refusal :=
  let s := s.onCore c (·.guardHeads)
  match (s.core c).eng.queue.find? (fun d => d.q = q) with
  | none => .next s
  | some d =>
    if !s.mayStart c d || s.claimAhead c d then .next s
    else
      let bad := match d.signals with | some n => !s.semOk c n | none => false
      let s := if d.isM then s.applyMoulds c else s
      if bad then .next (s.engFault c d causeHandle)
      else if d.isWait then
        match s.waitCond c d with
        | .error e => .next (s.engFault c d e)
        | .ok false => .next s
        | .ok true =>
          .next ((if d.wKind = 1 then s.semPut c d.wNum (s.semGet c d.wNum - d.wVal) else s).startCmd c d)
      else .next (s.startCmd c d)

/-! ### MRUN_PANEL_READY and COPY_GRANULE_COMPLETE -/

/-- A waiting MRUN or MRUNS goes on with its panel by `n` K-blocks (R226). -/
def execMrunPanelReady (c n : Nat) (s : State) : Host.Outcome State Fault Refusal :=
  let k := s.core c
  match k.eng.fly.find? (fun d => d.isM && (d.op = 4 || d.op = 5) && !d.finished) with
  | none => .next s
  | some d =>
    if k.engStops then .next s
    else match s.runPanel c d n with
      | none => .next s
      | some (s, .error e) => .next (s.engFault c d e)
      | some (s, .ok d) => .next ((s.putFly c d).engMoved c)

/-- The `k`-th command in flight of a queue. -/
def Core.flyAt (k : Core) (q i : Nat) : Option Cmd := (k.eng.fly.filter (fun d => d.q = q))[i]?
/-- Granules asked for and not delivered, the command's first `n` being asked for at least (R372). -/
def Cmd.outstanding (d : Cmd) (n : Nat) : Nat := d.done.foldl (fun m g => max m (g + 1)) n - d.done.length
/-- Granule `g` can be among the 256 that the engine keeps outstanding over its commands in flight: the granules of a command
are asked for in loop order (R372). -/
def Core.inWindow (k : Core) (d : Cmd) (g : Nat) : Bool :=
  decide ((k.eng.fly.filter (fun x => x.q = d.q)).foldl (fun n x =>
    n + x.outstanding (if x.tag = d.tag then g + 1 else 0)) 0 ≤ 256)
/-- Granule `g` of the command may still be delivered while the engines stop at their interrupt steps: one before a granule
that has been, or its first (09 R280, R293; 20 R487). -/
def Cmd.fills (d : Cmd) (g : Nat) : Bool := !d.isGather && (d.done.any (fun h => decide (g < h)) || (d.done.isEmpty && g = 0))
/-- Granule `g` of the `i`-th copy in flight of queue `q` completes (R372); for CGATH, the next granule of bag `g`. -/
def execCopyGranuleComplete (c q i g : Nat) (s : State) : Host.Outcome State Fault Refusal :=
  let k := s.core c
  match k.flyAt q i with
  | none => .next s
  | some d =>
    if d.isM || d.finished || d.failed.isSome || d.prog0 ≤ g || d.done.contains g || !k.inWindow d g || (k.engStops && !d.fills g) then
      .next s
    else match (if d.isGather then s.gathStep c d g else s.copyGranule c d g) with
      | none => .next s
      | some (s, .error e) => .next (s.engFault c d e)
      | some (s, .ok d) => .next ((s.putFly c d).engMoved c)

/-! ### COMMAND_RETIRE -/

/-- A result that writes the scratchpad or a tile register, as it lands. -/
def LandEff.isWrite (e : LandEff) : Bool :=
  match e with
  | .spad _ _ => true
  | .row _ (some _) _ => true
  | .pair _ _ => true
  | _ => false
/-- With REL, the lockstep writes issued before the command are performed (R213, 11 R328). -/
def Core.relBefore (k : Core) (d : Cmd) : Bool :=
  k.storesBefore d && k.seq.pend.all (fun p => !p.eff.isWrite || decide (d.key ≤ writeKey p.issue p.unit))
/-- The command leaves: its flags, its completion signal, its pages and its binding (R212, R216, R241). -/
def State.retire (s : State) (c : Nat) (d : Cmd) : State :=
  let s := s.unpinCmd d
  let s := s.onCore c (fun k =>
    ((if !d.isM && d.op = 5 then k.unbind d else k).onEng (fun e => { e with fly := e.fly.filter (fun x => x.tag != d.tag) })).onCtx
      (·.addFlags d.flags))
  ((s.signal c d.signals (3 + d.q) d.naming).engMoved c).hostGo
/-- One engine step of a matrix command that is not finished; or its retirement. -/
def execCommandRetire (c q i : Nat) (s : State) : Host.Outcome State Fault Refusal :=
  let k := s.core c
  match k.flyAt q i with
  | none => .next s
  | some d =>
    if d.finished then
      if d.rel && !k.relBefore d then .next s else .next ((s.retire c d).onCore c (·.guardHeads))
    else if d.isM && d.op = 1 then
      let ml := d.bits 31 2
      let peers := s.mouldPeers c
      let ready := peers.filter (fun p => !d.done.contains p && !((s.core p).eng.fly.any (·.usesMould ml)))
      let s := ready.foldl (fun s p => s.onCtx p (·.setMould ml d.aux)) s
      let d := { d with done := d.done ++ ready }
      .next ((s.putFly c { d with finished := peers.all d.done.contains }).engMoved c)
    else if !d.isM || k.engStops then .next s
    else match s.matStep c d with
      | none => .next s
      | some (s, .error e) => .next (s.engFault c d e)
      | some (s, .ok d) => .next ((s.putFly c d).engMoved c)

end Sys2Proof.Machine
end

