-- ==== Sys2Proof/Machine/Vat.lean ====
section
/-! DEFINITION. The vat unit (08_coprocessor_instructions.md R251 to R256, 14_expert_vats.md R381 to R395): VTCFG, VTENQ,
VTFIRE, VTSTAT, VTCLOSE, FIRING_DECISION, VAT_SPILL_STEP, VAT_REFILL, SPILL_REQUEST and REMOTE_ENQUEUE. -/
namespace Sys2Proof.Machine

/-! ### The pool, the spill region and records (R45, R386) -/

def State.vatAt (s : State) (v : Nat) : Vat := s.vat.vats.get Vat.empty v
def State.setVat (s : State) (v : Nat) (x : Vat) : State := s.onVat (fun u => { u with vats := u.vats.set Vat.empty v x })
def VatUnit.poolFree (u : VatUnit) : Nat := 65536 - (u.vats.map (fun e => e.2.chip.length)).sum
def VatUnit.spillFree (u : VatUnit) : Nat := 16777216 - (u.vats.map (fun e => e.2.spill.length)).sum
def Vat.total (v : Vat) : Nat := v.chip.length + v.spill.length

/-- The reserved bits of a token record (R45). -/
def recReserved (r : BitVec 256) : Bool :=
  r.extractLsb' 57 7 != 0 || r.extractLsb' 157 3 != 0 || r.extractLsb' 180 12 != 0 || r.extractLsb' 224 32 != 0
/-- The fields the unit writes when it accepts a record: REMOTE, SPILLED = 0 and the enqueue tick. -/
def recAccept (r : BitVec 256) (remote : Bool) (tick : Nat) : BitVec 256 :=
  setBit (setBit ((r &&& ~~~(0xFFFFFFFF#256 <<< 192)) ||| (BitVec.ofNat 256 (tick % 2 ^ 32) <<< 192)) 156 remote) 155 false
def recSpilled (r : BitVec 256) : BitVec 256 := setBit r 155 true
/-- A record's age in ticks (R384). -/
def recAge (tick : Nat) (r : BitVec 256) : Nat := (tick % 2 ^ 32 + 2 ^ 32 - (r.extractLsb' 192 32).toNat) % 2 ^ 32
def Vat.oldest (v : Vat) (tick : Nat) : Nat :=
  match v.chip ++ v.spill with | [] => 0 | r :: _ => recAge tick r

/-- The jobs that hold on-chip records. -/
def VatUnit.onChip (u : VatUnit) : List Nat := ((u.vats.filter (fun e => e.2.state != 0 && !e.2.chip.isEmpty)).map (·.2.owner)).eraseDups
/-- An acceptance that leaves fewer than 1,024 free pool entries starts the spilling (R387); where they were 1,024 before it, the
pool has fallen, and each host-mode job with on-chip records is to be told (R389). -/
def State.poolFell (s : State) (fell : Bool) : State :=
  if 1024 ≤ s.vat.poolFree then s
  else s.onVat (fun u => { u with spilling := true, low := if fell then u.onChip.filter (fun j => s.dutyBit j 2) else u.low })
/-! ### The spill region (R381) -/

/-- The block that holds an entry of the spill region: 32 bytes at the frames from 0x23_D800 of die 1 (R381). -/
def entryBlock (e : Nat) : Nat := blockOf (hbmKey 1 (65536 * 0x23D800 + 32 * e))
/-- An entry that no vat uses, and none of `more`: the first at or after `r` (R386 names none; log 29). -/
def VatUnit.entry (u : VatUnit) (more : List Nat) (r : Nat) : Nat :=
  let used := more ++ u.vats.flatMap (·.2.ent)
  match (List.range (used.length + 1)).find? (fun i => !used.contains ((r + i) % 2 ^ 24)) with
  | some i => (r + i) % 2 ^ 24
  | none => r
/-- `n` entries taken and written. An entry is part of its block, so that one in an uncorrectable block is not written: the
block stays poisoned and is reported (R381, 10 R317). -/
def State.spillTo (s : State) : Nat → State × List Nat
  | 0 => (s, [])
  | n + 1 =>
    let r := s.spillTo n
    let e := r.1.vat.entry r.2 (Config.freeValue 24 r.1.free).toNat
    let t := { r.1 with free := r.1.free + 1 }
    (if t.mem.uncorrectable (entryBlock e) then (t.eccBlock 11 0 (entryBlock e)).1 else t, e :: r.2)
/-- Spilled records read back, each with the error correction of its block; what an uncorrectable block's record reads as is a free
value (R381, 10 R316, R317; log 29). -/
def State.spillRead (s : State) : List (BitVec 256) → List Nat → State × List (BitVec 256)
  | [], _ => (s, [])
  | x :: rest, es =>
    let t := s.eccBlock 7 0 (entryBlock (es.headD 0))
    let u := if t.2 then { t.1 with free := t.1.free + 1 } else t.1
    let r := u.spillRead rest es.tail
    (r.1, (if t.2 then Config.freeValue 256 t.1.free else x) :: r.2)

/-- A record placed last in a vat's arrival order; none where neither the pool nor the spill region has room (R386, R390). -/
def State.vatAccept (s : State) (v : Nat) (r : BitVec 256) (remote : Bool) : Option State :=
  let x := s.vatAt v
  let r := recAccept r remote s.gtick
  if x.spill.isEmpty && s.vat.poolFree != 0 then some ((s.setVat v { x with chip := x.chip ++ [r] }).poolFell (1024 ≤ s.vat.poolFree))
  else if s.vat.spillFree != 0 then
    let t := s.spillTo 1
    some ((t.1.setVat v { x with spill := x.spill ++ [r], ent := x.ent ++ t.2 }).poolFell false)
  else none

/-! ### The vat functions (R252 to R256) -/

/-- A template is a loop-nest TCB of the job (R252). -/
def State.isNest (s : State) (job n : Nat) : Bool :=
  match s.job job with | some j => decide (n < j.ntcb) && (j.tcb.get Tcb.empty n).kind = 1 | none => false

/-- A vat closes: its records are freed, and each VTFIRE pending replies 0 (R254, R256). -/
def State.vatShut (s : State) (v : Nat) : State :=
  let x := s.vatAt v
  x.forced.foldl (fun s d => s.answer d.1 0) (s.setVat v Vat.empty)
/-- A draining vat that has become empty closes, and its VTCLOSE replies (R391). -/
def State.vatDrained (s : State) (v : Nat) : State :=
  let x := s.vatAt v
  match x.closing with
  | some (d, made) => if x.state = 1 && x.total = 0 then (s.vatShut v).answer d (BitVec.ofNat 64 made) else s
  | none => s

/-- The fields of VTCFG (R251). -/
def cfgVat (d : UnitCmd) (x : Vat) : Vat :=
  let th := (d.a.extractLsb' 11 8).toNat
  { x with threshold := if th = 0 then 256 else th, prio := (d.a.extractLsb' 19 3).toNat, tmpl := (d.b.extractLsb' 0 20).toNat,
           age := (d.b.extractLsb' 20 22).toNat }
/-- VTCFG's operands outside their limits (R252). -/
def State.cfgRange (s : State) (d : UnitCmd) : Bool :=
  let age := (d.b.extractLsb' 20 22).toNat
  age < 1000 || 4000000 < age || !s.isNest d.job (d.b.extractLsb' 0 20).toNat
def vatNum (d : UnitCmd) : Nat := (d.a.extractLsb' 0 11).toNat
/-- The vat's word of VTSTAT (R255). -/
def Vat.word (x : Vat) (tick : Nat) : Word :=
  BitVec.ofNat 64 (x.state * 2 ^ 61 + x.chip.length * 2 ^ 44 + x.spill.length * 2 ^ 19 +
    min 4095 (x.oldest tick / 1000) * 2 ^ 7)

/-- Wait for the end of the vat's firing (R247). -/
def State.vatHold (s : State) (v : Nat) (d : UnitCmd) (arr : Nat) : State :=
  s.setVat v { s.vatAt v with held := (s.vatAt v).held ++ [(d, arr)] }

def State.vtcfg (s : State) (d : UnitCmd) (arr : Nat) : State :=
  let v := vatNum d
  let x := s.vatAt v
  if d.a.extractLsb' 22 42 != 0 || d.b.extractLsb' 42 22 != 0 then s.refuse d errRsvd
  else if x.state != 0 && x.owner != d.job then s.refuse d errOwner
  else if x.state = 2 then s.vatHold v d arr
  else if s.cfgRange d then s.refuse d errRange
  else (s.setVat v (cfgVat d (if x.state = 0 then { Vat.empty with state := 1, owner := d.job } else x))).answer d 0
def State.vtenq (s : State) (d : UnitCmd) : State :=
  let v := (d.b.extractLsb' 0 11).toNat
  let x := s.vatAt v
  let r := BitVec.ofNat 256 (ofLe d.data)
  if d.b.extractLsb' 11 53 != 0 || recReserved r then s.refuse d errRsvd
  else if x.state = 0 || x.owner != d.job || x.closing.isSome then s.refuse d errOwner
  else match s.vatAccept v r false with
    | none => s.refuse d errSpill
    | some s => s.answer d (BitVec.ofNat 64 (s.vatAt v).total)
def State.vtfire (s : State) (d : UnitCmd) (arr : Nat) : State :=
  let v := vatNum d
  let x := s.vatAt v
  if d.a.extractLsb' 11 53 != 0 then s.refuse d errRsvd
  else if x.state = 0 || x.owner != d.job then s.refuse d errOwner
  else if x.state = 2 then s.vatHold v d arr
  else if x.total = 0 then s.answer d 0
  else s.setVat v { x with forced := x.forced ++ [(d, arr)] }
def State.vtstat (s : State) (d : UnitCmd) : State :=
  let x := s.vatAt (vatNum d)
  if d.a.extractLsb' 11 53 != 0 then s.refuse d errRsvd
  else if x.state != 0 && x.owner != d.job then s.refuse d errOwner
  else s.answer d (x.word s.gtick)
def State.vtclose (s : State) (d : UnitCmd) (arr : Nat) (drain : Bool) : State :=
  let v := vatNum d
  let x := s.vatAt v
  if d.a.extractLsb' 11 53 != 0 then s.refuse d errRsvd
  else if x.state = 0 || x.owner != d.job then s.refuse d errOwner
  else if drain && x.closing.isSome then s.refuse d errState
  else if x.state = 2 then s.vatHold v d arr
  else if drain then (s.setVat v { x with closing := some (d, 0), closeArr := arr }).vatDrained v
  else
    let s := (s.vatShut v).answer d (BitVec.ofNat 64 x.total)
    match x.closing with
    | some (e, made) => s.answer e (BitVec.ofNat 64 made)
    | none => s

/-- The unit applies a command (R247). -/
def State.vatApply (s : State) (d : UnitCmd) (arr : Nat) : State :=
  match d.op with
  | .vtcfg _ => s.vtcfg d arr
  | .vtenq _ => s.vtenq d
  | .vtfire _ => s.vtfire d arr
  | .vtstat _ => s.vtstat d
  | .vtclose f => s.vtclose d arr (f.fields.getLsbD 0)
  | _ => s
/-- A command arrives at the unit. -/
def State.vatCmd (s : State) (d : UnitCmd) : State :=
  (s.onVat (fun u => { u with arrivals := u.arrivals + 1 })).vatApply d s.vat.arrivals

/-- The end of a vat's firing, by TEND or cancelled (R391): the commands set aside apply in their order, and a VTFIRE left
without a record replies 0. -/
def State.vatReopen (s : State) (v : Nat) : State :=
  let x := s.vatAt v
  if x.state != 2 then s
  else
    let gone := if x.total = 0 then x.forced else []
    let s := s.setVat v { x with state := 1, fseq := x.fseq + 1, held := [], forced := if x.total = 0 then [] else x.forced }
    let s := (gone.foldl (fun s d => s.answer d.1 0) s).vatDrained v
    x.held.foldl (fun s d => s.vatApply d.1 d.2) s

def execVtcfg (f : CF) (s : State) : Host.Outcome State Fault Refusal :=
  commitCop s (fun s => s.copIssue f notLookup (.vtcfg f) [] (·.vatCmd ·))
/-- VTENQ reads its record at issue: its faults arise there, before anything is sent (R251). -/
def execVtenq (f : CF) (s : State) : Host.Outcome State Fault Refusal :=
  commitCop s (fun s =>
    let c := s.unit.core
    let k := s.core c
    let a := (k.ctx.src f.sa).toNat
    if kindOf c = .lookup then s.onCore c (·.fault s.unit causeOp)
    else if spadSize c k.ctx < a + 32 then s.onCore c (·.fault s.unit causeRange)
    else if a % 32 != 0 then s.onCore c (·.fault s.unit causeAlign)
    else
      let e := s.sram c 1 (spadPool c k.ctx + a) 32
      if e.2 then e.1.onCore c (·.fault s.unit causeEcc)
      else e.1.copIssue f notLookup (.vtenq f) (k.spadNow.ld a 32) (·.vatCmd ·))
def execVtfire (f : CF) (s : State) : Host.Outcome State Fault Refusal :=
  commitCop s (fun s => s.copIssue f notLookup (.vtfire f) [] (·.vatCmd ·))
def execVtstat (f : CF) (s : State) : Host.Outcome State Fault Refusal :=
  commitCop s (fun s => s.copIssue f notLookup (.vtstat f) [] (·.vatCmd ·))
def execVtclose (f : CF) (s : State) : Host.Outcome State Fault Refusal :=
  commitCop s (fun s => s.copIssue f notLookup (.vtclose f) [] (·.vatCmd ·))

/-! ### Firing (R392 to R394) -/

/-- What a ready vat is ready by, as the number that the order of R393 compares: the smaller is taken first. -/
def Vat.rank (x : Vat) (v tick : Nat) : Option Nat :=
  if x.state != 1 || x.total = 0 then none
  else if x.age ≤ x.oldest tick then some ((2 ^ 32 - x.oldest tick) * 2 ^ 12 + v)
  else if !x.forced.isEmpty || x.closing.isSome then
    let arrs := x.forced.map (·.2) ++ (if x.closing.isSome then [x.closeArr] else [])
    some (2 ^ 60 + arrs.foldl min (arrs.headD 0))
  else if x.threshold ≤ x.total then some (2 ^ 200 + (7 - x.prio) * 2 ^ 40 + (2 ^ 25 - x.total) * 2 ^ 12 + v)
  else none
def firstRank (tick : Nat) : List (Nat × Vat) → Option (Nat × Nat)
  | [] => none
  | e :: rest =>
    match e.2.rank e.1 tick, firstRank tick rest with
    | none, r => r
    | some a, none => some (a, e.1)
    | some a, some b => if a ≤ b.1 then some (a, e.1) else some b

/-- The key of the first byte of a vat's page (R381). -/
def vatPage (v : Nat) : Nat := hbmKey 1 (65536 * (0x23F800 + v))
/-- The firing list written to the vat's page: the records, then zeros (R394). -/
def Mem.fireList (m : Mem) (v : Nat) (l : List (BitVec 256)) : Mem :=
  let bs := blocksOf (vatPage v) 8192
  let m := (m.zero (vatPage v) 8192).wr (vatPage v) (l.flatMap (fun r => leBytes 32 r.toNat))
  { m with poison := bs.foldl (fun t b => t.set false b false) m.poison, bad := bs.foldl (fun t b => t.set false b false) m.bad }
/-- The firing of a vat (R394). -/
def State.fireVat (s : State) (v : Nat) : State :=
  let x := s.vatAt v
  let n := min x.total 256
  let aged := decide (x.age ≤ x.oldest s.gtick)
  let tcb := match s.job x.owner with | some j => j.tcb.get Tcb.empty x.tmpl | none => Tcb.empty
  let m := n - x.chip.length
  let sp := s.spillRead (x.spill.take m) x.ent
  let taken := x.chip.take n ++ sp.2.map recSpilled
  let s := sp.1.onMem (·.fireList v taken)
  let new : Vat := { x with state := 2, chip := x.chip.drop n, spill := x.spill.drop m, ent := x.ent.drop m,
                            closing := x.closing.map (fun e => (e.1, e.2 + 1)), forced := x.forced.drop 1 }
  let s := s.setVat v new
  let s := match x.forced with | d :: _ => s.answer d.1 (BitVec.ofNat 64 n) | [] => s
  let r := s.takeSeq
  let fire : Firing := ⟨v, x.tmpl, if aged then 0 else tcb.cls, n, x.fseq, r.2⟩
  (r.1.onJob x.owner (fun j => { j with firings := j.firings ++ [fire] })).onVat (fun u => { u with lastFire := some s.gtick })
/-- FIRING_DECISION: the first ready vat fires, at most one every 4 ticks (R393). -/
def execFiringDecision (s : State) : Host.Outcome State Fault Refusal :=
  if (match s.vat.lastFire with | some t => decide (s.gtick < t + 4) | none => false) then .next s
  else match firstRank s.gtick s.vat.vats with
    | none => .next s
    | some r => .next (s.fireVat r.2)

/-! ### Spill and refill (R387 to R390) -/

/-- How many of a vat's youngest on-chip records may be spilled: neither its oldest 256, nor one whose age has reached the
age timer. -/
def Vat.movable (x : Vat) (tick : Nat) : Nat :=
  (((x.chip.drop 256).reverse).takeWhile (fun r => decide (recAge tick r < x.age))).length
/-- Move a vat's `n` youngest on-chip records to the head of its spilled run. -/
def State.spillFrom (s : State) (v n : Nat) : State :=
  let x := s.vatAt v
  let n := min (min n (x.movable s.gtick)) s.vat.spillFree
  let keep := x.chip.length - n
  let t := s.spillTo n
  t.1.setVat v { x with chip := x.chip.take keep, spill := x.chip.drop keep ++ x.spill, ent := t.2 ++ x.ent }
/-- The victim: the largest on-chip fill above 256, the lowest number on a tie. -/
def victim (tick : Nat) (ok : Vat → Bool) : List (Nat × Vat) → Option (Nat × Nat)
  | [] => none
  | e :: rest =>
    match victim tick ok rest with
    | none => if ok e.2 && 0 < e.2.movable tick then some (e.2.chip.length, e.1) else none
    | some b => if ok e.2 && 0 < e.2.movable tick && decide (b.1 ≤ e.2.chip.length) then some (e.2.chip.length, e.1) else some b
/-- One of the host's pairs goes on by up to 32 records, as far as the exclusions of R387 allow (R389). -/
def State.orderStep (s : State) (o : Nat × Nat × Nat) (rest : List (Nat × Nat × Nat)) : State :=
  let x := s.vatAt o.2.1
  let n := min (min 32 o.2.2) (x.movable s.gtick)
  let mine := x.state != 0 && x.owner = o.1 && n != 0
  let s := if mine then s.spillFrom o.2.1 n else s
  s.onVat (fun u => { u with orders := if mine && n < o.2.2 then (o.1, o.2.1, o.2.2 - n) :: rest else rest, lastSpill := some s.gtick })
/-- VAT_SPILL_STEP: one step every 64 ticks: of the host's pairs first (R389; log 29), then of the unit's own spill, until 4,096
entries are free or no victim remains (R387). -/
def execVatSpillStep (s : State) : Host.Outcome State Fault Refusal :=
  if (match s.vat.lastSpill with | some t => decide (s.gtick < t + 64) | none => false) then .next s
  else match s.vat.orders with
  | o :: rest => .next (s.orderStep o rest)
  | [] =>
    if !s.vat.spilling then .next s
    else if 4096 ≤ s.vat.poolFree then .next (s.onVat (fun u => { u with spilling := false }))
    else match victim s.gtick (fun x => x.state != 0 && !s.dutyBit x.owner 2) s.vat.vats with
      | none => .next (s.onVat (fun u => { u with spilling := false }))
      | some r => .next ((s.spillFrom r.2 32).onVat (fun u =>
          { u with lastSpill := some s.gtick, spilling := decide (u.poolFree < 4096) }))

/-- VAT_REFILL: a vat short of 256 on-chip records takes records back from the head of its spilled run, while 4,096 pool
entries are free (R388). -/
def execVatRefill (v : Nat) (s : State) : Host.Outcome State Fault Refusal :=
  let x := s.vatAt v
  let n := min (min (256 - x.chip.length) x.spill.length) (s.vat.poolFree - 4095)
  let r := s.spillRead (x.spill.take n) x.ent
  .next (r.1.setVat v { x with chip := x.chip ++ r.2.map recSpilled, spill := x.spill.drop n, ent := x.ent.drop n })

/-- The per-vat on-chip fills of a job. -/
def VatUnit.fills (u : VatUnit) (job : Nat) : List (Nat × Nat) :=
  u.vats.filterMap (fun e => if e.2.state != 0 && e.2.owner = job && !e.2.chip.isEmpty then some (e.1, e.2.chip.length) else none)
/-- SPILL_REQUEST: the pool has fallen below 1,024 free entries, and a host-mode job with on-chip records is sent its spill event
(R389). -/
def execSpillRequest (job : Nat) (s : State) : Host.Outcome State Fault Refusal :=
  let fills := s.vat.fills job
  if !s.vat.low.contains job then .next s
  else
    let s := s.onVat (fun u => { u with low := u.low.filter (· != job) })
    if fills.isEmpty then .next s
    else
      let n := s.host.evNext
      let s := s.askWith 3 job (s.vat.poolFree :: fills.flatMap (fun e => [e.1, e.2])) 0 0 0 true
      .next (s.onVat (fun u => { u with spillEv := u.spillEv ++ [(job, n)] }))
/-- The host's answer to a spill event, or an empty one: each pair is to move up to its count from a vat of the job. -/
def State.spillReply (s : State) (ev : Nat) (pairs : List (Nat × Nat)) : State :=
  match s.vat.spillEv.find? (fun e => e.2 = ev) with
  | none => s
  | some e => s.onVat (fun u => { u with spillEv := u.spillEv.filter (fun x => x.2 != ev),
                                         orders := u.orders ++ (pairs.take 64).map (fun p => (e.1, p.1, p.2)) })

/-! ### Remote enqueues (R384, R390) -/

/-- One remote record: accepted, or dropped with an event; with no room, the vat spill fault goes to the job (R390). -/
def State.remoteRecord (s : State) (v job : Nat) (r : BitVec 256) : State :=
  let x := s.vatAt v
  if recReserved r then s.event 22 job [v, errRsvd]
  else if x.state = 0 || x.owner != job || x.closing.isSome then s.event 22 job [v, errOwner]
  else match s.vatAccept v r true with
    | some s => s
    | none => (s.postStamp job (s.mkStamp causeSpill 0 x.tmpl) (some x.tmpl)).event 22 job [v, errSpill]
/-- The 32-byte records of a part. -/
def records : Nat → List Byte → List (BitVec 256)
  | 0, _ => []
  | n + 1, l => if l.length < 32 then [] else BitVec.ofNat 256 (ofLe (l.take 32)) :: records n (l.drop 32)
/-- REMOTE_ENQUEUE: the next committed part of a vat page enters its vat record by record (R384, R385). -/
def execRemoteEnqueue (s : State) : Host.Outcome State Fault Refusal :=
  match s.vat.parts.filter (fun p => p.vat < 2048) with
  | p :: _ =>
    .next ((records 128 p.bytes).foldl (fun s r => s.remoteRecord p.vat p.job r) (s.onVat (fun u => { u with parts := u.parts.erase p })))
  | [] => .next s

end Sys2Proof.Machine
end

