-- ==== Sys2Proof/Machine/Sched.lean ====
section
/-! DEFINITION. The scheduler (12_task_scheduler.md R345 to R365): arming, readiness and retirement of nodes, what is ready
for a core, loop nests in push and claim mode, the dynamic queue, branch nodes, what becomes of an ended context's work,
and fault stamps. With it TASKQ and TCLAIM (05_memory_sync_fabric_instructions.md R175, R176), NODE_RETIRE,
BRANCH_NODE_DECIDE, HOST_SIGNAL_NODE, PREEMPTION_REQUEST, FAULT_STAMP_SPREAD and JOB_COMPLETE. -/
namespace Sys2Proof.Machine

/-! ### Nodes and core sets (R346 to R349) -/

def Job.tcbAt (j : Job) (n : Nat) : Tcb := j.tcb.get Tcb.empty n
def Job.nodeAt (j : Job) (n : Nat) : Node := j.node.get Node.empty n
def Job.setNode (j : Job) (n : Nat) (x : Node) : Job := { j with node := j.node.set Node.empty n x }
def State.onNode (s : State) (job n : Nat) (f : Node → Node) : State := s.onJob job (fun j => j.setNode n (f (j.nodeAt n)))
/-- A TCB that is armed: neither unused nor a template (R349). -/
def Tcb.isNode (t : Tcb) : Bool := t.kind != 0 && t.kind != 3 && !(t.kind = 1 && t.tmpl)
/-- The cores of a set, main cores first, by global number (R346). -/
def Tcb.cores (t : Tcb) : List Nat :=
  (List.range 64).filter t.mcores.getLsbD ++ ((List.range 64).filter t.lcores.getLsbD).map (· + 64)
/-- The set without the cores that have left every set (R355). -/
def Job.coresOf (j : Job) (t : Tcb) : List Nat := t.cores.filter (fun c => !j.gone.contains c)
/-- The node is dispatched to cores (R348). -/
def Tcb.needsCores (t : Tcb) : Bool := t.kind = 1 || t.kind = 2 || t.kind = 3 || (4 ≤ t.kind && t.kind ≤ 6 && t.entry != 0)

def Stamp.bytes (x : Stamp) : List Byte :=
  [b8 x.cause, b8 x.slot, b8 x.detail, 0] ++ leBytes 4 x.tcb ++ leBytes 8 x.addr ++ leBytes 8 x.tick ++ leBytes 8 x.ctxid.toNat
/-- STATE and STAMP of a node written back to the table (R345). -/
def State.writeBack (s : State) (job n : Nat) : State :=
  match s.job job with
  | none => s
  | some j =>
    let x := j.nodeAt n
    let s := s.schedPut job (j.tgraph + 128 * n + 3) [b8 x.state] true
    match x.stamp with
    | some y => s.schedPut job (j.tgraph + 128 * n + 96) y.bytes true
    | none => s

/-- A node becomes ready: it takes the next ready-sequence value, and its core set is the set as it stands (R349, R353). -/
def State.makeReady (s : State) (job n : Nat) : State :=
  let r := s.takeSeq
  r.1.onJob job (fun j => j.setNode n { Node.empty with
    state := 1, pcount := (j.nodeAt n).pcount, live := (j.nodeAt n).live, rseq := r.2, cset := j.coresOf (j.tcbAt n) })
/-- Decrements, in order, each with what it does to LIVE; a skipped node passes its own on at once (R349). -/
def State.decrAll (s : State) (job : Nat) : Nat → List (Nat × Bool) → State
  | 0, _ => s
  | _ + 1, [] => s
  | f + 1, (n, live) :: rest =>
    match s.job job with
    | none => s
    | some j =>
      let t := j.tcbAt n
      let x := j.nodeAt n
      if !t.isNode || x.state != 0 then s.decrAll job f rest
      else
        let x := { x with pcount := x.pcount - 1, live := x.live || live }
        let s := s.setJob (j.setNode n x)
        if x.pcount != 0 then s.decrAll job f rest
        else if x.live || t.pcount0 = 0 then (s.makeReady job n).decrAll job f rest
        else ((s.onNode job n (fun x => { x with state := 5 })).writeBack job n).decrAll job f (t.succ.map (·, false) ++ rest)
def Job.edges (j : Job) : Nat := (j.tcb.map (fun e => e.2.succ.length)).sum
def State.decr (s : State) (job : Nat) (l : List (Nat × Bool)) : State :=
  match s.job job with
  | none => s
  | some j => s.decrAll job (j.edges + l.length + 1) l

/-! ### Loop nests (R353 to R355) -/

def Tcb.total (t : Tcb) : Nat := (t.levels.map (·.1)).foldl (· * ·) 1
/-- The indices of iteration `l`, outermost first. -/
def levelIdx : List (Nat × Nat) → Nat → List Nat
  | [], _ => []
  | _ :: r, l => l / (r.map (·.1)).foldl (· * ·) 1 :: levelIdx r (l % (r.map (·.1)).foldl (· * ·) 1)
/-- The linear number of the indices of one level kind. -/
def kindLin (kind : Nat) (levels : List (Nat × Nat)) (idx : List Nat) : Nat :=
  (levels.zip idx).foldl (fun n x => if x.1.2 = kind then n * x.1.1 + x.2 else n) 0
def dedup : List Nat → List Nat
  | [] => []
  | a :: r => a :: (dedup r).filter (· != a)
/-- The core that iteration `l` of a push nest is bound to, before any move. -/
def boundCore (cset : List Nat) (t : Tcb) (l : Nat) : Nat :=
  if t.levels.all (fun x => x.2 = 0) then cset.headD 0
  else
    let idx := levelIdx t.levels l
    let dies := (List.range 4).filter (fun d => cset.any (fun c => dieOf c = d))
    let die := dies.getD (kindLin 2 t.levels idx % dies.length) 0
    let cs := cset.filter (fun c => dieOf c = die)
    cs.getD (kindLin 1 t.levels idx % cs.length) 0
/-- The core it is bound to now, and whether it has moved there from another (R355). -/
def Node.bound (x : Node) (t : Tcb) (l : Nat) : Nat × Bool :=
  x.chain.foldl (fun b m => if b.1 = m.1 then (m.2, true) else b) (boundCore x.cset t l, false)
def Node.coreOf (x : Node) (t : Tcb) (l : Nat) : Nat := (x.bound t l).1
/-- The next iteration for a core: those that have moved to it first, each kind in ascending number. -/
def Node.pushNext (x : Node) (t : Tcb) (c : Nat) : Option Nat :=
  let free := fun l => !x.gone.contains l && x.coreOf t l = c
  let all := List.range t.total
  (all.find? (fun l => free l && (x.bound t l).2)).or (all.find? free)
/-- The next ticket of a claim nest: one to issue again before any new one (R354). -/
def Node.ticket (x : Node) (t : Tcb) : Option Nat :=
  match x.again with
  | l :: _ => some l
  | [] => if x.next < t.total then some x.next else none
def Node.takeTicket (x : Node) (c l : Nat) : Node :=
  { x with state := 2, handed := x.handed ++ [(c, l)], again := x.again.drop 1,
           next := if x.again.isEmpty then x.next + 1 else x.next }
def insNat (n : Nat) : List Nat → List Nat
  | [] => [n]
  | a :: r => if n ≤ a then n :: a :: r else a :: insNat n r

/-! ### What is ready (R351) -/

/-- What an item hands over. -/
inductive Work where
  | saved (i : Nat)
  | node (n lin : Nat)
  | dyn (place : Nat)
  | firing (i : Nat)
  deriving DecidableEq, Repr
/-- An item: its class, whether a saved task returning, its order among those, its TCB, its iteration where it is bound to
one core, the cores entitled to it, and what it is. -/
structure Item where
  cls : Nat
  fresh : Bool
  ord : Nat
  tcb : Nat
  lin : Nat
  cores : List Nat
  rseq : Nat
  work : Work
  deriving DecidableEq, Repr

/-- The items that a node offers. -/
def Job.nodeItems (j : Job) (gtick n : Nat) (t : Tcb) : List Item :=
  let x := j.nodeAt n
  let one := fun (lin : Nat) (cores : List Nat) (l : Nat) => (⟨t.cls, true, x.rseq, n, lin, cores, x.rseq, .node n l⟩ : Item)
  if !t.isNode || x.cancel || (x.state != 1 && x.state != 2) then []
  else match t.kind with
    | 1 =>
      if t.claim then (match x.ticket t with | some l => [one 0 (j.coresOf t) l] | none => [])
      else (j.coresOf t).filterMap (fun c => (x.pushNext t c).map (fun l => one l [c] l))
    | 2 => if x.state = 1 && t.tick ≤ gtick then [one 0 (j.coresOf t) 0] else []
    | 7 => []
    | _ => if x.state = 1 && x.decided && t.entry != 0 then [one 0 (j.coresOf t) 0] else []
def Job.items (j : Job) (gtick : Nat) : List Item :=
  if j.frozen then []
  else
    j.saved.zipIdx.map (fun e => (⟨e.1.task.cls, false, e.1.order, e.1.task.node, e.1.task.lin,
      (j.coresOf (j.tcbAt e.1.task.node)).filter (fun c => kindOf c = e.1.kind), e.1.task.rseq, .saved e.2⟩ : Item)) ++
    j.tcb.flatMap (fun e => j.nodeItems gtick e.1 e.2) ++
    (j.dyn.filter (fun r => r.state = 1)).map (fun r => ⟨r.cls, true, r.rseq, r.tcb, 0, j.coresOf (j.tcbAt r.tcb), r.rseq, .dyn r.place⟩) ++
    j.firings.zipIdx.map (fun e => ⟨e.1.cls, true, e.1.rseq, e.1.tmpl, 0, j.coresOf (j.tcbAt e.1.tmpl), e.1.rseq, .firing e.2⟩)
/-- The order of R351 within one job. -/
def Item.key (x : Item) : Nat := ((x.cls * 2 + (if x.fresh then 1 else 0)) * 2 ^ 64 + x.ord) * 2 ^ 20 + x.tcb
def firstOf : List Item → Option Item
  | [] => none
  | x :: r => match firstOf r with
    | none => some x
    | some y => if x.key ≤ y.key then some x else some y
/-- The first item that a core is entitled to take. -/
def State.firstItem (s : State) (c : Nat) : Option Item :=
  match (s.jobOf c).bind s.job with
  | none => none
  | some j => firstOf ((j.items s.gtick).filter (fun x => x.cores.contains c))
/-- A core waits in WAITTASK, nothing handed to it yet. -/
def Core.offered (k : Core) : Bool := k.seq.waiting && k.seq.handed.isNone && k.seq.task.isNone && k.seq.phase = .run
/-- Of the waiting cores entitled to an item, the lowest receives it (R351). -/
def State.lowest (s : State) (c : Nat) (x : Item) : Bool :=
  x.cores.all (fun p => decide (c ≤ p) || !(s.jobOf p = s.jobOf c && (s.core p).offered && s.firstItem p = some x))

/-! ### Handing over (R14, R351 to R360) -/

def w64 (n : Nat) : Word := BitVec.ofNat 64 n
/-- The task of an item other than a saved one. -/
def Job.taskOf (j : Job) (x : Item) : Task :=
  let t := j.tcbAt x.tcb
  let task := fun (kind lin : Nat) (s24 : List Word) =>
    (⟨kind, x.tcb, x.cls, x.rseq, lin, s24, t.entry⟩ : Task)
  let pad := fun (l : List Nat) => (l ++ List.replicate (6 - l.length) 0).map w64
  match x.work with
  | .node n l =>
    if t.kind = 1 then task 1 l (pad (levelIdx t.levels l) ++ [w64 n, w64 l])
    else if t.kind = 2 then task 2 0 (pad [] ++ [w64 n, 0])
    else task 4 0 ((j.nodeAt n).cond :: (pad []).drop 1 ++ [w64 n, 0])
  | .dyn p =>
    match j.dyn.find? (fun r => r.place = p) with
    | some r => task 3 r.num (r.args ++ [0, 0, w64 r.tcb, w64 r.num])
    | none => task 3 0 []
  | .firing i =>
    match j.firings[i]? with
    | some f => task 5 f.vat ([w64 f.vat, w64 f.count, w64 f.fseq, 0, 0, 0, w64 f.tmpl, 0])
    | none => task 5 0 []
  | .saved i => match j.saved[i]? with | some v => v.task | none => task 0 0 []
/-- The scheduler's side of a handover. -/
def Job.handed (j : Job) (c : Nat) (x : Item) : Job :=
  match x.work with
  | .node n l =>
    let t := j.tcbAt n
    let y := j.nodeAt n
    if t.kind = 1 && t.claim then j.setNode n (y.takeTicket c l)
    else j.setNode n { y with state := 2, handed := y.handed ++ [(c, l)], gone := if t.kind = 1 then y.gone ++ [l] else y.gone }
  | .dyn p => { j with dyn := j.dyn.map (fun r => if r.place = p then { r with state := 2 } else r) }
  | .firing i => { j with firings := j.firings.eraseIdx i }
  | .saved i => { j with saved := j.saved.eraseIdx i }
/-- STATE of a dynamic record in the queue in memory (R357). -/
def State.recState (s : State) (job place state : Nat) : State :=
  match s.job job with
  | none => s
  | some j => s.schedPut job (j.dynq + 64 * place + 41) [b8 state] false
/-- Hand an item to a core that waits: the core goes on when its WAITTASK issues. SW.LATE is set where the core was free as a timed
block's launch tick was reached and the module is out of step (R356). -/
def State.handOver (s : State) (c : Nat) (x : Item) : State :=
  match (s.jobOf c).bind s.job with
  | none => s
  | some j =>
    let task := j.taskOf x
    let t := j.tcbAt x.tcb
    let late := task.kind = 2 && t.tick != 0 && decide ((s.core c).seq.waitFrom ≤ t.tick) && s.outStep
    let s := s.setJob (j.handed c x)
    let s := match x.work with | .dyn p => s.recState j.num p 2 | _ => s
    s.onCore c (fun k => (k.onSeq (fun q => { q with handed := some task })).onCtx
      (fun y => if late then { y with sw := { y.sw with late := true } } else y))

/-! ### Retirement (R349, R353, R354, R358, R359) -/

/-- All of a node's work is done. -/
def Job.workDone (j : Job) (n : Nat) : Bool :=
  let t := j.tcbAt n
  let x := j.nodeAt n
  t.isNode && x.state = 2 && !x.cancel && x.handed.isEmpty &&
    (if t.kind = 1 then (if t.claim then x.ticket t = none else x.doneN = t.total) else x.doneN != 0)
/-- The successors of a branch node: which decrement is a retirement (R358). -/
def takenSucc (t : Tcb) (v : Nat) : List (Nat × Bool) :=
  let n := t.succ.length
  t.succ.zipIdx.map (fun e =>
    (e.1, match t.kind with
      | 4 => if v != 0 then decide (e.2 < t.ntrue) else decide (t.ntrue ≤ e.2)
      | 6 => if v != 0 then decide (e.2 = min v (n - 1)) else decide (e.2 = 0)
      | _ => true))
/-- Arming (R349). -/
def Job.arm (j : Job) (n : Nat) : Job :=
  let t := j.tcbAt n
  if t.isNode then j.setNode n { Node.empty with pcount := t.pcount0 } else j
/-- A while node loops again, as one event; a body node ready or running cancels it with cause 0x0F (R359). -/
def State.loopAgain (s : State) (j : Job) (n : Nat) : State :=
  let t := j.tcbAt n
  let body := (List.range t.nbody).map (· + t.body)
  if body.any (fun b => (j.tcbAt b).isNode && ((j.nodeAt b).state = 1 || (j.nodeAt b).state = 2)) then
    (s.onNode j.num n (fun x => { x with cancel := true })).postStamp j.num (s.mkStamp causeOp 0 n) (some n)
  else
    let j := body.foldl (·.arm ·) j
    let j := j.setNode n { Node.empty with pcount := t.back }
    (s.setJob j).decr j.num [(t.body, true)]
/-- A node whose work is done retires, or a while node loops again. -/
def State.finishNode (s : State) (job n : Nat) : State :=
  match s.job job with
  | none => s
  | some j =>
    let t := j.tcbAt n
    let v := (j.nodeAt n).cond.toNat
    if t.kind = 5 && v != 0 then s.loopAgain j n
    else
      let s := (s.onNode job n (fun x => { x with state := 3 })).writeBack job n
      s.decr job (takenSucc t v)
/-- NODE_RETIRE: a node whose work is done retires (R349). -/
def execNodeRetire (job n : Nat) (s : State) : Host.Outcome State Fault Refusal :=
  match s.job job with
  | none => .next s
  | some j => .next (if j.workDone n then s.finishNode job n else s)
/-- BRANCH_NODE_DECIDE: a ready branch node reads its condition word; without a continuation its decrements take place at
once (R358). -/
def execBranchNodeDecide (job n : Nat) (s : State) : Host.Outcome State Fault Refusal :=
  match s.job job with
  | none => .next s
  | some j =>
    let t := j.tcbAt n
    let x := j.nodeAt n
    let cancel := fun (s : State) (cause : Nat) =>
      (s.onNode job n (fun x => { x with cancel := true })).postStamp job (s.mkStamp cause 0 n) (some n)
    if !(4 ≤ t.kind && t.kind ≤ 6) || x.state != 1 || x.decided || x.cancel then .next s
    else match s.jobRead job (nodeReq job n) 7 none 0 t.cond 8 2 with
      | (s, .wait) => .next s
      | (s, .none_) => .next (cancel s causeHandle)
      | (s, .bad) => .next (cancel s causeEcc)
      | (s, .ok l) =>
        let s := s.onNode job n (fun x => { x with decided := true, cond := w64 (ofLe l) })
        .next (if t.entry = 0 then s.finishNode job n else s)
/-- HOST_SIGNAL_NODE: a ready host-signal node sends its event and waits, without a timeout (R361). -/
def execHostSignalNode (job n : Nat) (s : State) : Host.Outcome State Fault Refusal :=
  match s.job job with
  | none => .next s
  | some j =>
    let t := j.tcbAt n
    let x := j.nodeAt n
    if t.kind != 7 || x.state != 1 || x.cancel then .next s
    else
      let ev := s.host.evNext
      .next ((s.askWith 8 job [n, t.value.toNat] n 0 0 false).onNode job n (fun x => { x with state := 2, waitEv := some ev }))
/-- The host's reply to a host-signal node: it retires, or is cancelled with cause 0x13 and detail 1. -/
def State.signalReply (s : State) (job n ev : Nat) (retire : Bool) : State :=
  match s.job job with
  | none => s
  | some j =>
    if (j.nodeAt n).waitEv != some ev then s
    else if retire then s.onNode job n (fun x => { x with waitEv := none, doneN := 1 })
    else (s.onNode job n (fun x => { x with waitEv := none, cancel := true })).postStamp job (s.mkStamp causeKilled 1 n) (some n)

/-! ### Completion and the end of a context (R352 to R357, R363) -/

/-- A cancelled node whose running tasks have ended (R363). -/
def State.cancelEnds (s : State) (job : Nat) : State :=
  match s.job job with
  | none => s
  | some j => j.node.foldl (fun s e =>
      if e.2.cancel && e.2.state = 2 && e.2.handed.isEmpty && e.2.stamp.isSome then
        (s.onNode job e.1 (fun x => { x with state := 4, cancel := false })).writeBack job e.1
      else s) s
/-- What a holder held in the nodes ends as completed: its iterations, its tickets and its leases. -/
def Job.complete_ (j : Job) (c : Nat) : Job :=
  { j with node := j.node.map (fun e =>
      let mine := e.2.handed.filter (fun h => h.1 = c)
      (e.1, { e.2 with handed := e.2.handed.filter (fun h => h.1 != c), doneN := e.2.doneN + mine.length })) }
/-- A dynamic record leaves the queue; its successor receives its decrement, unless the record has been cancelled (R357, R363). -/
def State.recDone (s : State) (job num : Nat) : State :=
  match s.job job with
  | none => s
  | some j =>
    match j.dyn.find? (fun r => r.num = num && (r.state = 2 || r.state = 4)) with
    | none => s
    | some r =>
      let s := (s.setJob { j with dyn := j.dyn.filter (fun x => x.place != r.place) }).recState job r.place 0
      match r.succ with
      | some n => if r.state = 2 then s.decr job [(n, true)] else s
      | none => s
/-- The nodes of a job whose work is done retire, in ascending order: what a completion brings about is one event with it
(R350). -/
def State.retireDone (s : State) (job : Nat) : State :=
  match s.job job with
  | none => s
  | some j => j.tcb.foldl (fun s e => match s.job job with
    | some j => if j.workDone e.1 then s.finishNode job e.1 else s
    | none => s) s
/-- The task of core `c` ends by TEND. -/
def State.taskEnds (s : State) (c : Nat) (t : Task) : State :=
  match s.jobOf c with
  | none => s
  | some job =>
    let s := s.onJob job (·.complete_ c)
    let s := if t.kind = 3 then s.recDone job t.lin else if t.kind = 5 then s.vatReopen t.lin else s
    (s.cancelEnds job).retireDone job

/-- The holder of a saved task's iterations and leases, in place of a core. -/
def savedHolder (slot : Nat) : Nat := 1000 + slot
def Job.rename (j : Job) (a b : Nat) : Job :=
  { j with node := j.node.map (fun e => (e.1, { e.2 with handed := e.2.handed.map (fun h => if h.1 = a then (b, h.2) else h) })) }

/-- The core that a killed core's iterations move to (R355): the next of its die in the set, else the next of the set. -/
def nextCore (set : List Nat) (c : Nat) : Option Nat :=
  let after := fun (l : List Nat) => (l.find? (fun p => decide (c < p))).or l.head?
  (after (set.filter (fun p => dieOf p = dieOf c && p != c))).or (after (set.filter (· != c)))
/-- What a holder held in a node goes back: iterations and tickets to be handed again, a block or a continuation to ready, but
not where a stamp has reached it: with its task ended it is cancelled (R363). -/
def Node.giveBack (x : Node) (t : Tcb) (holder : Nat) : Node :=
  let mine := x.handed.filter (fun h => h.1 = holder)
  if mine.isEmpty then x
  else
    let x := { x with handed := x.handed.filter (fun h => h.1 != holder) }
    if t.kind = 1 && t.claim then { x with again := mine.foldl (fun l h => insNat h.2 l) x.again }
    else if t.kind = 1 then { x with gone := x.gone.filter (fun l => !mine.any (fun h => h.2 = l)) }
    else if x.cancel then x else { x with state := 1 }
/-- A task outside the nodes goes back: a record to ready, a firing to the list of firings. -/
def Job.taskBack (j : Job) (t : Task) : Job :=
  if t.kind = 3 then { j with dyn := j.dyn.map (fun r => if r.num = t.lin && r.state = 2 then { r with state := 1 } else r) }
  else if t.kind = 5 then
    let n := fun i => (t.s24.getD i 0).toNat
    { j with firings := j.firings ++ [⟨n 0, t.node, t.cls, n 1, n 2, t.rseq⟩] }
  else j
/-- A node after core `c` is gone: what the holders held goes back, and the iterations of a push nest bound to it move. -/
def Node.afterKill (x : Node) (j : Job) (t : Tcb) (holders : List Nat) (c : Nat) : Node :=
  let y := holders.foldl (fun (y : Node) h => y.giveBack t h) x
  if t.kind = 1 && !t.claim && (y.state = 1 || y.state = 2) then
    match nextCore (j.coresOf t) c with
    | some p => { y with chain := y.chain ++ [(c, p)] }
    | none => y
  else y
/-- A stamp is told to the host: the job's first one, or every one under DUTY bit 7 (R364, 09 R293). -/
def State.tellStamp (s : State) (job : Nat) (x : Stamp) : State :=
  match s.job job with
  | none => s
  | some j =>
    if j.stampSent && !s.dutyBit job 7 then s
    else (s.event 7 job [x.tcb, x.cause, x.slot, x.detail, x.addr, x.tick, x.ctxid.toNat]).onJob job (fun j => { j with stampSent := true })
/-- Something of the job still depends on the cores of a TCB: a node not done, a record of a template, or a vat. -/
def State.needs (s : State) (j : Job) (n : Nat) (t : Tcb) : Bool :=
  (t.isNode && decide ((j.nodeAt n).state < 3)) || j.dyn.any (fun r => r.tcb = n && r.state = 1) ||
    j.firings.any (fun f => f.tmpl = n) || s.vat.vats.any (fun e => e.2.state != 0 && e.2.owner = j.num && e.2.tmpl = n)
/-- The work of a context that ends with cause 0x13 goes back to the scheduler, its core leaves every set, and a node left
without a core is cancelled (R355); `t` is the task that it held, begun or only handed over. -/
def State.killWork (s : State) (c job : Nat) (x : Stamp) (t : Option Task) : State :=
  match s.job job with
  | none => s
  | some j =>
    let j : Job := { j with gone := j.gone ++ [c] }
    let mine := j.saved.filter (fun v => v.core = c)
    let holders := c :: mine.map (fun v => savedHolder v.slot)
    let j : Job := { j with node := j.node.map (fun e => (e.1, e.2.afterKill j (j.tcbAt e.1) holders c)) }
    let tasks := (match t with | some t => [t] | none => []) ++ mine.map (·.task)
    let recs := tasks.filterMap (fun t => if t.kind = 3 then j.dyn.find? (fun r => r.num = t.lin && r.state = 2) else none)
    let j := tasks.foldl (·.taskBack ·) j
    let j := { j with saved := j.saved.filter (fun v => v.core != c), slots := j.slots.filter (fun n => !mine.any (fun v => v.slot = n)) }
    let j := match t with
      | some t => j.setNode t.node { j.nodeAt t.node with stamp := some x }
      | none => j
    let s := recs.foldl (fun s r => s.recState job r.place 1) (s.setJob j)
    let s := match t with | some t => s.writeBack job t.node | none => s
    let s := (s.cancelEnds job).tellStamp job x
    let alone := j.tcb.filter (fun e => e.2.cores.contains c && (j.coresOf e.2).isEmpty && e.2.needsCores && s.needs j e.1 e.2)
    alone.foldl (fun s e => s.postStamp job { x with tcb := e.1 } (some e.1)) s
/-- The work of a context that ends with another cause: what it held is given up; its node, or the node that R443 or R449
names, is stamped (R363, 09 R518). -/
def State.endWork (s : State) (c job : Nat) (x : Stamp) (t : Option Task) (other : Option Nat) : State :=
  let s := s.onJob job (fun j => { j with node := j.node.map (fun e =>
    let own := match t with | some t => decide (t.node = e.1) | none => false
    (e.1, if own then { e.2 with handed := e.2.handed.filter (fun h => h.1 != c) } else e.2.giveBack (j.tcbAt e.1) c)) })
  let s := match t with | some t => if t.kind = 5 then s.vatReopen t.lin else s | none => s
  s.postStamp job x ((t.map (·.node)).or other)

/-! ### Fault stamps (R363, R364) -/

/-- Cancel one node with a stamp. `origin`: the failing node itself, cancelled at once. A template's records not done are
cancelled, and the firings of a loop nest not handed out withdrawn (R363, 14 R390). The result lists the successors that the stamp goes on to. -/
def State.cancelAt (s : State) (job n : Nat) (x : Stamp) (origin : Bool) : State × List Nat :=
  match s.job job with
  | none => (s, [])
  | some j =>
    let t := j.tcbAt n
    let y := j.nodeAt n
    let put := fun (s : State) (z : Node) => (s.onNode job n (fun _ => { z with stamp := some x })).writeBack job n
    if !t.isNode then
      if !origin && t.kind != 3 then (s, [])
      else
        let recs := j.dyn.filter (fun r => r.tcb = n && (r.state = 1 || r.state = 2))
        let fires := j.firings.filter (fun f => f.tmpl = n)
        let s := s.setJob { j with dyn := j.dyn.map (fun r => if r.tcb = n && (r.state = 1 || r.state = 2) then { r with state := 4 } else r),
                                   firings := j.firings.filter (fun f => f.tmpl != n) }
        let s := recs.foldl (fun s r => s.recState job r.place 4) s
        let s := fires.foldl (fun s f => s.vatReopen f.vat) s
        (put s { y with state := 4 }, recs.filterMap (·.succ) ++ t.succ)
    else if 3 ≤ y.state && !origin then (s, [])
    else
      let fires := j.firings.filter (fun f => f.tmpl = n)
      let s := s.setJob { j with firings := j.firings.filter (fun f => f.tmpl != n) }
      let s := fires.foldl (fun s f => s.vatReopen f.vat) s
      let s := match y.waitEv with | some e => s.unask e | none => s
      let y := { y with waitEv := none }
      if origin || y.state != 2 || y.handed.isEmpty then (put s { y with state := 4, cancel := false }, t.succ)
      else (s.onNode job n (fun _ => { y with cancel := true, stamp := some x }), t.succ)
/-- Spread a stamp along successor lists, each node once. -/
def State.spread (s : State) (job : Nat) (x : Stamp) : Nat → List Nat → List Nat → State
  | 0, _, _ => s
  | _ + 1, _, [] => s
  | f + 1, seen, n :: rest =>
    if seen.contains n then s.spread job x f seen rest
    else
      let r := s.cancelAt job n x false
      r.1.spread job x f (n :: seen) (rest ++ r.2)
/-- What a job does with its oldest stamp: cancel, spread, tell the host. -/
def State.stampJob (s : State) (j : Job) : State :=
  match j.stamps with
  | [] => s
  | (x, node) :: rest =>
    let s := s.setJob { j with stamps := rest }
    let s := match node with
      | none => s
      | some n =>
        let r := s.cancelAt j.num n x true
        r.1.spread j.num x (j.edges + j.dyn.length + r.2.length + 1) [n] r.2
    let args := [x.tcb, x.cause, x.slot, x.detail, x.addr, x.tick, x.ctxid.toNat]
    let all := s.dutyBit j.num 7
    let s :=
      if all then
        let ev := s.host.evNext
        (s.askWith 7 j.num args 0 0 0 true).onJob j.num (fun j => { j with stampEv := some ev, stampSent := true })
      else if !j.stampSent then (s.event 7 j.num args).onJob j.num (fun j => { j with stampSent := true })
      else s
    s.onJob j.num (fun j => { j with frozen := !j.stamps.isEmpty || j.stampEv.isSome })
/-- The host's acknowledgement of a stamp, or HOSTTMO: the job goes on (R364). -/
def State.stampAcked (s : State) (job ev : Nat) : State :=
  s.onJob job (fun j => if j.stampEv = some ev then { j with stampEv := none, frozen := !j.stamps.isEmpty } else j)
/-- The jobs that are not at their end. -/
def State.liveJobs (s : State) : List Job := (s.sched.jobs.filterMap (·.2)).filter (·.ending.isEmpty)
/-- FAULT_STAMP_SPREAD: the next job with a stamp, whose earlier stamp is not still to be acknowledged, spreads it. -/
def execFaultStampSpread (s : State) : Host.Outcome State Fault Refusal :=
  match s.liveJobs.find? (fun j => !j.stamps.isEmpty && j.stampEv.isNone) with
  | none => .next s
  | some j => .next (s.stampJob j)

/-! ### Job completion (R365) -/

def State.jobDone (s : State) (j : Job) : Bool :=
  !j.complete && j.stamps.isEmpty && j.tcb.all (fun e => !e.2.isNode || decide (3 ≤ (j.nodeAt e.1).state)) &&
    j.dyn.all (fun r => r.state != 1 && r.state != 2) && j.saved.isEmpty &&
    s.vat.vats.all (fun e => e.2.owner != j.num || e.2.state = 0 || (e.2.state != 2 && e.2.total = 0))
/-- JOB_COMPLETE: the table is written back and the host told the count of cancelled nodes. -/
def execJobComplete (s : State) : Host.Outcome State Fault Refusal :=
  match s.liveJobs.find? s.jobDone with
  | none => .next s
  | some j =>
    let n := (j.node.filter (fun e => e.2.state = 4)).length
    let s := j.tcb.foldl (fun s e => s.writeBack j.num e.1) s
    .next ((s.event 17 j.num [n]).onJob j.num (fun j => { j with complete := true }))

/-! ### Pre-emption requests (R362) -/

def Item.id (x : Item) : Nat × Nat × Nat := (x.rseq, x.tcb, x.lin)
/-- The core that the slice would ask for an item: entitled, running a task of a greater class, without a request; the
greatest class, then the highest number. -/
def State.askedCore (s : State) (job : Nat) (x : Item) : Option Nat :=
  let fit := x.cores.filter (fun c => s.jobOf c = some job && (s.core c).seq.slot.isNone &&
    (match (s.core c).seq.task with | some t => decide (x.cls < t.cls) | none => false))
  let cls : Nat → Nat := fun c => match (s.core c).seq.task with | some t => t.cls | none => 0
  fit.foldl (fun (b : Option Nat) c => match b with
    | none => some c
    | some p => if cls p ≤ cls c then some c else some p) none
/-- PREEMPTION_REQUEST: a core is asked to give way to an item that no waiting core may take, with a free save slot. -/
def execPreemptionRequest (c slot : Nat) (s : State) : Host.Outcome State Fault Refusal :=
  match (s.jobOf c).bind s.job with
  | none => .next s
  | some j =>
    let want := (j.items s.gtick).find? (fun x =>
      !x.cores.any (fun p => s.jobOf p = some j.num && (s.core p).offered) &&
      !s.cores.any (fun e => e.2.job = some j.num && e.2.seq.preItem = some x.id) && s.askedCore j.num x = some c)
    match want with
    | none => .next s
    | some x =>
      if j.saveslots ≤ slot || j.slots.contains slot then .next s
      else
        let s := s.setJob { j with slots := j.slots ++ [slot] }
        .next (s.onCore c (fun k => (k.onSeq (fun q =>
          { q with preempt := some k.ctx.deadline.toNat, slot := some slot, preItem := some x.id })).onCtx
            (fun y => { y with sw := { y.sw with preq := true } })))
/-- The end of a request: PREQ, the countdown and the reservation (04 R146, R362). -/
def State.endRequest (s : State) (c : Nat) : State :=
  let k := s.core c
  let s := match k.job, k.seq.slot with
    | some job, some n => s.onJob job (fun j => { j with slots := j.slots.erase n })
    | _, _ => s
  s.onCore c (fun k => (k.onSeq (fun q => { q with preempt := none, slot := none, preItem := none })).onCtx
    (fun y => { y with sw := { y.sw with preq := false } }))

/-! ### TASKQ and TCLAIM -/

/-- A record's 64 bytes (R357). -/
def Dyn.bytes (r : Dyn) : List Byte :=
  r.args.flatMap (fun w => leBytes 8 w.toNat) ++ leBytes 4 r.tcb ++
    leBytes 4 (match r.succ with | some n => 2 ^ 31 + n | none => 0) ++ [b8 r.cls, b8 r.state] ++ zeros 6 ++ leBytes 4 r.num ++ zeros 12
/-- The answer to a TASKQ, accepted or refused with the lowest reason (05 R175, 12 R357). Of the free places the record takes the first:
R357 says only that it is free; a choice of the model (log 43). -/
def State.enqueueTask (s : State) (j : Job) (n cls : Nat) (args : List Word) (b : Word) : State × Word :=
  let succ := if b.getLsbD 63 then some (b.extractLsb' 0 20).toNat else none
  let free := (List.range j.dyncap).find? (fun p => !j.dyn.any (fun r => r.place = p))
  let succBad := b.extractLsb' 20 43 != 0 || (match succ with
    | some m => decide (j.ntcb ≤ m) || !(j.tcbAt m).isNode || !((j.nodeAt m).state = 0 || ((j.nodeAt m).state = 1 && (j.nodeAt m).handed.isEmpty))
        || (j.nodeAt m).cancel
    | none => false)
  match free with
  | none => (s, copErr 1)
  | some p =>
    if j.ntcb ≤ n || (j.tcbAt n).kind != 3 then (s, copErr 2)
    else if succBad then (s, copErr 3)
    else
      let q := s.takeSeq
      let r : Dyn := ⟨p, 1, args, n, succ, cls, j.recSeq % 2 ^ 32, q.2⟩
      let j := { j with dyn := j.dyn ++ [r], recSeq := j.recSeq + 1 }
      let j := match succ with
        | some m => j.setNode m { j.nodeAt m with state := 0, pcount := (j.nodeAt m).pcount + 1 }
        | none => j
      let s := q.1.setJob j
      (s.schedPut j.num (j.dynq + 64 * p) r.bytes false, w64 r.num)
/-- TASKQ (05 R175). Of an argument block that is misaligned and reaches the port region, or past the scratchpad, the range fault is
raised: the specification ranks no two causes of one unit; a choice of the model (log 42). -/
def execTaskq (f : SF) (s : State) : Host.Outcome State Fault Refusal :=
  commitState s (fun s =>
    let c := s.unit.core
    let k := s.core c
    let a := (k.ctx.src f.sa).toNat
    if kindOf c = .house then s.onCore c (·.fault s.unit causeOp)
    else if spadSize c k.ctx < a + 32 then s.onCore c (·.fault s.unit causeRange)
    else if a % 32 != 0 then s.onCore c (·.fault s.unit causeAlign)
    else match (s.jobOf c).bind s.job with
      | none => s
      | some j =>
        let e := s.sram c 1 (spadPool c k.ctx + a) 32
        if e.2 then e.1.onCore c (·.fault s.unit causeEcc)
        else
          let args := (List.range 4).map (fun i => w64 (ofLe (k.spadNow.ld (a + 8 * i) 8)))
          let r := e.1.enqueueTask j (f.imm.extractLsb' 0 20).toNat (f.imm.extractLsb' 20 2).toNat args (k.ctx.src f.sb)
          r.1.onCore c (fun k => k.result s.unit f 1 r.2))
/-- TCLAIM's answer: the core's lease on the nest ends, and the next ticket is its own, if there is one (05 R176). -/
def Job.claimFor (j : Job) (c n : Nat) : Job × Option Nat :=
  let t := j.tcbAt n
  let x := j.nodeAt n
  let mine := x.handed.filter (fun h => h.1 = c)
  let x := { x with handed := x.handed.filter (fun h => h.1 != c), doneN := x.doneN + mine.length }
  match (if (x.state = 1 || x.state = 2) && !x.cancel && t.isNode then x.ticket t else none) with
  | some l => (j.setNode n (x.takeTicket c l), some l)
  | none => (j.setNode n x, none)
def execTclaim (f : SF) (s : State) : Host.Outcome State Fault Refusal :=
  commitState s (fun s =>
    let c := s.unit.core
    let a := (s.core c).ctx.src f.sa
    let n := (a.extractLsb' 0 20).toNat
    let pd := (f.imm.extractLsb' 0 4).toNat
    if kindOf c = .house then s.onCore c (·.fault s.unit causeOp)
    else match (s.jobOf c).bind s.job with
      | none => s.onCore c (·.fault s.unit causeOp)
      | some j =>
        if a.extractLsb' 20 44 != 0 || j.ntcb ≤ n || (j.tcbAt n).kind != 1 || !(j.tcbAt n).claim then s.onCore c (·.fault s.unit causeOp)
        else
          let r := j.claimFor c n
          let v := match r.2 with | some l => (w64 l, some (pd, true)) | none => (0xFFFFFFFFFFFFFFFF#64, some (pd, false))
          ((s.setJob r.1).cancelEnds j.num).onCore c (fun k => k.result s.unit f 1 v.1 v.2))

end Sys2Proof.Machine
end

