-- ==== Sys2Proof/Machine/Context.lean ====
section
/-! DEFINITION. Traps, saves, restores and the end of a context (09_traps_preemption_context.md R278 to R294): TRAP_ENTRY,
TRAP_RETURN, DEADLINE_EXPIRY, FORCED_SAVE, COOPERATIVE_SAVE, RESTORE, HANG_WATCHDOG_EXPIRY and FATAL_CONTEXT_ERROR. -/
namespace Sys2Proof.Machine

/-! ### Traps (R282, R284) -/

/-- Every write of the core is performed: its stores and atomics, and its results that write the scratchpad or a tile (11 R336). -/
def Core.writesDone (k : Core) : Bool :=
  k.seq.stores.isEmpty && k.seq.loads.all (fun l => l.atom.isNone) && k.seq.pend.all (fun p => !p.eff.isWrite)
/-- Requested COP replies have all landed (R186, R278). -/
def Core.repliesIn (k : Core) : Bool := k.seq.cops.all (fun x => x.dst = 0)
/-- A fatal cause found in the drains ends the context at once, but an engine's waits until the trap or the save is complete
(R275). -/
def Core.fatalFirst (k : Core) : Bool :=
  match k.seq.fatal with | some x => !(decide (3 ≤ x.slot) && decide (x.slot ≤ 5)) | none => false
/-- The push of the trap-return entry waits for its page as CALL's does (R282; 04 R138, R139); a trap that is not entered
pushes nothing. -/
def State.trapPushWaits (s : State) (c : Nat) : State × Bool :=
  let k := s.core c
  match k.seq.trap with
  | some t => if k.ctx.tdepth = 3 || s.handlerOf c t.cause = 0 then (s, false) else s.pushWaits c
  | none => (s, false)
/-- TRAP_ENTRY: the drains over, the trap is taken, or the fatal cause that arose meanwhile. -/
def execTrapEntry (c : Nat) (s : State) : Host.Outcome State Fault Refusal :=
  let k := s.core c
  if k.seq.phase != .trapDrain || k.seq.opened || !k.drained then .next s
  else if k.fatalFirst then .next (s.toFatal c)
  else match s.trapPushWaits c with
    | (s, true) => .next s
    | (s, false) =>
      let s := s.takeTrap c
      .next (if (s.core c).seq.fatal.isSome then s.toFatal c else s)
/-- TRAP_RETURN: its waits over, the frame is read and the return point re-entered. -/
def execTrapReturn (c : Nat) (s : State) : Host.Outcome State Fault Refusal :=
  let k := s.core c
  if k.seq.phase != .trapRet || k.seq.opened then .next s
  else if k.seq.fatal.isSome then .next (s.toFatal c)
  else if !k.enginesDone || !k.repliesIn then .next s
  else
    let s := s.trapReturn c
    .next (if (s.core c).seq.fatal.isSome then s.toFatal c else s)

/-! ### The save image (R289, R290) -/

def w8 (v : Word) : List Byte := leBytes 8 v.toNat
def imageSize : Nat := 0x810000
/-- Where slot `n` of a job's save area lies (12 R362). -/
def Job.slotVa (j : Job) (n : Nat) : Nat := j.savebase + imageSize * n
/-- The context header (R290). A cooperative save's PREQ was cleared by its YIELD, and it saves with RESUME 0 (01 R37, 04 R145); a
forced save clears PREQ only once the image is complete (R288). p0 reads V = 1 and W = 1 (01 R16). -/
def Ctx.header (k : Ctx) (forced : Bool) : List Byte :=
  let sw := { k.sw with preq := forced && k.sw.preq, cause := if forced then BitVec.ofNat 6 causeSave else k.sw.cause,
                        resume := if forced then k.sw.resume else 0, repidx := if forced then k.sw.repidx else 0 }
  slice (leBytes 4 0x4C535643 ++ leBytes 2 1 ++ leBytes 2 (if forced then 1 else 0) ++ w8 sw.word ++ w8 k.pword ++ w8 k.ctxid ++
    w8 (k.deadline.setWidth 64) ++ w8 k.seed ++ w8 k.fpctl ++ w8 k.ovfptr ++ w8 k.dispret ++ leBytes 4 k.depth ++
    [b8 k.tdepth] ++ zeros 3 ++ leBytes 2 (k.predV ||| 1).toNat ++ leBytes 2 (k.predW ||| 1).toNat ++ [k.bank] ++ zeros 3 ++
    (List.range 16).map (fun t => b8 (k.mirror.get 255 t)) ++ [b8 k.flow.toNat] ++ zeros 23 ++
    (List.range 32).flatMap (fun r => w8 (k.reg r)) ++ (List.range 16).flatMap (fun i => leBytes 8 (k.ras.getD i 0)) ++
    (List.range 16).flatMap (fun n =>
      let h := k.h n
      leBytes 8 (h.va.toNat + if h.valid then 2 ^ 63 else 0) ++ w8 h.info) ++
    (List.range 16).flatMap (fun n => leBytes 2 (k.sem.get 0 n)) ++
    (List.range 4).flatMap (fun n =>
      let l := k.loop.get LoopCtr.empty n
      leBytes 4 l.count ++ zeros 4 ++ leBytes 8 l.start ++ leBytes 8 l.stop)) 0 4096
/-- A ring's 256 bytes; within its 256 bytes the fields follow one another (log 11). -/
def Ring.image (r : Ring) : List Byte :=
  slice (leBytes 8 (r.base + 2 ^ 15 * r.slotb + 2 ^ 27 * r.nslot) ++
    [b8 r.head, b8 r.tail, b8 (if r.hl then 1 else 0), b8 (if r.tl then 1 else 0)] ++
    (List.range 32).flatMap (fun i => leBytes 4 (r.cnt.get 0 i)) ++ leBytes 4 r.ph.toNat) 0 256
def Ring.ofImage (l : List Byte) : Ring :=
  { Ring.ofWord (BitVec.ofNat 64 (num l 0 8)) with
    head := num l 8 1 % 32, tail := num l 9 1 % 32, hl := num l 10 1 % 2 = 1, tl := num l 11 1 % 2 = 1,
    cnt := (List.range 32).foldl (fun t i => t.set 0 i (num l (12 + 4 * i) 4 % 2 ^ 21)) [],
    ph := BitVec.ofNat 32 (num l 140 4) }
def Port.image (p : Port) : List Byte :=
  leBytes 8 (p.base.toNat + if p.write then 2 ^ 15 else 0) ++ w8 p.counts ++ w8 p.strides ++ w8 p.idx
def Port.ofImage (l : List Byte) (configured : Bool) : Port :=
  ⟨configured, num l 0 8 / 2 ^ 15 % 2 = 1, BitVec.ofNat 15 (num l 0 8), BitVec.ofNat 64 (num l 8 8), BitVec.ofNat 64 (num l 16 8),
    BitVec.ofNat 64 (num l 24 8)⟩
/-- Image bytes 0x2000 to 0x7FFF: streams, rings, ports, barriers, moulds (R289). -/
def Ctx.middle (k : Ctx) : List Byte :=
  let q := fun n => k.stream.get Stream.empty n
  (List.range 8).flatMap (fun n => slice ((q n).vecs.flatMap rowBytes) 0 2048) ++
  (List.range 8).flatMap (fun n => (k.rg n).image) ++ (List.range 8).flatMap (fun n => (k.port.get Port.empty n).image) ++
  (List.range 8).flatMap (fun n => b8 ((q n).vecs.length % 16 + if (q n).bound then 16 else 0) :: zeros 15) ++
  (List.range 16).flatMap (fun n =>
    let b := k.bb.get Barrier.empty n
    leBytes 8 (b.target + 2 ^ 24 * b.count + if b.phase then 2 ^ 48 else 0)) ++
  slice ((List.range 4).map (fun n => if (k.mouldAt n).isSome then 0 else 0xFF)) 0 1536 ++
  (List.range 4).flatMap (fun n => mouldBytes ((k.mouldAt n).getD 0))
/-- The rest of the image, in pieces: offset, and the bytes there. -/
def Ctx.pieces (c : Nat) (k : Ctx) : List (Nat × (Unit → List Byte)) :=
  let t := k.tileBytes
  let p := spadSize c k
  let accN := if kindOf c = .main then k.accN else 0
  (List.range 16).map (fun n => (0x8000 + 256 * k.rows * n, fun _ => (List.range k.rows).flatMap (fun j => rowBytes (k.tileRow n j)))) ++
  (List.range accN).map (fun a => (0x8000 + t + 65536 * a, fun _ => wordsBytes (k.accWords a))) ++
  (List.range ((p + 65535) / 65536)).map (fun i =>
    (0x8000 + t + 65536 * accN + 65536 * i, fun _ => k.ldRange (65536 * i) (min 65536 (p - 65536 * i))))
/-- The length of a core's image. -/
def Ctx.imageLen (c : Nat) (k : Ctx) : Nat :=
  0x8000 + k.tileBytes + (if kindOf c = .main then 65536 * k.accN else 0) + spadSize c k

/-! ### Saves (R287, R288, 04 R145) -/

/-- The core after its image is complete: no task, no remembered operation, no latch, TDEPTH 0, DISPRET next (R288). What else
the saved task left behind stays, the bindings of its stream registers among it. -/
def Core.afterSave (k : Core) : Core :=
  ((k.clearPipes).onSeq (fun q =>
    { q with phase := .run, pc := k.ctx.dispret.toNat % 2 ^ 57, rep := 0, resume := 0, leaf := none, xfer := none, loopSkip := none,
             stall := none, idleCycles := 0, waiting := false, task := none, blk := none, trap := none, split := none,
             probe := none, waitTick := none })).onCtx
    (fun x => { x with tdepth := 0 })

/-- The error correction of all that a save reads of a core: its pool, registers, stream registers and engine queues (10 R316,
R317). -/
def State.saveEcc (s : State) (c : Nat) : State × Bool :=
  let k := (s.core c).ctx
  let e := s.coreEcc c 9 (List.range 32 ++ (List.range 8).map (256 + ·) ++ (List.range 3).map (512 + ·))
  let t := e.1.sram c 9 0 (spadPool c k + spadSize c k)
  (t.1, e.2 || t.2)
/-- Save the context in its reserved slot; the caller has seen the drains over. The refill of the return-address store is
completed first, so that the image holds the youngest min(DEPTH, 16) entries (04 R138 to R140). A page the host serves is
waited for; one that is missing ends the context (log 12). -/
def State.save (s : State) (c : Nat) (forced : Bool) : State :=
  let s := s.refills c 16
  if !(s.core c).ctx.rasFull then s
  else
  let k := s.core c
  match k.job.bind s.job, k.seq.slot, k.seq.task with
  | some j, some slot, some task =>
    let va := j.slotVa slot
    let n := k.ctx.imageLen c
    match s.jobCheck j.num (coreReq c) true va n (spanFuel n) with
    | (s, .wait) => s
    | (s, .ok) =>
      let e := s.saveEcc c
      if e.2 then (e.1.deliver c causeEcc 0).toFatal c
      else
        let record := if forced then seqRecord k.seq.pc k.seq.resume k.seq.rep causeSave k.seq k.eng 0 0
                      else seqRecord k.seq.pc 0 0 k.ctx.sw.cause.toNat { k.seq with leaf := none, xfer := none, loopSkip := none } Eng.empty 0 0
        let kept := if forced then k.eng.kept.set [] 0 ((suspList k.eng).map (·.revive)) else k.eng.kept
        let s := (if forced then e.1 else e.1.onCtx c (fun x => { x with sw := { x.sw with resume := 0, repidx := 0 } })).dropFlights c
        let x := (s.core c).ctx
        let put := fun (s : State) (o : Nat) (l : List Byte) => (s.jobWrite j.num (coreReq c) k.ctx.ctxid true (va + o) l (spanFuel l.length)).1
        let s := put (put (put s 0 (x.header forced)) 0x1000 record) 0x2000 x.middle
        let s := (x.pieces c).foldl (fun s e => put s e.1 (e.2 ())) s
        let v : Saved :=
          { slot := slot, task := task, order := s.sched.saveOrder, core := c,
            blk := k.seq.blk.map (fun b => ⟨k.seq.cycles - b.start, b.limit⟩), kind := kindOf c, kinds := x.accKind,
            ports := (List.range 8).filter (fun n => (x.port.get Port.empty n).configured), kept := kept }
        let s := s.onSched (fun d => { d with saveOrder := d.saveOrder + 1 })
        let s := s.onJob j.num (fun j => { (j.rename c (savedHolder slot)) with saved := j.saved ++ [v] })
        let s := s.onSeq c (fun q => { q with slot := none })
        (s.endRequest c).onCore c (fun k => k.afterSave.onCtx (fun y =>
          if forced then { y with sw := { y.sw with cause := BitVec.ofNat 6 causeSave } } else y))
    | (s, _) => (s.deliver c causeHandle 0).toFatal c
  | _, _, _ => (s.deliver c causeHandle 0).toFatal c

/-- After a try at a save in phase `ph`: a save that has failed, and an engine fault once the save is complete, end the context
(R275). -/
def State.saveEnds (s : State) (c : Nat) (ph : Phase) : State :=
  let k := s.core c
  if k.seq.fatal.isSome && (k.fatalFirst || k.seq.phase != ph) then s.toFatal c else s
/-- DEADLINE_EXPIRY: the countdown is at zero, and the save strikes (R287, R288). -/
def execDeadlineExpiry (c : Nat) (s : State) : Host.Outcome State Fault Refusal :=
  .next (if (s.core c).saveDue then s.strikeSave c else s)
/-- FORCED_SAVE: the drains over, the image is written. -/
def execForcedSave (c : Nat) (s : State) : Host.Outcome State Fault Refusal :=
  let k := s.core c
  if k.seq.phase != .saveDrain || k.seq.opened || !k.drained || !k.seq.stores.isEmpty || s.remoteClaims c then .next s
  else if k.fatalFirst then .next (s.toFatal c)
  else
    .next ((s.save c true).saveEnds c .saveDrain)
/-- A YIELD of a restored task whose image was a forced one meets PREQ = 1 with no request of its own (R290, R291): it takes
the lowest free save slot of its job, and where there is none it goes on (log 27). -/
def State.reserveSlot (s : State) (c : Nat) : State :=
  let k := s.core c
  match k.seq.slot, k.job.bind s.job with
  | none, some j =>
    match (List.range j.saveslots).find? (fun n => !j.slots.contains n) with
    | some n => (s.onJob j.num (fun j => { j with slots := j.slots ++ [n] })).onSeq c (fun q => { q with slot := some n })
    | none => s
  | _, _ => s
/-- COOPERATIVE_SAVE: every command retired, the image is written with RESUME 0 (04 R145). -/
def execCooperativeSave (c : Nat) (s : State) : Host.Outcome State Fault Refusal :=
  let k := s.core c
  if k.seq.phase != .yielding || k.seq.opened then .next s
  else if k.seq.fatal.isSome then .next (s.toFatal c)
  else if !k.drained || !k.enginesDone || !k.seq.stores.isEmpty || s.remoteClaims c then .next s
  else
    let s := s.reserveSlot c
    if (s.core c).seq.slot.isNone then
      .next (s.onCore c (fun k => (k.onSeq (fun q => { q with phase := .run })).onCtx (fun x => { x with sw := { x.sw with preq := false } })))
    else
      .next ((s.save c false).saveEnds c .yielding)

/-! ### The end of a context (R293, R294, R518) -/

/-- The stamp of the fatal cause that a core has taken (R294, R518). -/
def State.stampOf (s : State) (c : Nat) (x : Fatal) : Stamp :=
  let k := s.core c
  { cause := x.cause, slot := x.slot, detail := x.detail, tcb := ((k.holds.map (·.node)).or k.seq.other).getD 0,
    addr := x.addr, tick := k.seq.fatalTick.getD s.gtick, ctxid := k.ctx.ctxid }
/-- The core without its context: its registers stay as they were left. -/
def Core.ended (k : Core) : Core :=
  { k with job := none, eng := Eng.empty,
           seq := { Seqr.empty with copNext := k.seq.copNext, cycles := k.seq.cycles, pc := k.seq.pc, issue := k.seq.issue } }
/-- The context of core `c` ends with a cause (R293): steps 2, 5, 6 and 7. A kill gives its work back and voids its slots and
its job's windows (12 R355, 17 R445, R449). -/
def State.endContext (s : State) (c : Nat) (x : Fatal) : State :=
  let k := s.core c
  match k.job with
  | none => s
  | some job =>
    let s := s.onCtx c (fun y => { y with sw := { y.sw with cause := BitVec.ofNat 6 x.cause } })
    let s := (s.dropFlights c).releaseHandles c 0xFFFF
    let stamp := s.stampOf c x
    let s := s.endRequest c
    let s :=
      if x.cause = causeKilled then
        ((s.killWork c job stamp k.holds).voidSlots (fun o => o.core = c && o.cgen = k.cgen && o.job = job)).poisonJob job
      else s.endWork c job stamp k.holds k.seq.other
    (s.onCore c (·.ended)).hostGo
/-- FATAL_CONTEXT_ERROR: the drains over, the context ends. -/
def execFatalContextError (c : Nat) (s : State) : Host.Outcome State Fault Refusal :=
  let k := s.core c
  if k.seq.phase != .fatal || k.seq.opened || !k.drained || !k.seq.stores.isEmpty then .next s
  else match k.seq.fatal with
    | some x => .next (s.endContext c x)
    | none => .next s

/-- HANGLIM in cycles (R292, 12 R343). -/
def Job.hangLimit (j : Job) : Nat := 2 ^ (if j.hanglog = 0 then 30 else j.hanglog)
/-- HANG_WATCHDOG_EXPIRY: cause 0x0C against the stalled slot, or against the slot of the command at a queue's head. -/
def execHangWatchdogExpiry (c : Nat) (s : State) : Host.Outcome State Fault Refusal :=
  let k := s.core c
  match k.job.bind s.job with
  | none => .next s
  | some j =>
    if k.seq.idleCycles < j.hangLimit || k.seq.fatal.isSome || k.seq.opened ||
        !(k.seq.phase = .run || k.seq.phase = .ending || k.seq.phase = .yielding) then .next s
    else
      let head := (k.eng.fly ++ k.eng.queue).head?
      let x : Fatal := match k.seq.stall, head with
        | some .branch, _ => ⟨causeHang, 7, 0, k.seq.pc⟩
        | some (.unit u), _ => ⟨causeHang, (u - 1) / 2, 0, k.seq.pc⟩
        | none, some d => ⟨causeHang, 3 + d.q, 0, d.naming⟩
        | none, none => ⟨causeHang, 0, 0, k.seq.pc⟩
      .next ((s.onCore c (fun k => (k.fatal x).noteFatal s.gtick)).toFatal c)

/-! ### Restore (R291) -/

/-- The status word's fields of an image (01 R37). -/
def Status.ofWord (w : Word) : Status :=
  { cause := w.extractLsb' 58 6, prio := w.extractLsb' 56 2, preq := w.getLsbD 55, replay := w.getLsbD 54, disc := w.getLsbD 47,
    late := w.getLsbD 46, bovr := w.getLsbD 45, flags := Flags.ofBits (w.extractLsb' 35 5),
    resume := (w.extractLsb' 8 4).toNat, repidx := (w.extractLsb' 4 4).toNat }
/-- The registers of an image's header and middle part; the core keeps its own CTXID, DUTY and PWORD, and its handles are
restored after. `h`, `m`: the header's and the middle part's bytes. -/
def Ctx.ofImage (x : Ctx) (h m : List Byte) (v : Saved) : Ctx :=
  let word := fun (o : Nat) => BitVec.ofNat 64 (num h o 8)
  let depth := num h 72 4
  { x with
    sw := Status.ofWord (word 8),
    deadline := BitVec.ofNat 32 (num h 32 4), seed := word 40, fpctl := fpctlOf (word 48), ovfptr := ovfptrOf (word 56),
    dispret := dispretOf (word 64),
    depth := depth, tdepth := num h 76 1 % 4, predV := BitVec.ofNat 16 (num h 80 2) &&& 0xFFFE, predW := BitVec.ofNat 16 (num h 82 2) ||| 1,
    bank := b8 (num h 84 1), mirror := (List.range 16).foldl (fun t n => t.set 255 n (num h (88 + n) 1)) [],
    flow := BitVec.ofNat 5 (num h 104 1), sreg := (List.range 31).foldl (fun t n => t.set 0 (n + 1) (word (136 + 8 * n))) [],
    ras := (List.range (min 16 depth)).map (fun i => num h (384 + 8 * i) 8),
    sem := (List.range 16).foldl (fun t n => t.set 0 n (num h (768 + 2 * n) 2)) [],
    loop := (List.range 4).foldl (fun t n =>
      t.set LoopCtr.empty n ⟨num h (800 + 24 * n) 4, num h (808 + 24 * n) 8, num h (816 + 24 * n) 8⟩) [],
    stream := (List.range 8).foldl (fun t n =>
      let st := num m (0x4900 + 16 * n) 1
      t.set Stream.empty n ⟨(List.range (st % 16)).map (fun i => rowOfBytes (slice m (2048 * n + 256 * i) 256)), st / 16 % 2 = 1⟩) [],
    ring := (List.range 8).foldl (fun t n => t.set Ring.empty n (Ring.ofImage (slice m (0x4000 + 256 * n) 256))) [],
    port := (List.range 8).foldl (fun t n =>
      t.set Port.empty n (Port.ofImage (slice m (0x4800 + 32 * n) 32) (v.ports.contains n))) [],
    bb := (List.range 16).foldl (fun t n =>
      let w := num m (0x4980 + 8 * n) 8
      t.set Barrier.empty n ⟨w % 2 ^ 24, w / 2 ^ 24 % 2 ^ 24, w / 2 ^ 48 % 2 = 1, none⟩) [],
    mould := (List.range 4).foldl (fun t n =>
      t.set none n (if num m (0x4A00 + n) 1 = 255 then none else some (BitVec.ofNat 4096 (ofLe (slice m (0x5000 + 512 * n) 512))))) [],
    accKind := v.kinds, latchV := [], latchS := [] }
/-- One piece of the rest of the image written to the core (R289). -/
def Ctx.putPiece (c : Nat) (x : Ctx) (o : Nat) (l : List Byte) : Ctx :=
  let t := x.tileBytes
  let accN := if kindOf c = .main then x.accN else 0
  if o < 0x8000 + t then
    let n := (o - 0x8000) / (256 * x.rows)
    (List.range x.rows).foldl (fun y j => y.setTileRow1 n j (rowOfBytes (slice l (256 * j) 256))) x
  else if o < 0x8000 + t + 65536 * accN then x.setAcc ((o - 0x8000 - t) / 65536) (bytesWords l)
  else x.stRange (o - 0x8000 - t - 65536 * accN) l
/-- The length of a piece. -/
def pieceLen (c : Nat) (x : Ctx) (o : Nat) : Nat :=
  let at0 := 0x8000 + x.tileBytes + (if kindOf c = .main then 65536 * x.accN else 0)
  if o < 0x8000 + x.tileBytes then 256 * x.rows
  else if o < at0 then 65536 else min 65536 (spadSize c x - (o - at0))

/-- The handle of the leaf that a cache entry holds; the old one, not valid, where there is none. -/
def Handle.ofEntry (old : Handle) (va : Nat) (t : Option TEntry) : Handle :=
  match t.bind (fun t => t.leaf.map (t.size, ·)) with
  | some (size, e) => handleOf size e va
  | none => old
/-- The handle of a page translated again, or the old one, not valid, where it has none; none while a service is waited for. -/
def State.retranslate (s : State) (job : Nat) (rq : Req) (old : Handle) : State × Option Handle :=
  let va := old.va.toNat
  match s.access job rq va 1 false with
  | (s, .wait) => (s, none)
  | (s, .ok _) => (s, some (Handle.ofEntry old va (s.mem.lookup rq.die job va)))
  | (s, _) => (s, some old)
/-- A saved handle, translated again where it was valid. -/
def State.rehandle (s : State) (job : Nat) (rq : Req) (l : List Byte) : State × Option Handle :=
  let a := num l 0 8
  let old : Handle := ⟨BitVec.ofNat 64 (num l 8 8) &&& 0x7CFF00FFFFFF0000#64, BitVec.ofNat 57 (a % 2 ^ 57)⟩
  if a < 2 ^ 63 then (s, some old) else s.retranslate job rq old
/-- A handle that a suspended command had read, translated again with those of the registers (R291; 07 R210). -/
def State.regrip (s : State) (job : Nat) (rq : Req) (h : Handle) : State × Option Handle :=
  if h.valid then s.retranslate job rq { h with info := h.info &&& 0x7FFFFFFFFFFFFFFF#64 } else (s, some h)
def State.regripCmd (s : State) (job : Nat) (rq : Req) (d : Cmd) : State × Option Cmd :=
  match s.regrip job rq d.hs with
  | (s, none) => (s, none)
  | (s, some hs) => match s.regrip job rq d.hd with
    | (s, none) => (s, none)
    | (s, some hd) => (s, some { d with hs := hs, hd := hd, birth := s.mem.qseq })
/-- All suspended commands of a saved task, or none while a page is waited for. -/
def State.regrips (s : State) (job : Nat) (rq : Req) (t : Tbl (List Cmd)) : State × Option (Tbl (List Cmd)) :=
  t.foldl (fun a e => match a.2 with
    | none => a
    | some t => match e.2.foldl (fun b d => match b.2 with
        | none => b
        | some l => match b.1.regripCmd job rq d with
          | (s, some d) => (s, some (l ++ [d]))
          | (s, none) => (s, none)) (a.1, some []) with
      | (s, some l) => (s, some (t ++ [(e.1, l)]))
      | (s, none) => (s, none)) (s, some [])

/-- What reading an image gives: it cannot be restored, a service is waited for, or the registers and the record. -/
inductive Image where
  | bad
  | wait
  | ok (x : Ctx) (record : List Byte) (handles : List Byte)
/-- Read the image of a saved task (R291 step 1). -/
def State.readImage (s : State) (c : Nat) (j : Job) (v : Saved) : State × Image :=
  let k := (s.core c).ctx
  let va := j.slotVa v.slot
  let rd := fun (s : State) (o n : Nat) => s.jobRead j.num (coreReq c) 9 (some c) k.ctxid (va + o) n (spanFuel n)
  match s.jobCheck j.num (coreReq c) false va (k.imageLen c) (spanFuel (k.imageLen c)) with
  | (s, .wait) => (s, .wait)
  | (s, .ok) =>
    match rd s 0 0x8000 with
    | (s, .ok l) =>
      if num l 0 4 != 0x4C535643 || num l 4 2 != 1 || BitVec.ofNat 64 (num l 16 8) != k.pword then (s, .bad)
      else
        let x := k.ofImage l (l.drop 0x2000) v
        let r := (x.pieces c).foldl (fun (a : State × Option Ctx) e =>
          match a.2 with
          | none => a
          | some y => match rd a.1 e.1 (pieceLen c x e.1) with
            | (s, .ok b) => (s, some (y.putPiece c e.1 b))
            | (s, _) => (s, none)) (s, some x)
        match r.2 with
        | some y => (r.1, .ok y (slice l 0x1000 4096) (slice l 512 256))
        | none => (r.1, .bad)
    | (s, _) => (s, .bad)
  | (s, _) => (s, .bad)
/-- The handles of an image, all translated again, or none while a page is waited for. -/
def State.rehandles (s : State) (job : Nat) (rq : Req) (l : List Byte) : State × Option (List Handle) :=
  (List.range 16).foldl (fun a n =>
    match a.2 with
    | none => a
    | some hs => match a.1.rehandle job rq (slice l (16 * n) 16) with
      | (s, some h) => (s, some (hs ++ [h]))
      | (s, none) => (s, none)) (s, some [])

/-- A saved task leaves the save area for core `c`: the core holds it, its slot is free, its leases are the core's (12 R362). -/
def State.takeSaved (s : State) (c : Nat) (j : Job) (i : Nat) (v : Saved) : State :=
  let new : Job := { j.rename (savedHolder v.slot) c with saved := j.saved.eraseIdx i, slots := j.slots.erase v.slot }
  (s.setJob new).onSeq c (fun q => { q with task := some v.task, waiting := false, stall := none, xfer := none, loopSkip := none,
                                            rep := 0, resume := 0, leaf := none })
/-- A saved task's image, read and its handles bound again, becomes the core's context, and goes on as its record says (R290,
R291). -/
def State.restored (s : State) (c i : Nat) (j : Job) (v : Saved) (x : Ctx) (record : List Byte) (hs : List Handle) (kept : Tbl (List Cmd)) :
    State :=
  let s := s.takeSaved c j i v
  let old := (s.core c).ctx
  let s := s.onCtx c (fun _ => { x with handle := old.handle, sw := { x.sw with disc := x.sw.disc || old.sw.disc } })
  let s := hs.zipIdx.foldl (fun s h => if h.1.valid then s.writeHandle c h.2 h.1 else (s.releaseHandle c h.2).onCtx c (·.setH h.2 h.1)) s
  let s := s.onSeq c (fun q => match v.blk with
    | some b => { q with blk := some ⟨q.cycles, b.limit⟩, cycles := q.cycles + b.start }
    | none => { q with blk := none })
  let s := ((kept.flatMap (·.2)).foldl (fun s d => if d.started then s.pinBoth d.hs d.hd else s) s).onCore c (·.setKept kept)
  if recordBad record then
    (s.onCore c (fun k => (k.fault { UnitCtx.empty with core := c, bundle := k.seq.pc } causeIllegal).noteFatal s.gtick)).toFatal c
  else s.resumeFrom c 0 record
/-- The restore of saved task `i` into core `c` (R291). -/
def State.restore (s : State) (c i : Nat) : State :=
  match (s.jobOf c).bind s.job with
  | none => s
  | some j => match j.saved[i]? with
    | none => s
    | some v =>
      let was := (s.core c).ctx.sw.disc
      let setDisc := fun (s : State) (b : Bool) => s.onCtx c (fun x => { x with sw := { x.sw with disc := b } })
      match (setDisc s false).readImage c j v with
      | (s, .wait) => setDisc s was
      | (s, .bad) =>
        -- the context is treated as killed
        match s.job j.num with
        | some j => (((s.takeSaved c j i v).deliver c causeKilled 0)).toFatal c
        | none => s
      | (s, .ok x record handles) =>
        match s.rehandles j.num (coreReq c) handles with
        | (s, none) => s
        | (s, some hs) =>
          match s.regrips j.num (coreReq c) v.kept with
          | (s, none) => s
          | (s, some kept) =>
          match s.job j.num with
          | none => s
          | some j => s.restored c i j v x record hs kept

/-- The restore, when nothing of the core's own is outstanding; results still in flight complete their latency first, in
ordinary cycles, as before a save (R278). -/
def State.restoreTry (s : State) (c i : Nat) : State :=
  let k := s.core c
  if k.seq.opened || !k.enginesDone || k.seq.fatal.isSome then s
  else if k.drained then s.restore c i
  else if k.seq.pend.isEmpty then s
  else s.landCycle c

/-- RESTORE: saved task `i` of its job returns to core `c`, which waits and is offered it (12 R351, R362). -/
def execRestore (c i : Nat) (s : State) : Host.Outcome State Fault Refusal :=
  let k := s.core c
  if !k.offered then .next s
  else match s.firstItem c with
    | some x => .next (if x.work = .saved i && s.lowest c x then s.restoreTry c i else s)
    | none => .next s

end Sys2Proof.Machine
end

