-- ==== Sys2Proof/Machine/Launch.lean ====
section
/-! DEFINITION. The Lamum image (03_bundle_encoding.md R122 to R125), the launch record and its checks
(12_task_scheduler.md R342 to R348), the creation of contexts (R344), and the LAUNCH, START and KILL of a host datagram
(19_host_boot_power.md R473, R521). -/
namespace Sys2Proof.Machine

/-! ### The image (R122 to R125) -/

/-- A section entry (R123). -/
structure Sect where
  kind : Nat
  flags : Nat
  vaddr : Nat
  msize : Nat
  off : Nat
  fsize : Nat
  deriving DecidableEq, Repr

/-- A section entry's fields (R124); its reserved ones, FLAGS[15:4] and bytes 4 to 7, are not read (log 14: the spec does not say
what a value other than 0 does there). -/
def Sect.ofBytes (l : List Byte) : Sect := ⟨num l 0 2, num l 2 2, num l 8 8, num l 16 8, num l 24 8, num l 32 8⟩
/-- A section's fields are in their ranges, in an image of `size` bytes (R123, R124). Two choices (log 14): reserved fields are
not looked at, and every code section, not one alone, must be executable. That a field outside its range (VADDR, FSIZE above MSIZE)
fails the launch with reason 1 is a third, since R124's list and R343 do not name it (log 14). -/
def Sect.ok (x : Sect) (size : Nat) : Bool :=
  decide (1 ≤ x.kind) && decide (x.kind ≤ 7) && x.vaddr % 65536 = 0 && decide (x.vaddr < 2 ^ 57) && decide (x.fsize ≤ x.msize) &&
    decide (x.off + x.fsize ≤ size) && (x.kind != 1 || x.flags % 4 = 2) && (x.kind != 2 || x.flags / 2 % 2 = 0)
def Sect.meets (x y : Sect) : Bool := decide (x.vaddr < y.vaddr + y.msize) && decide (y.vaddr < x.vaddr + x.msize)
def disjoint : List Sect → Bool
  | [] => true
  | x :: r => !(r.any (fun y => x.msize != 0 && y.msize != 0 && x.meets y)) && disjoint r
/-- The sections of a well-formed image (R124). That NSECT outside 3 to 64, or a SIZE too small for the header, fails with reason 1 is a
choice of the model (log 14). -/
def imageSects (l : List Byte) : Option (List Sect) :=
  let n := num l 6 2
  let size := num l 8 8
  let x := (List.range n).map (fun i => Sect.ofBytes ((l.drop (64 + 40 * i)).take 40))
  let kinds := fun (k : Nat) => (x.filter (fun y => y.kind = k)).length
  if num l 0 4 != 0x4D554D4C || num l 4 2 != 1 || n < 3 || 64 < n || size < 64 + 40 * n || l.length < size then none
  else if !x.all (·.ok size) || kinds 1 = 0 || kinds 3 != 1 || kinds 5 != 1 || kinds 6 != 1 || 1 < kinds 4 || !disjoint x then none
  else some x
/-- The contents of a section, zero-filled to MSIZE (R123). -/
def Sect.body (x : Sect) (l : List Byte) : List Byte := slice ((l.drop x.off).take x.fsize) 0 x.msize
def sectOf (x : List Sect) (kind : Nat) : Sect := (x.find? (fun y => y.kind = kind)).getD ⟨kind, 0, 0, 0, 0, 0⟩
/-- A bundle address lies in a code section. -/
def inSects (x : List Sect) (a : Nat) : Bool :=
  x.any (fun y => y.kind = 1 && decide (y.vaddr ≤ a) && decide (a < y.vaddr + y.msize))
/-- The start vector's 128 entries (R125). Entries past the end of a section of fewer than 1,024 bytes read as zero and start
nothing (log 14: a choice, no failure reason names the case). -/
def startWords (l : List Byte) : List Word := (List.range 128).map (fun i => BitVec.ofNat 64 (num l (8 * i) 8))
/-- The entry address of a start-vector entry, bits [56:2]; the reserved bits [62:57] and [1:0] are ignored (R125; log 14: a
choice). -/
def startEntry (w : Word) : Nat := 4 * (w.extractLsb' 2 55).toNat
/-- The cores that a start vector starts, by their numbers, with their entry words (R125). -/
def started (v : List Word) : List (Nat × Word) := ((v.zipIdx).filter (fun e => e.1.getLsbD 63)).map (fun e => (e.2, e.1))

/-- Bytes of a job's resident pages, read by the scheduler; none where a page is missing or a block uncorrectable. -/
def State.imageRead (s : State) (job va n : Nat) : Nat → State × Option (List Byte)
  | 0 => (s, some [])
  | f + 1 =>
    if n = 0 then (s, some [])
    else
      let m := min n (65536 - va % 65536)
      match s.translate job va with
      | (s, .ok size e) =>
        let r := s.readHbm 7 0 (ptePlace size e va).key m
        if r.2.2.1 then (r.1, none)
        else match r.1.imageRead job (va + m) (n - m) f with
          | (s, some l) => (s, some (r.2.1 ++ l))
          | x => x
      | (s, _) => (s, none)

/-! ### TCBs (R345 to R348) -/

/-- The bytes 48 to 95 that a kind uses (R347). -/
def tcbUsed (kind nlev : Nat) : Nat :=
  match kind with | 1 => 8 * nlev | 2 => 14 | 4 => 12 | 5 => 20 | 6 => 8 | 7 => 8 | _ => 0
/-- The successors of a TCB, where its list lies within the section (R345, R346); `l` is the section. -/
def tcbSucc (vaddr : Nat) (l : List Byte) (n : Nat) : Option (List Nat) :=
  let a := num l (128 * n + 8) 8
  let k := num l (128 * n + 16) 4 % 2 ^ 20
  if k = 0 then some []
  else if a < vaddr || l.length < a - vaddr + 4 * k then none
  else some ((List.range k).map (fun i => num l (a - vaddr + 4 * i) 4))
/-- TCB `n` as the scheduler reads it (R345). -/
def tcbOfBytes (vaddr : Nat) (l : List Byte) (n : Nat) : Tcb :=
  let b := (l.drop (128 * n)).take 128
  let kind := num b 0 1
  let flags := num b 1 1
  { kind := kind, cls := flags % 4, claim := flags.testBit 2, tmpl := flags.testBit 3, pcount0 := num b 4 4 % 2 ^ 20,
    succ := ((tcbSucc vaddr l n).getD []).map (· % 2 ^ 20), mcores := BitVec.ofNat 64 (num b 24 8), lcores := BitVec.ofNat 64 (num b 32 8),
    entry := num b 40 8 % 2 ^ 57,
    levels := if kind = 1 then (List.range (min 6 (num b 2 1))).map (fun d => (num b (48 + 8 * d) 4, num b (52 + 8 * d) 1 % 4)) else [],
    tick := num b 48 8, cycles := num b 56 4 % 2 ^ 19, waits := num b 60 2, cond := num b 48 8 % 2 ^ 57, ntrue := num b 56 4 % 2 ^ 20,
    body := num b 56 4 % 2 ^ 20, nbody := num b 60 4 % 2 ^ 20, back := num b 64 4 % 2 ^ 20, value := BitVec.ofNat 64 (num b 48 8) }
/-- A reserved bit is set, or a field lies outside its range (R346 to R348, R353). -/
def tcbFieldsBad (vaddr : Nat) (l : List Byte) (n : Nat) : Bool :=
  let b := (l.drop (128 * n)).take 128
  let kind := num b 0 1
  let nlev := num b 2 1
  let a := num b 8 8
  let levels := (List.range (if kind = 1 then min 6 nlev else 0)).map (fun d => num b (48 + 8 * d) 8)
  decide (7 < kind) || decide (16 ≤ num b 1 1) || decide (2 ^ 20 ≤ num b 4 4) || decide (2 ^ 57 ≤ a) || a % 4 != 0 ||
    decide (2 ^ 20 ≤ num b 16 4) || num b 20 4 != 0 || decide (2 ^ 57 ≤ num b 40 8) ||
    (if kind = 1 then nlev = 0 || decide (6 < nlev) else nlev != 0) ||
    ((b.drop (48 + tcbUsed kind nlev)).take (48 - tcbUsed kind nlev)).any (· != 0) ||
    levels.any (fun w => w % 2 ^ 32 = 0 || w / 2 ^ 32 % 4 = 3 || decide (2 ^ 34 ≤ w)) ||
    decide (2 ^ 32 < (levels.map (· % 2 ^ 32)).foldl (· * ·) 1) ||
    (kind = 2 && (num b 56 4 = 0 || decide (2 ^ 19 ≤ num b 56 4))) ||
    (decide (4 ≤ kind) && decide (kind ≤ 6) && (decide (2 ^ 57 ≤ num b 48 8) || num b 48 8 % 8 != 0)) ||
    ((kind = 4 || kind = 5) && decide (2 ^ 20 ≤ num b 56 4)) ||
    (kind = 5 && (decide (2 ^ 20 ≤ num b 60 4) || decide (2 ^ 20 ≤ num b 64 4))) ||
    ((tcbSucc vaddr l n).getD []).any (fun w => decide (2 ^ 20 ≤ w))
/-- A TCB is malformed (R348). -/
def tcbBad (x : List Sect) (cores : List Nat) (vaddr : Nat) (l : List Byte) (all : List Tcb) (n : Nat) (t : Tcb) : Bool :=
  let dispatched := t.needsCores
  tcbFieldsBad vaddr l n || (t.mcores != 0 && t.lcores != 0) || (dispatched && t.mcores = 0 && t.lcores = 0) ||
    t.cores.any (fun c => !cores.contains c) || (dispatched && !inSects x t.entry) || (t.kind = 7 && t.entry != 0) ||
    t.succ.any (fun i => match all[i]? with | some u => u.kind = 0 || u.kind = 3 | none => true) || (t.tmpl && t.kind != 1) ||
    (t.kind = 4 && decide (t.succ.length < t.ntrue)) ||
    (t.kind = 5 && (decide (all.length ≤ t.body) || decide (all.length < t.body + t.nbody) ||
      (decide (t.body ≤ n) && decide (n < t.body + t.nbody))))

/-! ### The launch (R342, R343) -/

/-- A job that holds nothing. -/
def Job.blank (n : Nat) : Job :=
  { num := n, pword := 0x601, duty := 0, deadline := 18000, seed := 0, ovfptr := 0, dispret := 0, probev := 0, arithv := 0,
    trapv := 0, hanglog := 30, dynq := 0, dyncap := 1, saveslots := 0, savebase := 0, ntcb := 1, tgraph := 0, ptroot := 0,
    migthresh := 4096, hosttmo := 10000, flist := [0, 0, 0, 0], discw := 0, code := [], bytes := [], start := [],
    measure := 0, tcb := [], node := [], dyn := [], recSeq := 0, firings := [], saved := [], slots := [], gone := [],
    frozen := false, stamps := [], stampSent := false, stampEv := none, complete := false, ending := [] }
/-- A job as its image describes it: `l` the image, `x` its sections, `r` its launch record (R342, R301). -/
def jobOfImage (n : Nat) (l : List Byte) (x : List Sect) (r : List Byte) : Job :=
  let tg := sectOf x 3
  let tb := tg.body l
  let ntcb := num r 104 4
  let code := x.filter (fun y => y.kind = 1)
  { Job.blank n with
    pword := BitVec.ofNat 64 (num r 0 8 % 2 ^ 16), duty := BitVec.ofNat 64 (num r 8 8 % 2 ^ 8),
    deadline := if num r 16 8 / 2 ^ 63 = 1 then BitVec.ofNat 32 (num r 16 4) else 18000,
    seed := BitVec.ofNat 64 (num r 24 8), ovfptr := ovfptrOf (BitVec.ofNat 64 (num r 32 8)), dispret := (dispretOf (BitVec.ofNat 64 (num r 40 8))).toNat,
    probev := num r 48 8 % 2 ^ 57, arithv := num r 56 8 % 2 ^ 57, trapv := num r 64 8 % 2 ^ 57, hanglog := num r 72 1,
    dynq := num r 80 8, dyncap := num r 88 4, saveslots := num r 92 4, savebase := num r 96 8, ntcb := ntcb, tgraph := tg.vaddr,
    ptroot := BitVec.ofNat 64 (num r 128 8), migthresh := num r 136 4, hosttmo := num r 140 4,
    flist := (List.range 4).map (fun d => BitVec.ofNat 64 (num r (144 + 8 * d) 8)), discw := BitVec.ofNat 64 (num r 176 8),
    code := code.map (fun y => (y.vaddr, y.msize)),
    bytes := code.foldl (fun (t : Tbl Byte) y => t.setRange 0 y.vaddr (y.body l)) [],
    start := startWords ((sectOf x 5).body l), measure := Config.shake256 l,
    tcb := ((List.range (min (ntcb % 2 ^ 21) (tb.length / 128))).map (fun i => (i, tcbOfBytes tg.vaddr tb i))).filter
      (fun e => e.2 != Tcb.empty) }

/-- What a walk finds of a job that the scheduler holds, one being launched included. -/
def State.leafFor (s : State) (j : Job) (va : Nat) : WalkRes :=
  match s.job j.num with
  | none => .nomap
  | some _ => j.walk s.mem va
/-- A region's pages are mapped and writable; a malformed entry on the way is reported (R342, R304). -/
def State.regionOk (s : State) (j : Job) (va n : Nat) : Nat → State × Bool
  | 0 => (s, true)
  | f + 1 =>
    if n = 0 then (s, true)
    else match s.leafFor j va with
      | .leaf _ size e =>
        let m := min n (pageBytes size - va % pageBytes size)
        if pteWr e then s.regionOk j (va + m) (n - m) f else (s, false)
      | .malformed => (s.ptError j.num va, false)
      | .nomap => (s, false)
/-- The vat entries of a launch record: VTCFG's operands (R342). -/
def vatEntries (r : List Byte) : List (Word × Word) :=
  (List.range (min (num r 76 4) ((r.length - 192) / 16))).map (fun v =>
    (BitVec.ofNat 64 (num r (192 + 16 * v) 8), BitVec.ofNat 64 (num r (200 + 16 * v) 8)))
/-- A vat entry is refused (R343 reason 6; 08 R252). -/
def State.vatEntryBad (s : State) (job : Nat) (all : List Tcb) (e : Word × Word) : Bool :=
  let x := s.vatAt (e.1.extractLsb' 0 11).toNat
  let age := (e.2.extractLsb' 20 22).toNat
  e.1.extractLsb' 22 42 != 0 || e.2.extractLsb' 42 22 != 0 || decide (age < 1000) || decide (4000000 < age) ||
    (match all[(e.2.extractLsb' 0 20).toNat]? with | some t => t.kind != 1 | none => true) || (x.state != 0 && x.owner != job)
/-- The cluster semaphores that a launch asks for (R342). -/
def csemList (csem : Nat) (cores : List (Nat × Word)) : List Nat :=
  (List.range 8).flatMap (fun cl => if cores.any (fun e => clusterOf e.1 = some cl) then
    ((List.range 16).filter csem.testBit).map (· + 16 * cl) else [])

/-- The reasons of R343 that the image and the module give against a launch, in ascending order. -/
def State.launchReasons (s : State) (n : Nat) (l : List Byte) (x : List Sect) : State × List Nat :=
  let rs := sectOf x 6
  let r := slice (rs.body l) 0 (max 192 rs.msize)
  let j := jobOfImage n l x r
  let v := started j.start
  let tg := sectOf x 3
  let tb := tg.body l
  let count := min (num r 104 4 % 2 ^ 21) (tb.length / 128)
  let all := (List.range count).map (tcbOfBytes tg.vaddr tb)
  let acc := num r 0 8 / 2 ^ 7 % 2 ^ 7
  let handlers := [j.probev, j.arithv, j.trapv].filter (· != 0)
  let dyn := s.regionOk j j.dynq (64 * j.dyncap) (spanFuel (64 * j.dyncap))
  let save := if j.saveslots = 0 then (dyn.1, true) else dyn.1.regionOk j j.savebase (0x810000 * j.saveslots) (spanFuel (0x810000 * j.saveslots))
  let bad := fun (b : Bool) (k : Nat) => if b then [k] else []
  let lists := (List.range count).any (fun i => (tcbSucc tg.vaddr tb i).isNone)
  (save.1,
    bad (decide (rs.msize < 192 + 16 * num r 76 4)) 1 ++
    bad (j.pword.extractLsb' 14 2 = 3 || decide (acc < 12) || decide (64 < acc) || num r 0 8 % 2 ^ 7 = 0) 2 ++
    bad (v.any (fun e => !inSects x (startEntry e.2)) || !inSects x j.dispret || handlers.any (fun a => !inSects x a)) 3 ++
    bad ((all.zipIdx).any (fun e => tcbBad x (v.map (·.1)) tg.vaddr tb all e.2 e.1)) 4 ++
    bad ((csemList (num r 74 2) v).any (fun i => match s.semOwner.get none i with | some o => o != n | none => false)) 5 ++
    bad ((vatEntries r).any (s.vatEntryBad n all)) 6 ++
    bad (j.ntcb = 0 || decide (2 ^ 20 < j.ntcb) || decide (tg.msize < 128 * j.ntcb) || lists || decide (2048 < num r 76 4) ||
      j.dyncap = 0 || decide (2 ^ 20 < j.dyncap) || decide (4096 < j.saveslots) || decide (2 ^ 57 ≤ j.dynq) || j.dynq % 64 != 0 ||
      decide (2 ^ 57 ≤ j.savebase) || j.savebase % 65536 != 0 || !dyn.2 || !save.2 || n = fwJob) 7 ++
    bad (v.any (fun e => (s.core e.1).job.isSome)) 8)

/-! ### Contexts (R344) -/

/-- A context of a job on a core, at the entry that its start-vector word names (R344). -/
def State.startCore (s : State) (j : Job) (c : Nat) (w : Word) : State :=
  let k := s.core c
  let g := k.cgen + 1
  let x : Ctx := { Ctx.fresh with
    pword := j.pword, duty := j.duty, deadline := j.deadline, seed := j.seed, ovfptr := j.ovfptr, dispret := w64 j.dispret,
    ctxid := w64 (ownModule * 2 ^ 52 + j.num * 2 ^ 32 + coreField c * 2 ^ 8 + g.toNat) }
  let q : Seqr := { Seqr.empty with
    phase := .run, pc := startEntry w, issue := k.seq.issue, copNext := k.seq.copNext, cycles := k.seq.cycles }
  let s := s.setCore c { ctx := x, seq := q, eng := Eng.empty, job := some j.num, cgen := g, ldq := [] }
  let s := match clusterOf c with
    | none => s
    | some cl => { s with semC := s.semC.filter (fun e => !(e.1 / 16 = cl && s.semOwner.get none e.1 = some j.num)) }
  s.onJob j.num (fun b => { b with gone := b.gone.filter (· != c) })
/-- Steps 2 to 5 of R343. -/
def State.launchGo (s : State) (j : Job) (r : List Byte) : State :=
  let v := started j.start
  let s := s.setJob j
  let s := { s with semOwner := (csemList (num r 74 2) v).foldl (fun t i => t.set none i (some j.num)) s.semOwner,
                    semC := (csemList (num r 74 2) v).foldl (fun t i => t.set 0 i 0) s.semC }
  let s := (vatEntries r).foldl (fun s e =>
    let d : UnitCmd := { core := 0, id := 0, job := j.num, op := .powerOn, a := e.1, b := e.2, data := [], banks := 0, rows := 0 }
    let y := s.vatAt (vatNum d)
    s.setVat (vatNum d) (cfgVat d (if y.state = 0 then { Vat.empty with state := 1, owner := j.num } else y))) s
  let s := v.foldl (fun s e => s.startCore j e.1 e.2) s
  let s := s.setJob { (s.job j.num).getD j with
    node := (j.tcb.filter (fun e => e.2.isNode && e.2.pcount0 != 0)).map (fun e => (e.1, { Node.empty with pcount := e.2.pcount0 })) }
  (j.tcb.filter (fun e => e.2.isNode && e.2.pcount0 = 0)).foldl (fun s e => s.makeReady j.num e.1) s
/-- LAUNCH (R343): the payload names the image's address, and the page-table root to read it through (log 14). -/
def State.launchImage (s : State) (d : Datagram) : State :=
  let n := d.job % 2 ^ 20
  let va := num d.payload 0 8 % 2 ^ 57
  let t := s.setJob { Job.blank n with ptroot := BitVec.ofNat 64 (num d.payload 8 8) }
  let back := fun (t : State) => { t with sched := s.sched }
  let fail := fun (t : State) (k : Nat) => (back t).event 16 n [k]
  match t.imageRead n va 64 3 with
  | (t, none) => fail t 1
  | (t, some h) =>
    let size := num h 8 8
    match t.imageRead n va size (spanFuel size) with
    | (t, none) => fail t 1
    | (t, some l) =>
      match imageSects l with
      | none => fail t 1
      | some x =>
        match t.launchReasons n l x with
        | (t, k :: _) => fail t k
        | (t, []) =>
          if (s.job n).isSome then fail t 8
          else
            let rs := sectOf x 6
            let r := rs.body l
            (back t).launchGo (jobOfImage n l x r) r

/-! ### START and KILL (R521, R355) -/

/-- The core that a payload of two bytes names; none where a reserved bit is set (R473). -/
def payloadCore (l : List Byte) : Option Nat := if l.length = 2 && num l 0 2 < 128 then some (num l 0 2) else none
/-- START's status, and what it does. -/
def State.startCtx (s : State) (d : Datagram) : State × Nat :=
  match payloadCore d.payload with
  | none => (s, 1)
  | some c =>
    match s.job (d.job % 2 ^ 20) with
    | none => (s, 2)
    | some j =>
      if !j.ending.isEmpty then (s, 2)
      else if (s.core c).job.isSome then (s, 3)
      else if !(j.start.getD c 0).getLsbD 63 then (s, 4)
      else (s.startCore j c (j.start.getD c 0), 0)
/-- KILL: the context of the header's job on the core ends with cause 0x13; the acknowledgement waits for its end. -/
def State.killCtx (s : State) (d : Datagram) : State :=
  match payloadCore d.payload with
  | none => s.ackHost d.seq []
  | some c =>
    let k := s.core c
    if k.job != some (d.job % 2 ^ 20) then s.ackHost d.seq []
    else (s.deliver c causeKilled 0).onHost (fun h => { h with dues := h.dues ++ [⟨d.seq, c, d.job % 2 ^ 20, k.cgen⟩] })

end Sys2Proof.Machine
end

