-- ==== Sys2Proof/Machine/Text.lean ====
section
/-! DEFINITION. The text and grammar units (08_coprocessor_instructions.md R260 to R267, 16_text_grammar_unit.md): TXNORM,
TXENC, TXDEC, GRLOAD, GRADV, GRMASK, GRSTAT, STOPSET, STOPCHK and TABLE_MISS. -/
namespace Sys2Proof.Machine

/-! ### Work that reads tables -/

/-- What a piece of a unit's work gives: a value, an error reply, a table miss (R425), or a page to wait for. -/
inductive TRes (α : Type) where
  | ok (v : α)
  | err (reason : Nat)
  | miss (table idx : Nat)
  | wait

/-- Work that reads and writes job memory as it goes (R250, R413). -/
abbrev TM (α : Type) := State → State × TRes α
def tmOk {α : Type} (v : α) : TM α := fun s => (s, .ok v)
def tmErr {α : Type} (reason : Nat) : TM α := fun s => (s, .err reason)
def tmMiss {α : Type} (table idx : Nat) : TM α := fun s => (s, .miss table idx)
def tmBind {α β : Type} (x : TM α) (f : α → TM β) : TM β := fun s =>
  match x s with
  | (s, .ok v) => f v s
  | (s, .err r) => (s, .err r)
  | (s, .miss t i) => (s, .miss t i)
  | (s, .wait) => (s, .wait)
/-- Refuse where a condition fails. -/
def tmNeed (ok : Bool) (reason : Nat) : TM Unit := if ok then tmOk () else tmErr reason
def tmMap {α β : Type} (f : α → TM β) : List α → TM (List β)
  | [] => tmOk []
  | a :: r => tmBind (f a) (fun b => tmBind (tmMap f r) (fun l => tmOk (b :: l)))
/-- The state as the work finds it. -/
def tmGet {α : Type} (f : State → α) : TM α := fun s => (s, .ok (f s))

/-- Bytes of the command's job, read by the unit of the core's die; what cannot be read is error TABLE (R249, 10 R317). -/
def tmRead (d : UnitCmd) (va n : Nat) : TM (List Byte) := fun s =>
  match s.jobRead d.job (textReq (dieOf d.core)) 7 (some d.core) (s.core d.core).ctx.ctxid va n (spanFuel n) with
  | (s, .ok l) => (s, .ok l)
  | (s, .wait) => (s, .wait)
  | (s, _) => (s, .err errTable)
def tmCheck (d : UnitCmd) (wr : Bool) (va n : Nat) : TM Unit := fun s =>
  match s.jobCheck d.job (textReq (dieOf d.core)) wr va n (spanFuel n) with
  | (s, .ok) => (s, .ok ())
  | (s, .wait) => (s, .wait)
  | (s, _) => (s, .err errTable)
/-- Memory as it was, with what the attempt recorded of its errors. -/
def Mem.undo (m was : Mem) : Mem := { was with elog := m.elog, elogN := m.elogN }
/-- Bytes written, all of their pages found before the first is written; where a block of them is poisoned the command is
refused, nothing is written (R249), and the context receives cause 0x0B (10 R317). -/
def tmWrite (d : UnitCmd) (va : Nat) (l : List Byte) : TM Unit := tmBind (tmCheck d true va l.length) (fun _ s =>
  match s.jobWrite d.job (textReq (dieOf d.core)) (s.core d.core).ctx.ctxid true va l (spanFuel l.length) with
  | (s, .ok) => (s, .ok ())
  | (s, .wait) => (s, .wait)
  | (s', _) => ((s'.onMem (·.undo s.mem)).deliver d.core causeEcc 0, .err errTable))
def tmNum (d : UnitCmd) (va n : Nat) : TM Nat := tmBind (tmRead d va n) (fun l => tmOk (ofLe l))

/-! ### Table headers (R412) -/

def magicNorm : Nat := 0x4D524F4E
def magicMerge : Nat := 0x4752454D
def magicToken : Nat := 0x4B4F5444
def magicGrammar : Nat := 0x4D524D47
/-- The 64 bytes of a table's header: aligned, with the magic value and version of its kind, and the bytes that are to be
zero. -/
def tableHeader (d : UnitCmd) (base magic : Nat) (zero : List Byte → Bool) : TM (List Byte) :=
  tmBind (tmNeed (base % 64 = 0) errTable) (fun _ =>
  tmBind (tmRead d base 64) (fun h =>
  tmBind (tmNeed (num h 0 4 = magic && num h 4 2 = 1 && zero h) errTable) (fun _ => tmOk h)))
/-- All of a span of the command's job is mapped (R412). -/
def tmMapped (d : UnitCmd) (va n : Nat) : TM Unit := fun s =>
  match s.jobMapped d.job (dieOf d.core) va n false (spanFuel n) with
  | (s, true) => (s, .ok ())
  | (s, false) => (s, .err errTable)
/-- A region that a header names: its offset is aligned, and all of it is mapped. -/
def tableRegion (d : UnitCmd) (base off n : Nat) : TM Unit :=
  tmBind (tmNeed (off % 16 = 0) errTable) (fun _ => tmMapped d (base + off) n)

/-! ### Hashed tables (R415) -/

def hashHome (x y s : Nat) : Nat := (x * 0x9E3779B1 + y * 0x85EBCA6B) % 2 ^ 32 / 2 ^ (32 - s)
/-- Probe from slot `i`: the entry whose keys are x and y, none at the first that is not valid. -/
def hashProbe (d : UnitCmd) (base s keyBits x y : Nat) : Nat → Nat → TM (Option (List Byte))
  | 0, _ => tmOk none
  | n + 1, i =>
    tmBind (tmRead d (base + 16 * i) 16) (fun e =>
      if num e 0 4 < 2 ^ 31 then tmOk none
      else if num e 0 4 % 2 ^ keyBits = x && num e 4 4 = y then tmOk (some e)
      else hashProbe d base s keyBits x y n ((i + 1) % 2 ^ s))
def hashFind (d : UnitCmd) (base s keyBits x y : Nat) : TM (Option (List Byte)) :=
  hashProbe d base s keyBits x y (2 ^ s) (hashHome x y s)

/-! ### Text descriptors (R260) -/

structure TextDesc where
  inp : Nat
  inLen : Nat
  cap : Nat
  out : Nat
  table : Nat
  deriving DecidableEq, Repr

def textDesc (d : UnitCmd) : TM TextDesc :=
  tmBind (tmNeed (d.a.extractLsb' 57 7 = 0) errRsvd) (fun _ =>
  tmBind (tmNeed (d.a.toNat % 32 = 0) errRange) (fun _ =>
  tmBind (tmRead d d.a.toNat 32) (fun l =>
  tmBind (tmNeed (num l 0 8 < 2 ^ 57 && num l 8 4 < 2 ^ 24 && num l 12 4 < 2 ^ 24 && num l 16 8 < 2 ^ 57 &&
    num l 24 8 < 2 ^ 57) errRsvd) (fun _ =>
  tmBind (tmNeed (num l 8 4 != 0) errRange) (fun _ =>
  tmOk ⟨num l 0 8, num l 8 4, num l 12 4, num l 16 8, num l 24 8⟩)))))
/-- The reply of R261. -/
def textReply (part : Bool) (used outn : Nat) : Word :=
  BitVec.ofNat 64 ((if part then 2 ^ 62 else 0) + used % 2 ^ 24 * 2 ^ 32 + outn % 2 ^ 32)
/-- Whole units of output, made one by one while they fit, each with the input unit it begins at: the bytes or tokens written,
and the input unit not consumed, none where all was. No unit after the first that does not fit is looked at (R261, R413). -/
def fitUnits {α : Type} (cap : Nat) : Nat → List (Nat × TM (List α)) → TM (List α × Option Nat)
  | _, [] => tmOk ([], none)
  | n, u :: rest =>
    tmBind u.2 (fun v =>
      if cap < n + v.length then tmOk ([], some u.1)
      else tmBind (fitUnits cap (n + v.length) rest) (fun r => tmOk (v ++ r.1, r.2)))

/-! ### TXNORM (R414, R416) -/

/-- How many bytes follow a lead byte, and the range of the first of them (RFC 3629). -/
def utf8Lead (b : Nat) : Option (Nat × Nat × Nat) :=
  if 0xC2 ≤ b && b ≤ 0xDF then some (1, 0x80, 0xBF)
  else if b = 0xE0 then some (2, 0xA0, 0xBF)
  else if b = 0xED then some (2, 0x80, 0x9F)
  else if 0xE1 ≤ b && b ≤ 0xEF then some (2, 0x80, 0xBF)
  else if b = 0xF0 then some (3, 0x90, 0xBF)
  else if 0xF1 ≤ b && b ≤ 0xF3 then some (3, 0x80, 0xBF)
  else if b = 0xF4 then some (3, 0x80, 0x8F)
  else none
/-- The continuation bytes after a lead: their value so far, how many were good, and whether all were. -/
def utf8Tail : Nat → Nat → Nat → List Byte → Nat → Nat → Nat × Nat × Bool
  | 0, _, _, _, v, n => (v, n, true)
  | k + 1, lo, hi, l, v, n =>
    match l with
    | [] => (v, n, false)
    | b :: r => if lo ≤ b.toNat && b.toNat ≤ hi then utf8Tail k 0x80 0xBF r (v * 64 + b.toNat % 64) (n + 1) else (v, n, false)
/-- One code point, or U+FFFD for a maximal ill-formed subsequence, and the bytes it took. -/
def utf8One (b : Byte) (rest : List Byte) : Nat × Nat :=
  if b.toNat < 0x80 then (b.toNat, 1)
  else match utf8Lead b.toNat with
    | none => (0xFFFD, 1)
    | some (k, lo, hi) =>
      let r := utf8Tail k lo hi rest (b.toNat % 2 ^ (6 - k)) 0
      if r.2.2 then (r.1, k + 1) else (0xFFFD, 1 + r.2.1)
/-- The code points of a text, each with the place of its first byte; `skip` bytes belong to the one before. -/
def utf8Decode : List Byte → Nat → Nat → List (Nat × Nat)
  | [], _, _ => []
  | b :: r, pos, 0 => let x := utf8One b r; (pos, x.1) :: utf8Decode r (pos + 1) (x.2 - 1)
  | _ :: r, pos, n + 1 => utf8Decode r (pos + 1) n
def utf8Encode (c : Nat) : List Byte :=
  if c < 0x80 then [b8 c]
  else if c < 0x800 then [b8 (0xC0 + c / 64), b8 (0x80 + c % 64)]
  else if c < 0x10000 then [b8 (0xE0 + c / 4096), b8 (0x80 + c / 64 % 64), b8 (0x80 + c % 64)]
  else [b8 (0xF0 + c / 262144), b8 (0x80 + c / 4096 % 64), b8 (0x80 + c / 64 % 64), b8 (0x80 + c % 64)]

/-- A normalisation table: its address and header fields. -/
structure NormTab where
  base : Nat
  compose : Bool
  cs : Nat
  l1 : Nat
  ch : Nat
  pool : Nat
  deriving DecidableEq, Repr

def normTab (d : UnitCmd) (base : Nat) : TM NormTab :=
  tmBind (tableHeader d base magicNorm (fun h =>
    num h 6 2 = 0 && num h 8 1 < 2 && num h 9 3 = 0 && 4 ≤ num h 12 1 && num h 12 1 ≤ 20 && num h 13 3 = 0 && num h 40 24 = 0))
    (fun h =>
  tmBind (tableRegion d base (num h 16 8) 17408) (fun _ =>
  tmBind (tableRegion d base (num h 24 8) (16 * 2 ^ num h 12 1)) (fun _ =>
  tmBind (tmNeed (num h 32 8 % 16 = 0) errTable) (fun _ =>
  tmOk ⟨base, num h 8 1 = 1, num h 12 1, num h 16 8, num h 24 8, num h 32 8⟩))))
/-- The 8-byte entry of a code point; none in an identity block (R414). -/
def normEntry (d : UnitCmd) (t : NormTab) (c : Nat) : TM (Option Nat) :=
  tmBind (tmNeed (c < 0x110000) errTable) (fun _ =>
  tmBind (tmNum d (t.base + t.l1 + 4 * (c / 256)) 4) (fun v =>
    if v = 0xFFFFFFFF then tmMiss t.base (c / 256)
    else if v = 0xFFFFFFFE then tmOk none
    else tmBind (tmNum d (t.base + 2048 * v + 8 * (c % 256)) 8) (fun e => tmOk (some e))))
/-- A produced code point with the combining class of its own entry. -/
def normClass (d : UnitCmd) (t : NormTab) (c : Nat) : TM (Nat × Nat) :=
  tmBind (normEntry d t c) (fun e => tmOk (c, match e with | some e => e / 2 ^ 56 % 256 | none => 0))
/-- The code points that one maps to, with their classes. -/
def normMap (d : UnitCmd) (t : NormTab) (c : Nat) : TM (List (Nat × Nat)) :=
  tmBind (normEntry d t c) (fun e =>
    match e with
    | none => tmOk [(c, 0)]
    | some e =>
      let target := e % 2 ^ 40
      match e / 2 ^ 54 % 4 with
      | 0 => tmOk [(c, e / 2 ^ 56 % 256)]
      | 1 => tmBind (normClass d t (target % 2 ^ 21)) (fun x => tmOk [x])
      | 2 => tmMap (fun i => tmBind (tmNum d (t.base + t.pool + 4 * (target + i)) 4) (normClass d t)) (List.range (e / 2 ^ 48 % 32))
      | _ => tmOk [])

/-- A code point in hand: itself, its class, the input byte it came from, and whether it is the first produced there. -/
structure NormCp where
  cp : Nat
  ccc : Nat
  pos : Nat
  first : Bool
  deriving DecidableEq, Repr

/-- Insert into a list sorted by class, after the equal ones. -/
def insCcc (x : NormCp) : List NormCp → List NormCp
  | [] => [x]
  | y :: r => if x.ccc < y.ccc then x :: y :: r else y :: insCcc x r
/-- The followers of a segment, sorted stably by class. -/
def orderSeg (l : List NormCp) : List NormCp :=
  match l with | [] => [] | x :: r => x :: r.foldl (fun acc y => insCcc y acc) []
/-- The canonical composition of a segment's followers with its first code point (R416): `last` is the class of the last
follower kept. -/
def composeSeg (d : UnitCmd) (t : NormTab) (starter : Nat) (kept : List Nat) (last : Option Nat) : List NormCp → TM (List Nat)
  | [] => tmOk (starter :: kept)
  | y :: r =>
    if (match last with | some c => decide (y.ccc ≤ c) | none => false) then composeSeg d t starter (kept ++ [y.cp]) (some y.ccc) r
    else tmBind (hashFind d (t.base + t.ch) t.cs 21 starter y.cp) (fun e =>
      match e with
      | some e => composeSeg d t (num e 8 4) kept last r
      | none => composeSeg d t starter (kept ++ [y.cp]) (some y.ccc) r)
def normSeg (d : UnitCmd) (t : NormTab) (l : List NormCp) : TM (List Byte) :=
  match orderSeg l with
  | [] => tmOk []
  | x :: r => tmBind (if t.compose then composeSeg d t x.cp [] none r else tmOk (x.cp :: r.map (·.cp))) (fun cs =>
      tmOk (cs.flatMap utf8Encode))
/-- TXNORM under way: the segment in hand, its last code point first; the place and the bytes of the unit of output in hand, which
is one segment, or several where a later one begins inside the code points that one input code point produced, so that every
place to stop is an input byte from which the command can be repeated; the bytes written; and where it stopped (R416). -/
structure NormRun where
  seg : List NormCp
  pos : Nat
  unit : List Byte
  out : List Byte
  stop : Option Nat
  deriving DecidableEq, Repr
/-- The segment in hand is complete. -/
def NormRun.closeSeg (d : UnitCmd) (t : NormTab) (r : NormRun) : TM NormRun :=
  tmBind (normSeg d t r.seg.reverse) (fun b => tmOk { r with seg := [], unit := r.unit ++ b })
/-- The unit in hand is complete: written, or the place to stop at. -/
def NormRun.closeUnit (cap : Nat) (r : NormRun) : NormRun :=
  if cap < r.out.length + r.unit.length then { r with stop := some r.pos } else { r with out := r.out ++ r.unit, unit := [] }
/-- A produced code point: a segment begins at a class of 0, at the 64th follower, or at the start (R416). -/
def NormRun.feed (d : UnitCmd) (t : NormTab) (cap : Nat) (r : NormRun) (x : NormCp) : TM NormRun :=
  if r.stop.isSome then tmOk r
  else if r.seg.isEmpty then tmOk { r with seg := [x], pos := x.pos }
  else if x.ccc = 0 || r.seg.length = 64 then
    tmBind (r.closeSeg d t) (fun r =>
      let r := if x.first then { r.closeUnit cap with pos := x.pos } else r
      tmOk (if r.stop.isSome then r else { r with seg := [x] }))
  else tmOk { r with seg := x :: r.seg }
def NormRun.feeds (d : UnitCmd) (t : NormTab) (cap : Nat) : NormRun → List NormCp → TM NormRun
  | r, [] => tmOk r
  | r, x :: l => tmBind (r.feed d t cap x) (fun r => r.feeds d t cap l)
/-- The decoded code points one by one, mapped as they are needed, until the output's capacity is reached. -/
def NormRun.go (d : UnitCmd) (t : NormTab) (cap : Nat) : NormRun → List (Nat × Nat) → TM NormRun
  | r, [] => if r.seg.isEmpty || r.stop.isSome then tmOk r else tmBind (r.closeSeg d t) (fun r => tmOk (r.closeUnit cap))
  | r, c :: l =>
    if r.stop.isSome then tmOk r
    else tmBind (normMap d t c.2) (fun m =>
      tmBind (r.feeds d t cap (m.zipIdx.map (fun e => ⟨e.1.1, e.1.2, c.1, e.2 = 0⟩))) (fun r => r.go d t cap l))
def txnorm (d : UnitCmd) : TM Word :=
  tmBind (textDesc d) (fun x =>
  tmBind (normTab d x.table) (fun t =>
  tmBind (tmRead d x.inp x.inLen) (fun l =>
  tmBind (NormRun.go d t x.cap ⟨[], 0, [], [], none⟩ (utf8Decode l 0 0)) (fun r =>
  tmBind (tmWrite d x.out r.out) (fun _ =>
  tmOk (textReply r.stop.isSome (r.stop.getD x.inLen) r.out.length))))))

/-! ### TXENC (R417, R418) -/

structure MergeTab where
  base : Nat
  vocab : Nat
  s : Nat
  hash : Nat
  bmap : List Byte
  deriving DecidableEq, Repr

def mergeTab (d : UnitCmd) (base : Nat) : TM MergeTab :=
  tmBind (tableHeader d base magicMerge (fun h =>
    num h 6 2 = 0 && 1 ≤ num h 8 4 && num h 8 4 ≤ 262144 && 4 ≤ num h 12 1 && num h 12 1 ≤ 24 && num h 13 3 = 0 && num h 32 32 = 0))
    (fun h =>
  tmBind (tableRegion d base (num h 16 8) (16 * 2 ^ num h 12 1)) (fun _ =>
  tmBind (tableRegion d base (num h 24 8) 1312) (fun _ =>
  tmBind (tmRead d (base + num h 24 8) 1312) (fun m =>
  tmOk ⟨base, num h 8 4, num h 12 1, num h 16 8, m⟩))))
def MergeTab.cls (t : MergeTab) (b : Byte) : Nat := num t.bmap (1024 + b.toNat) 1 % 16
def MergeTab.breaks (t : MergeTab) (p q : Byte) : Bool :=
  let i := 16 * t.cls p + t.cls q
  (num t.bmap (1280 + i / 8) 1).testBit (i % 8)
/-- The words of the input, each with the place of its first byte. -/
def wordsOf (t : MergeTab) : Nat → List Byte → List Byte → List (Nat × List Byte)
  | pos, cur, [] => if cur.isEmpty then [] else [(pos - cur.length, cur.reverse)]
  | pos, cur, b :: r =>
    match cur with
    | [] => wordsOf t (pos + 1) [b] r
    | p :: _ =>
      if t.breaks p b || cur.length = 256 then (pos - cur.length, cur.reverse) :: wordsOf t (pos + 1) [b] r
      else wordsOf t (pos + 1) (b :: cur) r
/-- The pair of lowest rank, the leftmost on a tie: its rank, place and result. -/
def bestPair (d : UnitCmd) (t : MergeTab) : Nat → List Nat → TM (Option (Nat × Nat × Nat))
  | j, x :: y :: r =>
    tmBind (hashFind d (t.base + t.hash) t.s 18 x y) (fun e =>
    tmBind (bestPair d t (j + 1) (y :: r)) (fun b =>
      match e with
      | none => tmOk b
      | some e =>
        let me := (num e 8 4, j, num e 12 4)
        match b with
        | none => tmOk (some me)
        | some b => tmOk (some (if me.1 ≤ b.1 then me else b))))
  | _, _ => tmOk none
/-- Merge the pairs of a word until none is left; at most one merge for each token it began with. -/
def mergeWord (d : UnitCmd) (t : MergeTab) : Nat → List Nat → TM (List Nat)
  | 0, l => tmOk l
  | n + 1, l =>
    tmBind (bestPair d t 0 l) (fun b =>
      match b with
      | none => tmOk l
      | some (_, j, r) =>
        if t.vocab ≤ r then tmErr errTable else mergeWord d t n (l.take j ++ r :: l.drop (j + 2)))
def encWord (d : UnitCmd) (t : MergeTab) (w : List Byte) : TM (List Nat) :=
  let l := w.map (fun b => num t.bmap (4 * b.toNat) 4)
  tmBind (tmNeed (l.all (fun x => decide (x < t.vocab))) errTable) (fun _ => mergeWord d t l.length l)
def txenc (d : UnitCmd) : TM Word :=
  tmBind (textDesc d) (fun x =>
  tmBind (mergeTab d x.table) (fun t =>
  tmBind (tmRead d x.inp x.inLen) (fun l =>
  tmBind (fitUnits x.cap 0 ((wordsOf t 0 [] l).map (fun w => (w.1, encWord d t w.2)))) (fun r =>
  tmBind (tmWrite d x.out (r.1.flatMap (leBytes 4))) (fun _ =>
  tmOk (textReply r.2.isSome (r.2.getD x.inLen) r.1.length))))))

/-! ### TXDEC (R419) -/

structure TokTab where
  base : Nat
  vocab : Nat
  eoff : Nat
  poff : Nat
  deriving DecidableEq, Repr

def tokTab (d : UnitCmd) (base : Nat) : TM TokTab :=
  tmBind (tableHeader d base magicToken (fun h =>
    num h 6 2 = 0 && 1 ≤ num h 8 4 && num h 8 4 ≤ 262144 && num h 12 4 = 0 && num h 32 32 = 0)) (fun h =>
  tmBind (tmNeed (num h 16 8 % 16 = 0 && num h 24 8 % 16 = 0) errTable) (fun _ =>
  tmOk ⟨base, num h 8 4, num h 16 8, num h 24 8⟩))
/-- The bytes of a token below the vocabulary size; bits [63:40] of its entry are zero. -/
def tokBytes (d : UnitCmd) (t : TokTab) (x : Nat) : TM (List Byte) :=
  tmBind (tmNum d (t.base + t.eoff + 8 * x) 8) (fun e =>
  tmBind (tmNeed (e < 2 ^ 40) errTable) (fun _ => tmRead d (t.base + t.poff + e % 2 ^ 32) (e / 2 ^ 32)))
def words32 : List Byte → List Nat
  | a :: b :: c :: d :: r => ofLe [a, b, c, d] :: words32 r
  | _ => []
def txdec (d : UnitCmd) : TM Word :=
  tmBind (textDesc d) (fun x =>
  tmBind (tokTab d x.table) (fun t =>
  tmBind (tmRead d x.inp (4 * x.inLen)) (fun l =>
  let toks := words32 l
  tmBind (tmNeed (toks.all (fun v => decide (v < t.vocab))) errRange) (fun _ =>
  tmBind (tableRegion d t.base t.eoff (8 * t.vocab)) (fun _ =>
  tmBind (fitUnits x.cap 0 (toks.zipIdx.map (fun v => (v.2, tokBytes d t v.1)))) (fun r =>
  tmBind (tmWrite d x.out r.1) (fun _ =>
  tmOk (textReply r.2.isSome (r.2.getD x.inLen) r.1.length))))))))

/-! ### Grammar automata (R420, R421) -/

structure GramTab where
  base : Nat
  push : Bool
  accEmpty : Bool
  nstate : Nat
  start : Nat
  vocab : Nat
  fin : Nat
  soff : Nat
  deriving DecidableEq, Repr

/-- The fields of a grammar header that R420 bounds. -/
def gramOk (h : List Byte) : Bool :=
  num h 6 1 ≤ 1 && num h 7 1 ≤ 1 && (num h 7 1 = 0 || num h 6 1 = 1) && 1 ≤ num h 8 4 && num h 8 4 ≤ 2 ^ 20 &&
    num h 12 4 < num h 8 4 && 1 ≤ num h 16 4 && num h 16 4 ≤ 262144 && num h 20 4 < num h 16 4 && num h 32 32 = 0
def gramTab (d : UnitCmd) (base : Nat) : TM GramTab :=
  tmBind (tableHeader d base magicGrammar gramOk) (fun h =>
  tmBind (tableRegion d base (num h 24 8) (16 * num h 8 4)) (fun _ =>
  tmOk ⟨base, num h 6 1 = 1, num h 7 1 = 1, num h 8 4, num h 12 4, num h 16 4, num h 20 4, num h 24 8⟩))

structure Trans where
  lo : Nat
  hi : Nat
  next : Nat
  op : Nat
  cond : Nat
  sym : Nat
  deriving DecidableEq, Repr

def Trans.ofBytes (e : List Byte) : Trans :=
  ⟨num e 0 4, num e 4 4, num e 8 4 % 2 ^ 20, num e 8 4 / 2 ^ 20 % 4, num e 8 4 / 2 ^ 22 % 4, num e 12 2⟩
/-- An entry keeps the rules of R420; `prev` is the LO before it. -/
def transOk (t : GramTab) (prev : Nat) (e : List Byte) : Bool :=
  let x := Trans.ofBytes e
  let uses := x.op = 1 || x.cond = 1
  x.lo ≤ x.hi && x.hi < t.vocab && num e 8 4 < 2 ^ 24 && x.next < t.nstate && x.op != 3 && num e 14 2 = 0 &&
    (t.push || (x.op = 0 && x.cond = 0)) && (uses != (x.sym = 0)) && prev ≤ x.lo
def transList (t : GramTab) : Nat → Nat → List Byte → Option (List Trans)
  | 0, _, _ => some []
  | n + 1, prev, l =>
    if transOk t prev (l.take 16) then
      (transList t n (num l 0 4) (l.drop 16)).map (Trans.ofBytes (l.take 16) :: ·)
    else none
/-- A state's ACC bit and its transitions; ABSENT is a miss (R425). -/
def gramState (d : UnitCmd) (t : GramTab) (st : Nat) : TM (Bool × List Trans) :=
  tmBind (tmRead d (t.base + t.soff + 16 * st) 16) (fun e =>
    let n := num e 8 4
    if (num e 12 1).testBit 1 then tmMiss t.base st
    else tmBind (tmNeed (num e 12 1 < 4 && num e 13 3 = 0 && n ≤ 2 ^ 20) errTable) (fun _ =>
    tmBind (tmRead d (t.base + num e 0 8) (16 * n)) (fun l =>
      match transList t n 0 l with
      | some ts => tmOk ((num e 12 1).testBit 0, ts)
      | none => tmErr errTable)))
/-- COND on a stack, its top first. -/
def Trans.holds (x : Trans) (stack : List Nat) : Bool :=
  match x.cond with
  | 0 => true
  | 1 => stack.head? = some x.sym
  | 2 => stack.isEmpty
  | _ => !stack.isEmpty
def Trans.applies (x : Trans) (stack : List Nat) : Bool := (x.op != 1 || decide (stack.length < 64)) && (x.op != 2 || !stack.isEmpty)
def Trans.apply (x : Trans) (stack : List Nat) : List Nat :=
  match x.op with
  | 1 => x.sym :: stack
  | 2 => stack.drop 1
  | _ => stack
/-- The transition that matches a token. -/
def matchTok (ts : List Trans) (stack : List Nat) (x : Nat) : Option Trans :=
  ts.find? (fun t => decide (t.lo ≤ x) && decide (x ≤ t.hi) && t.holds stack)
/-- R421: the token is admitted. -/
def admits (ts : List Trans) (stack : List Nat) (x : Nat) : Bool :=
  match matchTok ts stack x with | some t => t.applies stack | none => false
/-- The state's accepting and dead bits: no token below VOCAB is admitted. -/
def gramBits (t : GramTab) (acc : Bool) (ts : List Trans) (stack : List Nat) : Bool × Bool :=
  (acc && (!t.accEmpty || stack.isEmpty), !(List.range t.vocab).any (admits ts stack))

def State.entryAt (s : State) (die e : Nat) : Entry := (s.text.get TextUnit.empty die).entries.get Entry.empty e
def State.setEntry (s : State) (die e : Nat) (x : Entry) : State :=
  let u := s.text.get TextUnit.empty die
  { s with text := s.text.set TextUnit.empty die { u with entries := u.entries.set Entry.empty e x } }
def entryNum (d : UnitCmd) : Nat := (d.a.extractLsb' 0 12).toNat
def tmPut (d : UnitCmd) (x : Entry) : TM Unit := fun s => (s.setEntry (dieOf d.core) (entryNum d) x, .ok ())
/-- The entry named, held by the job (R262). -/
def ownEntry (d : UnitCmd) (reserved : Bool) : TM Entry :=
  tmBind (tmNeed (d.a.extractLsb' 12 52 = 0 && !reserved) errRsvd) (fun _ =>
  tmBind (tmGet (fun s => s.entryAt (dieOf d.core) (entryNum d))) (fun x =>
  tmBind (tmNeed (x.bound && x.owner = d.job) errOwner) (fun _ => tmOk x)))
/-- The grammar status word (R264). -/
def Entry.word (x : Entry) : Word :=
  BitVec.ofNat 64 (x.stack.length * 2 ^ 37 + x.stack.headD 0 * 2 ^ 21 + (if x.acc then 2 ^ 20 else 0) + x.state)

def grload (d : UnitCmd) (unbind : Bool) : TM Word :=
  let b := d.b.toNat
  tmBind (tmNeed (d.a.extractLsb' 12 52 = 0 && b < 2 ^ 57 && !(unbind && b != 0)) errRsvd) (fun _ =>
  tmBind (tmGet (fun s => s.entryAt (dieOf d.core) (entryNum d))) (fun x =>
  tmBind (tmNeed (!x.bound || x.owner = d.job) errOwner) (fun _ =>
    if unbind then tmBind (tmPut d Entry.empty) (fun _ => tmOk 0)
    else if b = 0 then tmBind (tmPut d { Entry.empty with bound := true, owner := d.job }) (fun _ => tmOk 0)
    else
      tmBind (gramTab d b) (fun t =>
      tmBind (gramState d t t.start) (fun st =>
      let bits := gramBits t st.1 st.2 []
      tmBind (tmPut d { Entry.empty with bound := true, owner := d.job, table := b, state := t.start, acc := bits.1,
                                         dead := bits.2 }) (fun _ => tmOk (BitVec.ofNat 64 t.start)))))))
def gradv (d : UnitCmd) : TM Word :=
  let x := (d.b.extractLsb' 0 18).toNat
  tmBind (ownEntry d (d.b.extractLsb' 18 46 != 0)) (fun e =>
    if e.table = 0 then tmOk e.word
    else if e.dead then tmErr errState
    else
      tmBind (gramTab d e.table) (fun t =>
      tmBind (gramState d t e.state) (fun st =>
        match matchTok st.2 e.stack x with
        | none => tmErr errReject
        | some m =>
          if !m.applies e.stack then tmErr errStack
          else
            let stack := m.apply e.stack
            tmBind (gramState d t m.next) (fun nx =>
            let bits := gramBits t nx.1 nx.2 stack
            let e := { e with state := m.next, stack := stack, acc := bits.1, dead := bits.2 }
            tmBind (tmPut d e) (fun _ => tmOk e.word)))))
def grstat (d : UnitCmd) : TM Word :=
  tmBind (ownEntry d false) (fun e => tmOk (e.word ||| (if e.dead then BitVec.ofNat 64 (2 ^ 45) else 0)))

/-- What GRMASK sends back: its reply, its rows and its predicate. -/
structure MaskRes where
  word : Word
  rows : List Row
  dead : Bool
  deriving DecidableEq, Repr

def grmask (d : UnitCmd) (fields : BitVec 22) (mayWrite : Bool) : TM MaskRes :=
  let g := (d.b.extractLsb' 0 5).toNat
  let n := (d.b.extractLsb' 5 5).toNat + 1
  let row0 := (fields.extractLsb' 4 7).toNat
  tmBind (ownEntry d (d.b.extractLsb' 10 54 != 0)) (fun e =>
    if e.table = 0 || e.dead then tmErr errState
    else if 32 < g + n then tmErr errRange
    else
      tmBind (gramTab d e.table) (fun t =>
      tmBind (gramState d t e.state) (fun st =>
      tmBind (tmNeed (mayWrite && row0 + 4 * n ≤ d.rows) errTile) (fun _ =>
      let ok := fun x => decide (x < t.vocab) && admits st.2 e.stack x
      let bits := gramBits t st.1 st.2 e.stack
      let rows := (List.range (4 * n)).map (fun r => packLanes 1 ((List.range 2048).map (fun b =>
        if ok (8192 * g + 2048 * r + b) then 1 else 0)))
      let nadm := ((List.range (8192 * n)).filter (fun i => ok (8192 * g + i))).length
      tmBind (tmPut d { e with acc := bits.1, dead := bits.2 }) (fun _ =>
      tmOk ⟨BitVec.ofNat 64 (nadm * 2 ^ 22 + (if bits.2 then 2 ^ 21 else 0) + (if bits.1 then 2 ^ 20 else 0) + t.fin), rows, bits.2⟩)))))

/-! ### Stop strings (R266, R267) -/

/-- The strings of a stop block, or the lowest reason to refuse it. -/
def stopStrings (l : List Byte) : Nat ⊕ List (List Byte) :=
  let n := num l 8 1
  let idx := List.range (min n 16)
  let len := fun s => num l (64 + 64 * s) 1
  if 2 ^ 57 ≤ num l 0 8 || num l 9 55 != 0 ||
      idx.any (fun s => 1 ≤ len s && len s ≤ 63 && num l (65 + 64 * s + len s) (63 - len s) != 0) then .inl errRsvd
  else if 16 < n || idx.any (fun s => len s = 0 || 63 < len s) then .inl errRange
  else .inr (idx.map (fun s => slice l (65 + 64 * s) (len s)))
def stopset (d : UnitCmd) : TM Word :=
  tmBind (ownEntry d (d.b.extractLsb' 57 7 != 0)) (fun e =>
  tmBind (tmNeed (d.b.toNat % 64 = 0) errRange) (fun _ =>
  tmBind (tmRead d d.b.toNat 1088) (fun l =>
    match stopStrings l with
    | .inl r => tmErr r
    | .inr ss => tmBind (tmPut d { e with strings := ss, lens := ss.map (fun _ => 0), stopped := false, stopTable := num l 0 8 })
        (fun _ => tmOk 0))))
/-- The longest suffix of a matched stem and a byte that is a stem of the string: `n` is the longest it may be. -/
def stopStep (str : List Byte) (m : Nat) (b : Byte) : Nat :=
  let seen := str.take m ++ [b]
  ((List.range (seen.length + 1)).reverse.find? (fun n => decide (n ≤ str.length) && seen.drop (seen.length - n) = str.take n)).getD 0
/-- Scan a token's bytes: the match lengths, and the place and string of the first completion. -/
def stopScan (ss : List (List Byte)) : Nat → List Nat → List Byte → List Nat × Option (Nat × Nat)
  | _, ms, [] => (ms, none)
  | p, ms, b :: r =>
    let ms := (ss.zip ms).map (fun x => stopStep x.1 x.2 b)
    match (ss.zip ms).findIdx? (fun x => x.1.length = x.2) with
    | some i => (ms, some (p, i))
    | none => stopScan ss (p + 1) ms r
def stopchk (d : UnitCmd) : TM Word :=
  let x := (d.b.extractLsb' 0 18).toNat
  tmBind (ownEntry d (d.b.extractLsb' 18 46 != 0)) (fun e =>
  tmBind (tokTab d e.stopTable) (fun t =>
  tmBind (tmNeed (x < t.vocab) errRange) (fun _ =>
  tmBind (tableRegion d t.base t.eoff (8 * t.vocab)) (fun _ =>
  tmBind (tokBytes d t x) (fun l =>
  tmBind (tmNeed (!e.stopped) errStopped) (fun _ =>
    match stopScan e.strings 0 e.lens l with
    | (ms, none) => tmBind (tmPut d { e with lens := ms }) (fun _ => tmOk 0)
    | (ms, some (p, i)) =>
      let trunc : Int := (p : Int) + 1 - (e.strings.getD i []).length
      tmBind (tmPut d { e with lens := ms, stopped := true }) (fun _ =>
      tmOk (BitVec.ofNat 64 (2 ^ 62 + i * 2 ^ 58 + (p + 1) * 2 ^ 40 + wrapInt 16 trunc * 2 ^ 16)))))))))

/-! ### The unit (R247, R424, R425) -/

/-- A command's work, its answer given. -/
def textWork (d : UnitCmd) : TM Unit :=
  let say := fun (x : TM Word) => tmBind x (fun w s => (s.answer d w, .ok ()))
  match d.op with
  | .txnorm _ => say (txnorm d)
  | .txenc _ => say (txenc d)
  | .txdec _ => say (txdec d)
  | .grload f => say (grload d (f.fields.getLsbD 0))
  | .gradv _ => say (gradv d)
  | .grstat _ => say (grstat d)
  | .stopset _ => say (stopset d)
  | .stopchk _ => say (stopchk d)
  | .grmask f =>
    tmBind (tmGet (fun s => (s.core d.core).ctx.mayWrite d.banks 3 (f.fields.extractLsb' 0 4).toNat)) (fun w =>
    tmBind (grmask d f.fields w) (fun m s =>
      (s.answer d m.word m.rows (f.fields.extractLsb' 0 4).toNat (f.fields.extractLsb' 4 7).toNat
        (some ((f.fields.extractLsb' 11 4).toNat, m.dead)), .ok ())))
  | _ => tmOk ()

def State.onText (s : State) (die : Nat) (f : TextUnit → TextUnit) : State :=
  { s with text := s.text.set TextUnit.empty die (f (s.text.get TextUnit.empty die)) }
/-- The unit goes on with its commands, one at a time, oldest first, while no miss holds it. -/
def State.textGo (s : State) (die : Nat) : Nat → State
  | 0 => s
  | n + 1 =>
    let u := s.text.get TextUnit.empty die
    match u.queue, u.miss with
    | d :: rest, none =>
      match textWork d s with
      | (s, .wait) => s
      | (s, .ok _) => (s.onText die (fun u => { u with queue := rest })).textGo die n
      | (s, .err r) => ((s.refuse d r).onText die (fun u => { u with queue := rest })).textGo die n
      | (s, .miss t i) => s.onText die (fun u => { u with queue := rest, miss := some ⟨d, t, i, none, none⟩ })
    | _, _ => s
def State.textRun (s : State) (die : Nat) : State := s.textGo die (s.text.get TextUnit.empty die).queue.length
/-- A command arrives at the unit of its core's die. -/
def State.textCmd (s : State) (d : UnitCmd) : State :=
  let die := dieOf d.core
  (s.onText die (fun u => { u with queue := u.queue ++ [d] })).textRun die

/-- The function code of a text or grammar command (03 R113). -/
def textFn (i : Instr) : Nat :=
  match i with
  | .txnorm _ => 0x20
  | .txenc _ => 0x21
  | .txdec _ => 0x22
  | .grload _ => 0x28
  | .gradv _ => 0x29
  | .grmask _ => 0x2A
  | _ => 0x2B
/-- A miss ends: the command is refused, or runs again. -/
def State.missEnd (s : State) (die : Nat) (m : Miss) (ok : Bool) : State :=
  if ok then (s.onText die (fun u => { u with miss := none, queue := m.cmd :: u.queue })).textRun die
  else ((s.refuse m.cmd errTable).onText die (fun u => { u with miss := none })).textRun die
/-- TABLE_MISS: the miss that holds a die's unit goes on: error TABLE at once, an event to the host, or what the host's
answer says (R425). Without a miss, the unit goes on with its commands. -/
def execTableMiss (die : Nat) (s : State) : Host.Outcome State Fault Refusal :=
  match (s.text.get TextUnit.empty die).miss with
  | none => .next (s.textRun die)
  | some m =>
    match m.ok, m.ev with
    | some ok, _ => .next (s.missEnd die m ok)
    | none, some _ => .next s
    | none, none =>
      if !s.dutyBit m.cmd.job 5 then .next (s.missEnd die m false)
      else
        let n := s.host.evNext
        .next ((s.askWith 5 m.cmd.job [die, m.table, m.idx, textFn m.cmd.op] die 0 0 true).onText die
          (fun u => { u with miss := some { m with ev := some n } }))
/-- The host's answer to a miss, or its silence. -/
def State.missReply (s : State) (die ev : Nat) (ok : Bool) : State :=
  s.onText die (fun u => { u with miss := u.miss.map (fun m => if m.ev = some ev then { m with ok := some ok } else m) })

def textOp (f : CF) (op : Instr) (s : State) : Host.Outcome State Fault Refusal :=
  commitCop s (fun s => s.copIssue f mainOnly op [] (·.textCmd ·))
def execTxnorm (f : CF) (s : State) : Host.Outcome State Fault Refusal := textOp f (.txnorm f) s
def execTxenc (f : CF) (s : State) : Host.Outcome State Fault Refusal := textOp f (.txenc f) s
def execTxdec (f : CF) (s : State) : Host.Outcome State Fault Refusal := textOp f (.txdec f) s
def execGrload (f : CF) (s : State) : Host.Outcome State Fault Refusal := textOp f (.grload f) s
def execGradv (f : CF) (s : State) : Host.Outcome State Fault Refusal := textOp f (.gradv f) s
def execGrmask (f : CF) (s : State) : Host.Outcome State Fault Refusal := textOp f (.grmask f) s
def execGrstat (f : CF) (s : State) : Host.Outcome State Fault Refusal := textOp f (.grstat f) s
def execStopset (f : CF) (s : State) : Host.Outcome State Fault Refusal := textOp f (.stopset f) s
def execStopchk (f : CF) (s : State) : Host.Outcome State Fault Refusal := textOp f (.stopchk f) s

end Sys2Proof.Machine
end

