-- ==== Sys2Proof/Machine/Jobs.lean ====
section
/-! DEFINITION. What the host does to a job and its memory: the end of a job (14_expert_vats.md R399, 17_fabric_watermarks.md
R445, R449, R451, 10_memory_translation.md R314), invalidations (R307, R308), discards (R315), keys (17 R450) and routes
(17 R427). -/
namespace Sys2Proof.Machine

/-! ### The end of a job -/

/-- Its contexts end, with their handles (19 R473, 10 R308). -/
def State.endContexts (s : State) (job : Nat) : State :=
  ((s.cores.filter (fun e => e.2.job = some job)).map (·.1)).foldl (fun s c =>
    ((s.dropFlights c).releaseHandles c 0xFFFF).onCore c (·.ended)) s
/-- Its vats close, and its combine slots return to idle (14 R399). -/
def State.endUnits (s : State) (job : Nat) : State :=
  let s := s.onVat (fun u => { u with vats := u.vats.filter (fun e => e.2.owner != job || e.2.state = 0),
                                      low := u.low.filter (· != job), spillEv := u.spillEv.filter (fun e => e.1 != job),
                                      orders := u.orders.filter (fun e => e.1 != job) })
  s.onComb (fun u => { u with slots := u.slots.filter (fun e => e.2.owner != job || e.2.k = 0),
                              waiting := u.waiting.filter (fun d => d.job != job) })
/-- Its partition dissolves: slots void, windows poisoned, held packets and retransmit copies dropped, the key zeroised
(17 R445, R451); its void slots become free (R439). -/
def State.endFabric (s : State) (job : Nat) : State :=
  let s := (s.voidSlots (fun o => o.job = job)).poisonJob job
  s.onFab (fun f => { f with
    holds := f.holds.filter (fun h => h.pkt.job != job), unacked := f.unacked.filter (fun u => u.pkt.job != job),
    sent := f.sent.filter (fun r => r.job != job), iface := f.iface.filter (fun h => h.job != job),
    queries := f.queries.filter (fun q => q.job != job), waiting := f.waiting.filter (fun d => d.job != job),
    keys := f.keys.del job, links := f.links.map (fun e => if e.2.part = some job then (e.1, { e.2 with part := none }) else e),
    origins := f.origins.map (fun e => if e.2.job = job && e.2.state = 3 then (e.1, { e.2 with state := 0 }) else e) })
/-- Its waiting events are waited for no longer; a text unit that waits for one gets its failure (19 R474, 16 R425). -/
def State.endEvents (s : State) (job : Nat) : State :=
  let mine := s.host.waiting.filter (fun w => w.job = job && w.code != 6)
  mine.foldl (fun s w => if w.code = 5 then (s.unask w.num).missReply w.x w.num false else s.unask w.num) s
/-- Its frames go into quarantine, for the module's reserve, and with them the frames it had been given back (10 R314). -/
def State.endMemory (s : State) (j : Job) : State :=
  let l := (j.leaves s.mem 0 (2 ^ 57)).filter (fun x => ptePres x.2.2.2 && !unitFrame (frameId (pteDie x.2.2.2) (ptePbase x.2.2.2)))
  let s := l.foldl (fun s x => s.quarantinePage fwJob x.2.1 x.2.2.2) s
  let acks := (s.mem.invals.filter (fun v => v.job = j.num)).map (·.seq)
  let s := s.onMem (fun m => { m with
    quar := m.quar.map (fun q => if q.job = j.num then { q with job := fwJob } else q),
    reserve := m.reserve ++ ((m.released.filter (fun q => q.job = j.num)).map (fun q => (q.die, q.pbase))) ++
      ((m.migs.filter (fun g => g.job = j.num)).map (fun g => (g.toDie, g.toPb))),
    released := m.released.filter (fun q => q.job != j.num), migs := m.migs.filter (fun g => g.job != j.num),
    services := m.services.filter (fun v => v.job != j.num), served := m.served.filter (fun v => v.job != j.num),
    walks := m.walks.filter (fun w => w.job != j.num), tcache := m.tcache.filter (fun t => t.job != j.num),
    invals := m.invals.filter (fun v => v.job != j.num) })
  (dedup acks).foldl (fun s q => s.ackHost q []) s
/-- The last of a job's end: its events, frames and semaphores are given up, and its JOBENDs acknowledged. -/
def State.endLast (s : State) (j : Job) : State :=
  let s := (s.endEvents j.num).endMemory j
  let mine := (s.semOwner.filter (fun e => e.2 = some j.num)).map (·.1)
  let s := { s with semC := s.semC.filter (fun e => !mine.contains e.1), semOwner := s.semOwner.filter (fun e => e.2 != some j.num) }
  j.ending.foldl (fun s q => s.ackHost q []) (s.onSched (fun d => { d with jobs := d.jobs.del j.num })).hostGo
/-- The jobs whose end has no write-back left to wait for come to it (12 R345). -/
def State.endGo (s : State) : State :=
  ((s.sched.jobs.filterMap (·.2)).filter (fun j => !j.ending.isEmpty && s.sched.writes.all (fun w => w.job != j.num))).foldl
    (fun s j => s.endLast j) s
/-- JOBEND (19 R473): the table is written back, then all that the job holds is given up; where a write-back waits for its page, the
job's memory stays until it is made or dropped, and the acknowledgement with it (12 R345). The key of a job that is not live, its
launch failed or not come, is zeroised as well (17 R451). -/
def State.endJob (s : State) (job seq : Nat) : State :=
  match s.job job with
  | none => (s.endFabric job).ackHost seq []
  | some j =>
    let s := if j.ending.isEmpty then
        (((j.tcb.foldl (fun s e => s.writeBack job e.1) s).endContexts job).endUnits job).endFabric job
      else s
    (s.onJob job (fun j => { j with ending := j.ending ++ [seq], frozen := true, stamps := [], stampEv := none })).endGo

/-! ### Invalidation and discard (10 R307, R308, R315) -/

/-- The ranges of an INVAL payload: 24 bytes each, with address, length and FORCE (log 15). -/
def invalRanges (l : List Byte) : List (Nat × Nat × Bool) :=
  (List.range (l.length / 24)).map (fun i => (num l (24 * i) 8 % 2 ^ 57, num l (24 * i + 8) 8, num l (24 * i + 16) 8 % 2 = 1))
/-- The pages that a range names. -/
def Inval.page (v : Inval) (a n : Nat) : Bool := decide (a < v.va + v.len) && decide (v.va < a + n)
/-- A forced unmap kills the contexts that hold a handle to a page of the range, and clears those handles (10 R308). -/
def State.forceOut (s : State) (v : Inval) : State :=
  let mine := fun (h : Handle) => h.valid && v.page h.va.toNat (pageBytes h.size)
  ((s.cores.filter (fun e => e.2.job = some v.job && handleList.any (fun n => mine (e.2.ctx.h n)))).map (·.1)).foldl (fun s c =>
    let k := (s.core c).ctx
    (handleList.foldl (fun s n => if mine (k.h n) then s.releaseHandle c n else s) s).deliver c causeKilled 0) s
def State.invalidate (s : State) (d : Datagram) : State :=
  let l := (invalRanges d.payload).map (fun r => (⟨d.job % 2 ^ 20, r.1, r.2.1, r.2.2, d.seq⟩ : Inval))
  if l.isEmpty then s.ackHost d.seq []
  else
    let s := (l.filter (·.force)).foldl (·.forceOut ·) s
    (s.onMem (fun m => { m with invals := m.invals ++ l })).hostGo
/-- DISCARD: the frames of the resident pages in a range are marked. Their leaves are kept in no die's cache, but where a later
unmap finds them (R315; log 31). -/
def State.discardRange (s : State) (job va n : Nat) : State :=
  match s.job job with
  | none => s
  | some j =>
    ((j.leaves s.mem va (va + n)).filter (fun x => ptePres x.2.2.2)).foldl (fun s x =>
      let s := s.onMem (·.fill ⟨4, job, x.1, x.2.1, some x.2.2.2, false⟩)
      (List.range (pageBytes x.2.1 / 65536)).foldl (fun s i =>
        let f := frameId (pteDie x.2.2.2) (ptePbase x.2.2.2 + i)
        if x.1 + 65536 * i < va + n && va < x.1 + 65536 * (i + 1) && !unitFrame f then
          s.onMem (fun m => { m with discarded := m.discarded.set false f true })
        else s) s) s

/-! ### Keys and routes (17 R427, R450) -/

/-- The ports of a job's partition, which the fabric manager has laid out: an open value (R454; log 13). -/
def Fabric.partition (f : Fabric) (job mask : Nat) : Fabric :=
  { f with links := (List.range 16).foldl (fun t p =>
      if mask.testBit p then t.set Link.empty p { t.get Link.empty p with part := some job } else t) f.links }
/-- KEY: bytes 0 to 3 hold E, 0 for its default, and the wrapped key follows; job 0xF_FFFF stands for the group key
(log 15). -/
def State.installKey (s : State) (d : Datagram) : State :=
  match Config.unwrapKey (d.payload.drop 4) with
  | none => s
  | some k =>
    let e := if num d.payload 0 4 = 0 then 2000000 else num d.payload 0 4
    if d.job % 2 ^ 20 = fwJob then s.onFab (fun f => { f with groupKey := some k })
    else
      { s.onFab (fun f => { f with keys := f.keys.set none (d.job % 2 ^ 20) (some (k, e)) }.partition (d.job % 2 ^ 20)
          (Config.freeValue 16 s.free).toNat) with free := s.free + 1 }
/-- ROUTE: records of four bytes: the destination in bytes 0 to 1, its entry in byte 2 (log 15). -/
def State.installRoutes (s : State) (l : List Byte) : State :=
  (List.range (l.length / 4)).foldl (fun s i =>
    let dest := num l (4 * i) 2
    if 4096 ≤ dest then s
    else s.onFab (fun f => { f with route := f.route.set 0 dest (b8 (num l (4 * i + 2) 1) &&& 0x8F) })) s

end Sys2Proof.Machine
end

