-- ==== Sys2Proof/Machine/Rdma.lean ====
section
/-! DEFINITION. RDMA accesses of the host to a job's memory (19_host_boot_power.md R471): RDMA_WRITE, RDMA_READ and
ETHERNET_LINK_CHANGE. -/
namespace Sys2Proof.Machine

/-- The die of an Ethernet port: port 0 on die 0, port 1 on die 2 (R471, 00 R3). -/
def ethDie (port : Nat) : Nat := if port = 0 then 0 else 2
/-- A port takes RDMA accesses on its 1,024 queue pairs while it is up (R471). -/
def HostIf.rdmaUp (h : HostIf) (k : RdmaKey) : Bool :=
  k.qp < 1024 && (if k.port = 0 then !h.ethDown else k.port = 1 && !h.ethDown1)
/-- What completes an RDMA access leaves by its port, for its queue pair. -/
def State.rdmaDone (s : State) (k : RdmaKey) (ok : Bool) (data : List Byte) : State :=
  s.onHost (fun h => { h with out := h.out ++ [(k.port, .rdma k.qp ok data)] })
/-- An RDMA write, whose pages are all writable: the parts of poisoned blocks are dropped, and the flag says that there were
some; reader code 12 (10 R520). -/
def State.rdmaPut (s : State) (job : Nat) (rq : Req) (va : Nat) (l : List Byte) : Nat → State × Bool
  | 0 => (s, false)
  | f + 1 =>
    if l.isEmpty then (s, false)
    else
      let m := min l.length (65536 - va % 65536)
      match s.access job rq va m true with
      | (s, .ok p) =>
        let r := s.writeHbm job 0 p.key (l.take m) 12
        let x := (r.1.rememberLeaves s.mem).rdmaPut job rq (va + m) (l.drop m) f
        (x.1, r.2 || x.2)
      | (s, _) => (s, true)
/-- An RDMA access: what it completes with, or none while a page it needs is being served. -/
def State.rdmaTry (s : State) (r : Rdma) : State × Option (Bool × List Byte) :=
  let rq := rdmaReq (ethDie r.key.port) r.num
  let job := r.key.job
  if (s.job job).isNone then (s, some (false, []))
  else match r.data with
    | some l =>
      match s.jobCheck job rq true r.va l.length (spanFuel l.length) with
      | (s, .wait) => (s, none)
      | (s, .ok) =>
        let x := s.rdmaPut job rq r.va l (spanFuel l.length)
        (x.1, some (!x.2, []))
      | (s, _) => (s, some (false, []))
    | none =>
      match s.jobRead job rq 12 none 0 r.va r.len (spanFuel r.len) with
      | (s, .wait) => (s, none)
      | (s, .ok l) => (s, some (true, l))
      | (s, _) => (s, some (false, []))
/-- An access before it on its queue pair waits: a reliable connection completes them in order (log 40). -/
def State.rdmaBehind (s : State) (r : Rdma) : Bool :=
  s.host.rdma.any (fun x => x.key.port = r.key.port && x.key.qp = r.key.qp && decide (x.num < r.num))
/-- The RDMA accesses that wait, oldest first, tried again. -/
def State.rdmaGo (s : State) : State :=
  s.host.rdma.foldl (fun s r =>
    if s.rdmaBehind r then s
    else match s.rdmaTry r with
    | (s, none) => s
    | (s, some m) => (s.onHost (fun h => { h with rdma := h.rdma.erase r })).rdmaDone r.key m.1 m.2) s
/-- An RDMA access arrives at a powered module whose firmware runs; its completion leaves at once, or when its pages are in. -/
def State.rdma (s : State) (r : Rdma) : State :=
  let wait := fun (s : State) => s.onHost (fun h => { h with rdma := h.rdma ++ [r] })
  if !s.host.powered || s.host.stage != 3 || !s.host.rdmaUp r.key then s
  else
    let s := s.onHost (fun h => { h with rdmaNext := h.rdmaNext + 1 })
    if s.rdmaBehind r then wait s
    else match s.rdmaTry r with
      | (s, some m) => s.rdmaDone r.key m.1 m.2
      | (s, none) => wait s

def execRdmaWrite (key : RdmaKey) (va : Nat) (data : List Byte) (s : State) : Host.Outcome State Fault Refusal :=
  .next (s.rdma ⟨s.host.rdmaNext, key, va, data.length, some data⟩)
def execRdmaRead (key : RdmaKey) (va n : Nat) (s : State) : Host.Outcome State Fault Refusal :=
  .next (s.rdma ⟨s.host.rdmaNext, key, va, n, none⟩)
/-- ETHERNET_LINK_CHANGE: a port goes up or down; events leave by port 1 while port 0 is down (R474). -/
def execEthernetLinkChange (port : Nat) (up : Bool) (s : State) : Host.Outcome State Fault Refusal :=
  .next (s.onHost (fun h => if port = 0 then { h with ethDown := !up } else if port = 1 then { h with ethDown1 := !up } else h))

end Sys2Proof.Machine
end

