-- ==== Sys2Proof/Machine/Paging.lean ====
section
/-! DEFINITION. What the memory system does by itself (10_memory_translation.md R305 to R317): PAGE_WALK, FAULT_SERVICE,
MIGRATION_THRESHOLD, MIGRATION, ACCESS_COUNTER_HALVING, QSEQ_ADVANCE and PATROL_SCRUB. -/
namespace Sys2Proof.Machine

/-! ### Walks and services (R305, R309, R310) -/

/-- The walk ends: its page enters the die's cache, or a service starts; a marked page's walk waits (R313). -/
def State.walkDone (s : State) (w : Walk) : State :=
  if s.mem.marked w.job w.va then s
  else
    let s := s.onMem (fun m => { m with walks := m.walks.erase w })
    match s.translate w.job w.va with
    | (s, .ok size e) => s.fillCache ⟨w.die, w.job, pageOf size w.va, size, some e, false⟩
    | (s, .absent pte size e) => s.startService w.job w.die w.va pte size e
    | (s, .nomap) => s.fillCache ⟨w.die, w.job, pageOf 0 w.va, 0, none, false⟩
    | (s, .marked) => s
/-- PAGE_WALK: the `k`-th background walk completes. -/
def execPageWalk (k : Nat) (s : State) : Host.Outcome State Fault Refusal :=
  match s.mem.walks[k]? with
  | none => .next s
  | some w => .next (s.walkDone w)

/-- A service ends with a status of 05 R167: 0 OK, 2 NOMAP, 5 NOFRAME. Every PROBE and every requester that waits receives a
failure (R310). -/
def State.serviceEnds (s : State) (v : Service) (status : Nat) : State :=
  let s := s.onMem (fun m =>
    { m with services := m.services.filter (fun w => !(w.job = v.job && w.page = v.page)),
             served := m.served.filter (fun w => !(w.job = v.job && w.page = v.page)) ++
               (if status != 0 && !v.waiters.isEmpty then [⟨v.job, v.page, status, v.waiters⟩] else []) })
  let s := if status = 0 then s.startWalk v.die v.job v.page
  else { s with cores := s.cores.map (fun e =>
    match e.2.seq.probe with
    | some (a, none) => if e.2.job = some v.job && pageOf v.size a = v.page then
        (e.1, e.2.onSeq (fun q => { q with probe := some (a, some status) })) else e
    | _ => e) }
  s.hostGo.rdmaGo.schedGo.endGo
/-- What hardware service makes of the leaf that a walk finds now (R309). -/
def State.serviceGo (s : State) (v : Service) (j : Job) (r : WalkRes) : State :=
  match r with
  | .leaf pte size e =>
    if ptePres e then s.serviceEnds v 0
    else if !hwService s v.job size e then s.serviceEnds v 5
    else match s.serveHw j v.die pte e with
      | (s, true) => s.serviceEnds v 0
      | (s, false) => s.serviceEnds v 5
  | _ => s.serviceEnds v 2
/-- FAULT_SERVICE: the `k`-th service, where hardware serves it, ends (R309). -/
def execFaultService (k : Nat) (s : State) : Host.Outcome State Fault Refusal :=
  match s.mem.services[k]? with
  | none => .next s
  | some v =>
    if v.ev.isSome then .next s
    else match s.job v.job with
      | none => .next (s.serviceEnds v 2)
      | some j => .next (s.serviceGo v j (j.walk s.mem v.page))

/-! ### Migration (R311 to R313) -/

/-- A region that a die has used often, its leaf as a walk finds it: an event to the host, or the migration engine marks
the page and takes a frame on that die (R311 to R313). -/
def State.migStart (s : State) (j : Job) (job va die : Nat) (w : WalkRes) : State :=
  match w with
  | .leaf pte size e =>
    let p := ptePlace size e va
    let key := 4 * frameOf p.key + die
    if !ptePres e || j.migthresh = 0 || s.mem.acc.get 0 key < j.migthresh || 3 < die || die = p.die ||
        s.mem.marked job va then s
    else if s.dutyBit job 0 then
      (s.event 2 job [va % 2 ^ 57 / 65536 * 65536, die]).onMem (fun m => { m with acc := m.acc.set 0 key 0 })
    else if size != 0 || s.pinned (frameOf p.key) 1 then s
    else match s.takeFrame j die with
      | (s, none) => s
      | (s, some pb) =>
        s.onMem (fun m => { m with migs := m.migs ++
          [⟨job, va % 2 ^ 57 / 65536 * 65536, pte, p.die, ptePbase e, die, pb⟩] })
  | _ => s
/-- MIGRATION_THRESHOLD: a die's counter for the 64 KiB region of an address has reached MIGTHRESH: an event to the host, or
the page is marked for the move, its new frame taken (R312, R313). -/
def execMigrationThreshold (job va die : Nat) (s : State) : Host.Outcome State Fault Refusal :=
  match s.job job with
  | none => .next s
  | some j => .next (s.migStart j job va die (j.walk s.mem va))
/-- A marked page is marked no more. -/
def State.unmark (s : State) (g : Mig) : State := s.onMem (fun m => { m with migs := m.migs.erase g })
/-- The copy's bytes in its new frame, whose blocks are clean, and its leaf rewritten (R313). -/
def Mem.move (m : Mem) (job : Nat) (g : Mig) (old new : Nat) (l : List Byte) : Mem :=
  let e := m.rd64 g.pte
  let other := fun (x : Nat) => x / 4 != frameOf old && x / 4 != frameOf new
  let m := { m.clean new 65536 with hbm := m.hbm.setRange 0 new l, acc := m.acc.filter (fun x => other x.1),
                                    held := m.held.filter (fun x => other x.1) }
  (m.wr64 g.pte (servedLeaf e g.toDie g.toPb)).dropPage job g.page 65536
/-- The page is moved, once its old frame has been read; where a block of it was uncorrectable, it stays (R313, R317). -/
def State.moved (s : State) (job : Nat) (g : Mig) (old new : Nat) (bad : Bool) : State :=
  if bad then (s.onMem (fun m => { m with released := m.released ++ [⟨g.toDie, g.toPb, m.qseq, job⟩] })).unmark g
  else
    let l := if s.mem.discarded.get false (frameOf old) then zeros 65536 else s.mem.hbm.read 0 old 65536
    ((s.onMem (·.move job g old new l)).unmark g).quarantine job g.fromDie g.fromPb
/-- MIGRATION: every access to the old frame performed, the page is copied, its leaf rewritten and the old frame
quarantined; an uncorrectable block abandons the move (R313). -/
def execMigration (job va die : Nat) (s : State) : Host.Outcome State Fault Refusal :=
  match s.mem.migs.find? (fun g => g.job = job && g.page = va % 2 ^ 57 / 65536 * 65536 && g.toDie = die) with
  | none => .next s
  | some g =>
    let old := hbmKey g.fromDie (65536 * g.fromPb)
    if s.pinned (frameOf old) 1 then .next s
    else
      let r := s.ecc 8 0 (blocksOf old 65536)
      .next (r.1.moved job g old (hbmKey g.toDie (65536 * g.toPb)) r.2).hostGo.rdmaGo.schedGo.endGo

/-- ACCESS_COUNTER_HALVING: once in every 2^20 ticks (R311); the counter of a pinned page stays held at the threshold (R312). -/
def execAccessCounterHalving (s : State) : Host.Outcome State Fault Refusal :=
  let stays := fun (k : Nat) => s.mem.held.get false k && s.pinned (k / 4) 1
  if s.gtick / 2 ^ 20 ≤ s.mem.halved / 2 ^ 20 then .next s
  else .next (s.onMem (fun m =>
    { m with halved := s.gtick, held := m.held.filter (fun e => stays e.1),
             acc := (m.acc.map (fun e => (e.1, if stays e.1 then e.2 else e.2 / 2))).filter (fun e => e.2 != 0) }))

/-! ### Quiescence (R314) -/

/-- The births of the accesses in flight: of cores and their engines, walks, units' accesses that wait, and fabric stores that
are committing. -/
def State.births (s : State) : List Nat :=
  s.cores.flatMap (fun e => e.2.seq.loads.map (·.birth) ++ e.2.seq.stores.map (·.birth) ++
      (e.2.eng.holds.filter (·.started)).map (·.birth)) ++
    s.mem.walks.map (·.birth) ++ s.mem.services.flatMap (fun v => v.waiters.map (·.2)) ++
    (s.fab.holds.filter (fun h => h.off != 0)).map (·.birth)
def State.quiet (s : State) (stamp : Nat) : Bool :=
  let l := s.births
  if l.isEmpty then decide (stamp < s.mem.qseq) else l.all (fun b => decide (stamp < b))
/-- A quarantined frame is released: zeroed, then to its job's released list, or to the module's reserve. -/
def State.releaseFrame (s : State) (q : Quar) : State :=
  s.onMem (fun m =>
    let m := { m.zero (hbmKey q.die (65536 * q.pbase)) 65536 with quar := m.quar.erase q, discarded := m.discarded.set false (frameId q.die q.pbase) false }
    if (s.job q.job).isSome then { m with released := m.released ++ [q] }
    else { m with reserve := m.reserve ++ [(q.die, q.pbase)] })
/-- QSEQ_ADVANCE: QSEQ steps every 1,024 ticks, and the frames that no access in flight can reach are released. -/
def execQseqAdvance (s : State) : Host.Outcome State Fault Refusal :=
  let s := if s.gtick / 1024 ≤ s.mem.qdiv / 1024 then s
           else s.onMem (fun m => { m with qseq := m.qseq + (s.gtick / 1024 - m.qdiv / 1024), qdiv := s.gtick })
  .next ((s.mem.quar.filter (fun q => s.quiet q.stamp)).foldl (·.releaseFrame ·) s).hostGo

/-- PATROL_SCRUB: the scrubber reads the block at an address of a die (R317). -/
def execPatrolScrub (die addr : Nat) (s : State) : Host.Outcome State Fault Refusal :=
  if 3 < die || 0x240000 * 65536 ≤ addr then .next s
  else .next (s.eccBlock 10 0 (blockOf (hbmKey die addr))).1

end Sys2Proof.Machine
end

