-- ==== Sys2Proof/Machine/Hostif.lean ====
section
/-! DEFINITION. The host interface (19_host_boot_power.md R472 to R482, R521): control datagrams, replies to events and their
timeouts, housekeeping registers, boot, firmware images, attestation and power. -/
namespace Sys2Proof.Machine

/-! ### Boot and power (R475 to R479) -/

/-- The bytes of an XMSS-SHAKE256_20_256 signature, which ends an image; its first 8 bytes are its version (log 15). -/
def sigBytes : Nat := 2820
def imageVerifies (rollback : Nat) (l : List Byte) : Bool :=
  let n := l.length - sigBytes
  decide (sigBytes < l.length) && decide (rollback ≤ num l 0 8) && Config.xmssVerify (l.take n) (l.drop n)
/-- The firmware context (R478): it runs the image in flash, from an address that the image gives in a form which the specification
leaves open (R475; log 37). -/
def firmwareCore (s : State) : Core :=
  let entry := 4 * ((Config.freeValue 64 s.free).toNat % max 1 (s.host.flash.length / 4))
  { Core.empty with
    job := some fwJob, cgen := 1, seq := { Seqr.empty with phase := .run, pc := entry },
    ctx := { Ctx.fresh with duty := (s.host.hkduty).setWidth 64, ctxid := w64 (ownModule * 2 ^ 52 + fwJob * 2 ^ 32 + 2 ^ 15 + 1) } }
/-- The boot ROM begins: it agrees on the session key with the host, an open value (R472; log 5), and verifies (R475, R482). -/
def State.bootRom (s : State) : State :=
  { s with free := s.free + 1, host := { s.host with powered := true, session := (Config.freeValue 256 s.free).toNat, stage := 1 } }
/-- The boot ROM has measured the image in flash: it starts it, or awaits another (R475). -/
def State.boot (s : State) : State :=
  if imageVerifies s.host.rollback s.host.flash then
    { (s.setCore 128 (firmwareCore s)).onHost (fun h => { h with stage := 3 }) with free := s.free + 1 }
  else s.onHost (fun h => { h with stage := 2 })
/-- The boot ROM has verified a whole image that the host has sent: it is written to flash and the boot ROM begins anew; or it fails,
and is not written (R476). -/
def State.checkImage (s : State) (seq : Nat) : State :=
  let img := s.host.incoming.read 0 0 s.host.incomingLen
  let s := s.onHost (fun h => { h with incoming := [], incomingLen := 0, checking := none })
  if imageVerifies s.host.rollback img then (s.ackHost seq []).onHost (fun h => { h with flash := img, stage := 0 })
  else (s.onHost (fun h => { h with stage := if (s.core 128).job.isSome then 3 else 2 })).ackHost seq []
/-- What a power-off keeps: the flash, the fuses, and what the model holds of the world (R475, R477, R479). -/
def State.unpowered (s : State) : State :=
  { State.reset with
    inputs := s.inputs, free := s.free,
    host := { HostIf.reset with powered := false, flash := s.host.flash, rollback := s.host.rollback, sigs := s.host.sigs,
                                ethDown := s.host.ethDown, ethDown1 := s.host.ethDown1 } }
/-- POWER_ON: power comes, or is there and the boot ROM goes on: it begins, and then it has verified the image it has in hand (R475,
R476, R482). -/
def execPowerOn (s : State) : Host.Outcome State Fault Refusal :=
  .next (if !s.host.powered || s.host.stage = 0 then s.bootRom
    else if s.host.stage = 1 then (match s.host.checking with | some q => s.checkImage q | none => s.boot)
    else s)
/-- POWER_OFF: everything but the flash and the fuses is lost (R479). -/
def execPowerOff (s : State) : Host.Outcome State Fault Refusal := .next s.unpowered

/-- A part of a firmware image: bytes 0 to 3 its offset, bytes 4 to 7 its length, then the bytes (R476; log 15). A part of
length zero has the whole verified, and is acknowledged when that is done. -/
def State.imagePart (s : State) (l : List Byte) (seq : Nat) : State :=
  let off := num l 0 4
  let n := num l 4 4
  if n != 0 then
    (s.onHost (fun h =>
      { h with incoming := h.incoming.setRange 0 off (slice (l.drop 8) 0 n), incomingLen := max h.incomingLen (off + n) })).ackHost seq []
  else s.onHost (fun h => { h with stage := 1, checking := some seq })
/-- The attestation report: the nonce, the firmware's measurement and those of the live jobs, signed; empty once the
signatures are used up (R477; log 15). -/
def State.attestation (s : State) (nonce : List Byte) : State × List Byte :=
  if 2 ^ 20 ≤ s.host.sigs then (s, [])
  else
    let report := slice nonce 0 32 ++ leBytes 64 (Config.shake256 s.host.flash) ++ s.liveJobs.flatMap (fun j => leBytes 64 j.measure)
    (s.onHost (fun h => { h with sigs := h.sigs + 1 }), report ++ Config.xmssSign s.host.sigs report)

/-! ### Power, cooling and the protection limit (R479, R480; 18 R461, R464) -/

/-- The highest ceiling code whose projected power is within PCAP and whose projected junction is within 95 °C; none where not even
code 0 is (R480). A code that no sensor has projected yet is within them. -/
def HostIf.limit (h : HostIf) : Option Nat :=
  (List.range 37).reverse.find? (fun c => let e := h.proj.getD c (0, 0); decide (e.1 ≤ h.pcap) && decide (e.2 ≤ 95))
/-- A member drops alone: its own frequency follows its limit at once, which it announces where it has not (18 R464). -/
def State.dropAlone (s : State) : State :=
  let c := s.localCeil
  let r := match s.clk.own.pending with
    | some (p, u) => if p = c && c = s.clk.local_ then (s, u) else s.fall c
    | none => s.fall c
  (r.1.onClk (fun k => { k with lone := c, loneUntil := r.2 })).onHost (fun h => { h with throt := true })
/-- The protection limit as the last projection gives it, which must bite by tick `due`: a member drops alone where the lead is too
long and its frequency would be above the limit then, or where the limit cannot be met at all; else the change is announced (R480; 18
R461 to R464). -/
def State.limitGo (s : State) (due : Nat) : State :=
  let lim := s.host.limit
  let code := lim.getD 0
  let s := s.clkSettle.onClk (fun c => { c with prot := code })
  let soon := decide (due < s.gtick + lead) && decide (code < s.clk.ownCode (max due s.gtick))
  if s.clk.isMember && (soon || lim.isNone) then s.dropAlone
  else (if lim.isNone then s.onHost (fun h => { h with throt := true }) else s).localChange []
/-- PROTECTION_LIMIT_CHANGE: the sensors show something new (R479 to R481; 18 R464). Outside the limits of R479 the power goes
off. -/
def execProtectionLimitChange (r : Sensors) (due : Nat) (s : State) : Host.Outcome State Fault Refusal :=
  if r.input < 4200 || 5800 < r.input || 110 ≤ r.junction then .next s.unpowered
  else
    let s := s.onHost (fun h => { h with proj := r.proj, power := BitVec.ofNat 64 (r.input % 65536 * 65536 + r.power % 65536),
                                         temps := BitVec.ofNat 64 (r.junction % 256 * 65536 + r.outlet % 256 * 256 + r.inlet % 256) })
    clkDone (s.limitGo due)

/-! ### Housekeeping registers (R481, R482) -/

def HostIf.hkstat (h : HostIf) (outStep : Bool) : Nat :=
  16 * h.stage + (if h.throt then 8 else 0) + (if outStep then 4 else 0) + (if h.elogNew then 2 else 0)
/-- An error-log record (10 R520). -/
def ErrRec.bytes (r : ErrRec) : List Byte :=
  leBytes 8 r.tick ++ [b8 r.die, b8 r.reader] ++ leBytes 6 r.num ++ leBytes 8 r.addr ++ leBytes 8 r.ctxid.toNat
/-- The value of the register at an offset; an unlisted one reads as zero. -/
def State.hkRead (s : State) (a : Nat) : Nat :=
  if a % 8 != 0 then 0
  else if a = 0 then 0x6480 * 2 ^ 32 + Config.revision.toNat
  else if a = 0x08 then s.host.hkstat s.outStep
  else if a = 0x10 then s.host.power.toNat
  else if a = 0x18 then s.host.temps.toNat
  else if a = 0x20 then s.host.pcap
  else if a = 0x28 then s.clk.prot
  else if a = 0x30 then s.host.hkduty.toNat
  else if 0x100 ≤ a && a < 0x120 then (s.mem.cerr.get 0 ((a - 0x100) / 8)).toNat
  else if 0x1000 ≤ a && a < 0x2000 then
    (if a % 64 < 48 then (s.core (64 + (a - 0x1000) / 64)).ldq.get 0 (a % 64 / 8) else 0)
  else if 0x4000 ≤ a && a < 0x8000 then
    let d := (a - 0x4000) / 4096
    match s.mem.elog.find? (fun r => r.die = d && r.num % 128 = a % 4096 / 32) with
    | some r => num r.bytes (a % 32) 8
    | none => 0
  else 0
/-- The registers whose writes have a behaviour of their own. -/
inductive HkReg where
  | pcap
  | hkduty
  | cerr (die : Nat)
  | hkstat
  | other
  deriving DecidableEq, Repr
def hkReg (a : Nat) : HkReg :=
  if a = 0x20 then .pcap else if a = 0x30 then .hkduty else if a = 0x08 then .hkstat
  else if a = 0x100 || a = 0x108 || a = 0x110 || a = 0x118 then .cerr ((a - 0x100) / 8) else .other
def State.hkWrite (s : State) (a v : Nat) : State :=
  match hkReg a with
  | .pcap => (s.onHost (fun h => { h with pcap := max 1000 (min 4600 (v % 65536)) })).limitGo (s.gtick + 100000)
  | .hkduty =>
    let s := s.clkSettle.onHost (fun h => { h with hkduty := BitVec.ofNat 8 v })
    (s.onCtx 128 (fun x => { x with duty := BitVec.ofNat 64 (v % 256) })).localChange []
  | .cerr d => s.onMem (fun m => { m with cerr := m.cerr.set 0 d (m.cerr.get 0 d &&& ~~~(BitVec.ofNat _ v)) })
  | .hkstat => s.onHost (fun h => { h with throt := h.throt && !v.testBit 3, elogNew := h.elogNew && !v.testBit 1 })
  | .other => s

/-! ### Replies and timeouts (R474) -/

/-- What the reply to an event, or none in time, does. Replies carry their answer in byte 0, 0 for OK, EXTEND or retire; a
view or a list of pairs fills the payload (log 15). -/
def State.actReply (s : State) (w : Waiting) (reply : Option (List Byte)) : State :=
  let l := reply.getD []
  let yes := reply.isSome && num l 0 1 = 0
  match w.code with
  | 1 =>
    match s.mem.services.find? (fun v => v.ev = some w.num) with
    | none => s
    | some v =>
      if reply.isNone then
        (((s.onHost (fun h => { h with svcTimeouts := h.svcTimeouts + 1 })).event 21 w.job [v.page]).serviceEnds v 5)
      else s.serviceEnds v (if yes then 0 else if num l 0 1 = 1 then 2 else 5)
  | 3 => s.spillReply w.num ((List.range (min 64 (l.length / 8))).map (fun i => (num l (8 * i) 2, num l (8 * i + 4) 4)))
  | 4 => s.expiryReply w.num yes
  | 5 => s.missReply w.x w.num yes
  | 6 => s.retrainReply w.num (reply.map viewOf)
  | 7 => s.stampAcked w.job w.num
  | 8 => if reply.isSome then s.signalReply w.job w.x w.num yes else s
  | _ => s
/-- A REPLY that arrived at `tick`. -/
def State.hostReply (s : State) (d : Datagram) (tick : Nat) : State :=
  match s.host.waiting.find? (fun w => w.num = d.correl) with
  | none => s
  | some w =>
    if (match w.until_ with | some u => decide (u ≤ tick) | none => false) then s
    else (s.unask w.num).actReply w (some d.payload)
/-- HOST_REPLY_TIMEOUT: the first event whose time is over, unless its reply arrived in time and is still held. -/
def execHostReplyTimeout (s : State) : Host.Outcome State Fault Refusal :=
  let late := fun (w : Waiting) => match w.until_ with
    | some u => decide (u ≤ s.gtick) && !(s.host.held.any (fun h => h.1.ty = 0x0B && h.1.correl = w.num && decide (h.2 < u)))
    | none => false
  match s.host.waiting.find? late with
  | none => .next s
  | some w => .next ((s.unask w.num).actReply w none)

/-! ### Datagrams (R472, R473) -/

/-- The effect of a datagram that arrived at `tick`, and its acknowledgement. -/
def State.applyGram (s : State) (d : Datagram) (tick : Nat) : State :=
  match d.ty with
  | 0x01 => (s.launchImage d).ackHost d.seq []
  | 0x02 => s.endJob (d.job % 2 ^ 20) d.seq
  | 0x03 => s.invalidate d
  | 0x04 => (s.discardRange (d.job % 2 ^ 20) (num d.payload 0 8 % 2 ^ 57) (num d.payload 8 8)).ackHost d.seq []
  | 0x05 => (s.installKey d).ackHost d.seq []
  | 0x06 => (s.installRoutes d.payload).ackHost d.seq []
  | 0x07 => s.killCtx d
  | 0x08 => let r := s.startCtx d; r.1.ackHost d.seq (leBytes 8 r.2)
  | 0x09 => (s.hkWrite (num d.payload 0 8) (num d.payload 8 8)).ackHost d.seq []
  | 0x0A => s.ackHost d.seq (leBytes 8 (s.hkRead (num d.payload 0 8)))
  | 0x0B => (s.hostReply d tick).ackHost d.seq []
  | 0x0C => let r := s.attestation d.payload; r.1.ackHost d.seq r.2
  | 0x0D => s.imagePart d.payload d.seq
  | 0x0E => (s.onHost (fun h => { h with clockBusy := h.clockBusy ++ [d] })).clockGo
  | _ => s.sendHost (.badType d.seq)
/-- A datagram's header is as R472 lays it out, for this direction, and its tag verifies under the session key (R472). One with another
header is none of the module's, and dropped as one with a bad tag is (log 15). -/
def State.gramOk (s : State) (d : Datagram) : Bool :=
  d.magic = 0x5A57 && d.dir = 0 && decide (d.job < 2 ^ 20) && d.len = d.payload.length && decide (d.len ≤ 8192) && d.zero = 0 &&
    gramTag s.host.session d = d.tag
/-- The held datagrams that follow the last one applied. -/
def State.drainHeld (s : State) : Nat → State
  | 0 => s
  | n + 1 =>
    match s.host.held.find? (fun h => h.1.seq = s.host.seqNext) with
    | none => s
    | some h =>
      let s := s.onHost (fun x => { x with held := x.held.erase h, seqNext := (x.seqNext + 1) % 2 ^ 32 })
      (s.applyGram h.1 h.2).drainHeld n
/-- A datagram already applied is acknowledged again, as it was (R473). -/
def State.ackAgain (s : State) (seq : Nat) : State :=
  match s.host.out.reverse.find? (fun e => match e.2 with | .ack q _ => q = seq | .badType q => q = seq | _ => false) with
  | some e => s.sendHost e.2
  | none => s
/-- A datagram arrives: dropped, applied with those held after it, held, or acknowledged again. The boot ROM answers IMAGE
and REGRD alone (R475). -/
def State.receive (s : State) (d : Datagram) : State :=
  if !s.host.powered || !s.gramOk d || (s.host.stage != 3 && d.ty != 0x0D && d.ty != 0x0A) then s
  else
    let ahead := (d.seq + 2 ^ 32 - s.host.seqNext) % 2 ^ 32
    if ahead = 0 then
      ((s.onHost (fun h => { h with seqNext := (h.seqNext + 1) % 2 ^ 32 })).applyGram d s.gtick).drainHeld 64
    else if 2 ^ 31 ≤ ahead then s.ackAgain d.seq
    else if 64 ≤ s.host.held.length || s.host.held.any (fun h => h.1.seq = d.seq) then s
    else s.onHost (fun h => { h with held := h.held ++ [(d, s.gtick)] })
/-- A datagram of one TYPE arrives; of another, nothing happens. -/
def State.gram (s : State) (ty : Nat) (d : Datagram) : Host.Outcome State Fault Refusal :=
  .next (if d.ty = ty then s.receive d else s)
/-- A REGWR of one kind of register. -/
def State.regwrTo (s : State) (d : Datagram) (ok : HkReg → Bool) : Host.Outcome State Fault Refusal :=
  .next (if d.ty = 0x09 && ok (hkReg (num d.payload 0 8)) then s.receive d else s)

def execLaunch (d : Datagram) (s : State) : Host.Outcome State Fault Refusal := s.gram 0x01 d
def execJobend (d : Datagram) (s : State) : Host.Outcome State Fault Refusal := s.gram 0x02 d
def execInval (d : Datagram) (s : State) : Host.Outcome State Fault Refusal := s.gram 0x03 d
def execDiscard (d : Datagram) (s : State) : Host.Outcome State Fault Refusal := s.gram 0x04 d
def execKey (d : Datagram) (s : State) : Host.Outcome State Fault Refusal := s.gram 0x05 d
def execRoute (d : Datagram) (s : State) : Host.Outcome State Fault Refusal := s.gram 0x06 d
def execKill (d : Datagram) (s : State) : Host.Outcome State Fault Refusal := s.gram 0x07 d
def execStart (d : Datagram) (s : State) : Host.Outcome State Fault Refusal := s.gram 0x08 d
def execRegrd (d : Datagram) (s : State) : Host.Outcome State Fault Refusal := s.gram 0x0A d
def execRegwr (d : Datagram) (s : State) : Host.Outcome State Fault Refusal := s.regwrTo d (· = .other)
def execPcapWrite (d : Datagram) (s : State) : Host.Outcome State Fault Refusal := s.regwrTo d (· = .pcap)
def execHkdutyWrite (d : Datagram) (s : State) : Host.Outcome State Fault Refusal := s.regwrTo d (· = .hkduty)
def execCerrWrite (d : Datagram) (s : State) : Host.Outcome State Fault Refusal :=
  s.regwrTo d (fun r => match r with | .cerr _ => true | _ => false)
def execHkstatWrite (d : Datagram) (s : State) : Host.Outcome State Fault Refusal := s.regwrTo d (· = .hkstat)
def execReply (d : Datagram) (s : State) : Host.Outcome State Fault Refusal := s.gram 0x0B d
def execAttest (d : Datagram) (s : State) : Host.Outcome State Fault Refusal := s.gram 0x0C d
def execImage (d : Datagram) (s : State) : Host.Outcome State Fault Refusal := s.gram 0x0D d
def execClock (d : Datagram) (s : State) : Host.Outcome State Fault Refusal := s.gram 0x0E d
/-- DATAGRAM_REORDER: a datagram of any TYPE, known or not, arrives in or out of order. -/
def execDatagramReorder (d : Datagram) (s : State) : Host.Outcome State Fault Refusal := .next (s.receive d)

end Sys2Proof.Machine
end

