-- ==== Sys2Proof/Machine/Tasks.lean ====
section
/-! DEFINITION. A core between tasks: TASK_COMPLETE, TASK_HANDOFF, TIMED_BLOCK_LAUNCH (04_scalar_control_instructions.md
R146, R147; 12_task_scheduler.md R351, R356), and COP_REPLY_LAND (03_bundle_encoding.md R109). -/
namespace Sys2Proof.Machine

/-! ### The task's end and the next task (04 R146, 12 R351, R356) -/

/-- TASK_COMPLETE: TEND's waits over, the task is reported and the core goes on at DISPRET. -/
def execTaskComplete (c : Nat) (s : State) : Host.Outcome State Fault Refusal :=
  let k := s.core c
  if k.seq.phase != .ending || k.seq.opened || !k.enginesDone || !k.repliesIn || !k.writesDone then .next s
  else if k.seq.fatal.isSome then .next (s.toFatal c)
  else match k.seq.task with
    | none => .next s
    | some t =>
      let s := if k.overruns then s.logKind 2 else s
      let s := (s.taskEnds c t).endRequest c
      .next (s.onCore c (fun k => (k.endBlock.clearPipes).onSeq (fun q =>
        { q with phase := .run, task := none, pc := k.ctx.dispret.toNat % 2 ^ 57, rep := 0, resume := 0, leaf := none,
                 xfer := none, loopSkip := none, stall := none, idleCycles := 0 })))

/-- The first item a waiting core is entitled to goes to it, where no lower core takes it. -/
def State.handoff (s : State) (c : Nat) : State :=
  if !(s.core c).offered then s
  else match s.firstItem c with
    | none => s
    | some x =>
      if !s.lowest c x then s
      else match x.work with
        | .saved i => s.restoreTry c i
        | _ => s.handOver c x
/-- TASK_HANDOFF: the slice hands a waiting core its first item. -/
def execTaskHandoff (c : Nat) (s : State) : Host.Outcome State Fault Refusal := .next (s.handoff c)
/-- TIMED_BLOCK_LAUNCH: the first item is a timed-block node at or past its launch tick. -/
def execTimedBlockLaunch (c job node : Nat) (s : State) : Host.Outcome State Fault Refusal :=
  match s.firstItem c with
  | some x =>
    .next (if s.jobOf c = some job && x.work = .node node 0 && ((s.job job).map (fun j => (j.tcbAt node).kind)) = some 2 then s.handoff c else s)
  | none => .next s

/-! ### COP replies (03 R109) -/

/-- COP_REPLY_LAND: the units that wait for a page go on where they can; then the answer to the core's `i`-th outstanding
command lands, if it has arrived. -/
def execCopReplyLand (c i : Nat) (s : State) : Host.Outcome State Fault Refusal :=
  let s := s.combGo s.comb.waiting.length
  let s := s.winGo s.fab.waiting.length
  let s := [0, 1, 2, 3].foldl (fun s d => s.textRun d) s
  .next (s.landReply c i)

end Sys2Proof.Machine
end

