-- ==== Sys2Proof/Machine/Seq.lean ====
section
/-! DEFINITION. The sequencer's two events, and what the model does when no input tells it what happens next (log 1). -/
namespace Sys2Proof.Machine

/-- BUNDLE_ISSUE (03 R88, R89): one cycle of a core's sequencer. -/
def execBundleIssue (c : Nat) (s : State) : Host.Outcome State Fault Refusal := .next (s.beginIssue c)
/-- LOCKSTEP_RESULT_LAND (03 R90): the end of the issue cycle under way. -/
def execLockstepResultLand (c : Nat) (s : State) : Host.Outcome State Fault Refusal := .next (s.endIssue c)


/-- The event that a core in a phase of waiting goes on with, once its wait is over. -/
def Core.phaseEvent (k : Core) (c : Nat) : Option Instr :=
  let calm := k.drained && k.seq.stores.isEmpty
  let done := k.enginesDone && k.seq.cops.all (fun x => x.dst = 0)
  match k.seq.phase with
  | .trapDrain => if k.drained then some (.trapEntry c) else none
  | .saveDrain => if calm then some (.forcedSave c) else none
  | .fatal => if calm then some (.fatalContextError c) else none
  | .yielding => if calm && k.enginesDone then some (.cooperativeSave c) else none
  | .trapRet => if done then some (.trapReturn c) else none
  | .ending => if done && k.writesDone then some (.taskComplete c) else none
  | .off => none
  | .run => none
  | .replay => none

def offer (b : Bool) (i : Instr) : List Instr := if b then [i] else []
/-- The lowest free save slot of the job whose task runs on the core, where the task can be asked to give way (12 R362). -/
def State.freeSlot (s : State) (c : Nat) : Option Nat :=
  let k := s.core c
  match k.seq.task, (s.jobOf c).bind s.job with
  | some t, some j => if t.cls = 0 || k.seq.slot.isSome then none else (List.range j.saveslots).find? (fun n => !j.slots.contains n)
  | _, _ => none
/-- What may happen around a core that waits: its memory answers, its engines go on, the slice hands it work. -/
def State.aroundCore (s : State) (c : Nat) : List Instr :=
  let k := s.core c
  offer (!k.seq.stores.isEmpty) (.storePerformed c 0) ++
  offer (!k.seq.loads.isEmpty) (.loadLand c 0) ++
  ((List.range k.seq.cops.length).map (fun i => .copReplyLand c i)) ++
  ([0, 1, 2].flatMap (fun q => offer (k.eng.queue.any (fun d => d.q = q)) (.commandStart c q))) ++
  (k.eng.fly.zipIdx.flatMap (fun d =>
    let i := ((k.eng.fly.take d.2).filter (fun e => e.q = d.1.q)).length
    if d.1.isM then [.mrunPanelReady c 32, .commandRetire c 0 i]
    else
      ((List.range d.1.prog0).find? (fun g => !d.1.done.contains g)).toList.map (fun g => .copyGranuleComplete c d.1.q i g) ++
      [.commandRetire c d.1.q i])) ++
  offer (k.ctx.ras.length < 16 && k.ctx.ras.length < k.ctx.depth) (.rasRefill c) ++
  offer k.seq.waiting (.taskHandoff c) ++
  offer (s.fab.iface.any (fun h => h.core = c)) (.fabricPayloadRead c 0) ++
  offer (s.fab.iface.any (fun h => h.core = c && h.sent.isSome)) (.fredLaunchTick c) ++
  offer (k.seq.preempt = some 0) (.deadlineExpiry c) ++
  (s.freeSlot c).toList.map (fun n => .preemptionRequest c n)
/-- What the module's units may do by themselves. -/
def State.aroundModule (s : State) : List Instr :=
  offer (!s.mem.walks.isEmpty) (.pageWalk 0) ++
  offer (!s.mem.services.isEmpty) (.faultService 0) ++
  (s.mem.migs.map (fun g => .migration g.job g.page g.toDie)) ++
  (s.liveJobs.flatMap (fun j =>
    (j.tcb.filter (fun e => e.2.isNode)).flatMap (fun e =>
      let x := j.nodeAt e.1
      offer (x.state = 2) (.nodeRetire j.num e.1) ++
      offer (x.state = 1 && decide (4 ≤ e.2.kind) && decide (e.2.kind ≤ 6)) (.branchNodeDecide j.num e.1) ++
      offer (x.state = 1 && e.2.kind = 7) (.hostSignalNode j.num e.1)) ++
    offer (!j.stamps.isEmpty) .faultStampSpread ++ offer (s.jobDone j) .jobComplete ++ offer (j.duty.getLsbD 2) (.spillRequest j.num))) ++
  offer (!s.vat.vats.isEmpty) .firingDecision ++ offer (s.vat.spilling || !s.vat.orders.isEmpty) .vatSpillStep ++
  ((s.vat.vats.filter (fun e => !e.2.spill.isEmpty)).map (fun e => .vatRefill e.1)) ++
  offer (!s.vat.parts.isEmpty) .remoteEnqueue ++ offer (!s.vat.parts.isEmpty) .remotePut ++
  ((s.text.filter (fun e => e.2.miss.isSome)).map (fun e => .tableMiss e.1)) ++
  (if s.fab.holds.isEmpty then [] else
    [.holdRelease, .holdDropVoid, .holdExpiry] ++ (List.range s.fab.holds.length).map (fun k => .packetCommit k)) ++
  (if s.fab.unacked.isEmpty then [] else [.retransmitTimeout, .packetAbandon]) ++
  offer (!s.fab.queries.isEmpty) .queryResend ++ offer (!s.fab.abandons.isEmpty) .abandonNoticeResend ++
  (if s.fab.origins.isEmpty then [] else [.originSlotExpiry, .watermarkSlotFree]) ++
  offer (!s.fab.settled.isEmpty) .settledCacheExpiry ++ offer (!s.fab.dests.isEmpty) .streamIdleExpiry ++
  offer (s.fab.windows.any (fun e => e.2.state = 1)) .windowTimeout ++
  offer (!s.host.waiting.isEmpty) .hostReplyTimeout ++ offer s.clk.isMember .ceilingEffective ++
  [.wmwaitExpiry, .qseqAdvance]

/-- The cores that hold a context whose sequencer goes on. -/
def State.live (s : State) : List Nat := (s.cores.filter (fun e => e.2.seq.phase != .off)).map (·.1)
/-- What the core in hand does next when no input says (log 1): a core whose wait is over goes on; every other turn of a
core that waits, and every eighth of one that issues, is one of the events around it, in turn. -/
def State.idle (s : State) : Instr :=
  let c := s.cur
  let k := s.core c
  let t := s.turns / max 1 s.live.length
  let n := if k.seq.stall.isSome || k.seq.phase != .run then 2 else 8
  if t % n = 1 && !k.seq.opened then
    let l := s.aroundCore c ++ s.aroundModule
    l.getD (t / n % l.length) (.bundleIssue c)
  else (k.phaseEvent c).getD (.bundleIssue c)

/-- A tick passes, and the next core that holds a context, after the one in hand, has the next turn. -/
def State.turn (s : State) : State :=
  { s.passed 1 with turns := s.turns + 1, cur := ((s.live.find? (fun c => decide (s.cur < c))).or s.live.head?).getD s.cur }

/-- Core 0 set to run the bundle whose bytes are given, at its program counter (log 2). -/
def State.placeBundle (s : State) (bytes : List Byte) : State :=
  let k := s.core 0
  let j := k.job.getD 0
  let b := (s.job j).getD (Job.blank j)
  let pc := k.seq.pc
  let b := { b with code := [(pc, 64)], bytes := b.bytes.putBytes pc bytes }
  let k := { k with job := some j,
                    seq := { k.seq with phase := .run, rep := 0, resume := 0, leaf := none, xfer := none, loopSkip := none, trap := none,
                                        split := none, opened := false, fatal := none, preempt := none, stall := none } }
  { (s.setJob b).setCore 0 k with
    host := { s.host with powered := true, stage := 3 }, inputs := [], agenda := [], cur := 0, turns := 0 }

end Sys2Proof.Machine
end

