-- ==== Sys2Proof/Machine/Dispatch.lean ====
section
/-! DEFINITION. The meaning of each instruction, by name. -/
namespace Sys2Proof.Machine

def exec (i : Instr) (s : State) : Host.Outcome State Fault Refusal :=
  match i with
  | .bundleIssue c => Sys2Proof.Machine.execBundleIssue c s
  | .lockstepResultLand c => Sys2Proof.Machine.execLockstepResultLand c s
  | .loadLand c k => Sys2Proof.Machine.execLoadLand c k s
  | .copReplyLand c k => Sys2Proof.Machine.execCopReplyLand c k s
  | .commandStart c q => Sys2Proof.Machine.execCommandStart c q s
  | .commandRetire c q k => Sys2Proof.Machine.execCommandRetire c q k s
  | .mrunPanelReady c n => Sys2Proof.Machine.execMrunPanelReady c n s
  | .copyGranuleComplete c q k g => Sys2Proof.Machine.execCopyGranuleComplete c q k g s
  | .rasRefill c => Sys2Proof.Machine.execRasRefill c s
  | .trapEntry c => Sys2Proof.Machine.execTrapEntry c s
  | .trapReturn c => Sys2Proof.Machine.execTrapReturn c s
  | .preemptionRequest c slot => Sys2Proof.Machine.execPreemptionRequest c slot s
  | .deadlineExpiry c => Sys2Proof.Machine.execDeadlineExpiry c s
  | .forcedSave c => Sys2Proof.Machine.execForcedSave c s
  | .cooperativeSave c => Sys2Proof.Machine.execCooperativeSave c s
  | .restore c k => Sys2Proof.Machine.execRestore c k s
  | .hangWatchdogExpiry c => Sys2Proof.Machine.execHangWatchdogExpiry c s
  | .fatalContextError c => Sys2Proof.Machine.execFatalContextError c s
  | .taskComplete c => Sys2Proof.Machine.execTaskComplete c s
  | .taskHandoff c => Sys2Proof.Machine.execTaskHandoff c s
  | .timedBlockLaunch c job node => Sys2Proof.Machine.execTimedBlockLaunch c job node s
  | .nodeRetire job node => Sys2Proof.Machine.execNodeRetire job node s
  | .branchNodeDecide job node => Sys2Proof.Machine.execBranchNodeDecide job node s
  | .hostSignalNode job node => Sys2Proof.Machine.execHostSignalNode job node s
  | .faultStampSpread => Sys2Proof.Machine.execFaultStampSpread s
  | .jobComplete => Sys2Proof.Machine.execJobComplete s
  | .pageWalk k => Sys2Proof.Machine.execPageWalk k s
  | .faultService k => Sys2Proof.Machine.execFaultService k s
  | .hostReplyTimeout => Sys2Proof.Machine.execHostReplyTimeout s
  | .migration job va die => Sys2Proof.Machine.execMigration job va die s
  | .migrationThreshold job va die => Sys2Proof.Machine.execMigrationThreshold job va die s
  | .accessCounterHalving => Sys2Proof.Machine.execAccessCounterHalving s
  | .qseqAdvance => Sys2Proof.Machine.execQseqAdvance s
  | .patrolScrub die addr => Sys2Proof.Machine.execPatrolScrub die addr s
  | .firingDecision => Sys2Proof.Machine.execFiringDecision s
  | .vatSpillStep => Sys2Proof.Machine.execVatSpillStep s
  | .vatRefill v => Sys2Proof.Machine.execVatRefill v s
  | .spillRequest v => Sys2Proof.Machine.execSpillRequest v s
  | .remoteEnqueue => Sys2Proof.Machine.execRemoteEnqueue s
  | .remotePut => Sys2Proof.Machine.execRemotePut s
  | .packetAccept port p => Sys2Proof.Machine.execPacketAccept port p s
  | .packetCommit k => Sys2Proof.Machine.execPacketCommit k s
  | .packetForward port p => Sys2Proof.Machine.execPacketForward port p s
  | .holdRelease => Sys2Proof.Machine.execHoldRelease s
  | .holdDropVoid => Sys2Proof.Machine.execHoldDropVoid s
  | .windowTimeout => Sys2Proof.Machine.execWindowTimeout s
  | .ack p => Sys2Proof.Machine.execAck p s
  | .nack p => Sys2Proof.Machine.execNack p s
  | .landed p => Sys2Proof.Machine.execLanded p s
  | .query p => Sys2Proof.Machine.execQuery p s
  | .release p => Sys2Proof.Machine.execRelease p s
  | .notice p => Sys2Proof.Machine.execNotice p s
  | .retransmitTimeout => Sys2Proof.Machine.execRetransmitTimeout s
  | .packetAbandon => Sys2Proof.Machine.execPacketAbandon s
  | .holdExpiry => Sys2Proof.Machine.execHoldExpiry s
  | .originSlotExpiry => Sys2Proof.Machine.execOriginSlotExpiry s
  | .watermarkSlotFree => Sys2Proof.Machine.execWatermarkSlotFree s
  | .queryResend => Sys2Proof.Machine.execQueryResend s
  | .settledCacheExpiry => Sys2Proof.Machine.execSettledCacheExpiry s
  | .fecUncorrectable port => Sys2Proof.Machine.execFecUncorrectable port s
  | .trainingRecord port r => Sys2Proof.Machine.execTrainingRecord port r s
  | .retrainTimer => Sys2Proof.Machine.execRetrainTimer s
  | .sync m => Sys2Proof.Machine.execSync m s
  | .ceil m => Sys2Proof.Machine.execCeil m s
  | .raise m => Sys2Proof.Machine.execRaise m s
  | .confirm m => Sys2Proof.Machine.execConfirm m s
  | .join m => Sys2Proof.Machine.execJoin m s
  | .admitted m => Sys2Proof.Machine.execAdmit m s
  | .leave m => Sys2Proof.Machine.execLeave m s
  | .silent m => Sys2Proof.Machine.execSilent m s
  | .evict m => Sys2Proof.Machine.execEvict m s
  | .heartbeatTimer => Sys2Proof.Machine.execHeartbeatTimer s
  | .silenceTimeout => Sys2Proof.Machine.execSilenceTimeout s
  | .evictionTimeout => Sys2Proof.Machine.execEvictionTimeout s
  | .confirmationRetry => Sys2Proof.Machine.execConfirmationRetry s
  | .joinTimeout => Sys2Proof.Machine.execJoinTimeout s
  | .ceilingEffective => Sys2Proof.Machine.execCeilingEffective s
  | .protectionLimitChange r due => Sys2Proof.Machine.execProtectionLimitChange r due s
  | .powerOn => Sys2Proof.Machine.execPowerOn s
  | .powerOff => Sys2Proof.Machine.execPowerOff s
  | .launch d => Sys2Proof.Machine.execLaunch d s
  | .jobend d => Sys2Proof.Machine.execJobend d s
  | .inval d => Sys2Proof.Machine.execInval d s
  | .discard d => Sys2Proof.Machine.execDiscard d s
  | .key d => Sys2Proof.Machine.execKey d s
  | .route d => Sys2Proof.Machine.execRoute d s
  | .kill d => Sys2Proof.Machine.execKill d s
  | .start d => Sys2Proof.Machine.execStart d s
  | .regrd d => Sys2Proof.Machine.execRegrd d s
  | .regwr d => Sys2Proof.Machine.execRegwr d s
  | .pcapWrite d => Sys2Proof.Machine.execPcapWrite d s
  | .hkdutyWrite d => Sys2Proof.Machine.execHkdutyWrite d s
  | .cerrWrite d => Sys2Proof.Machine.execCerrWrite d s
  | .hkstatWrite d => Sys2Proof.Machine.execHkstatWrite d s
  | .reply d => Sys2Proof.Machine.execReply d s
  | .attest d => Sys2Proof.Machine.execAttest d s
  | .image d => Sys2Proof.Machine.execImage d s
  | .clock d => Sys2Proof.Machine.execClock d s
  | .datagramReorder d => Sys2Proof.Machine.execDatagramReorder d s
  | .rdmaWrite key va data => Sys2Proof.Machine.execRdmaWrite key va data s
  | .rdmaRead key va n => Sys2Proof.Machine.execRdmaRead key va n s
  | .tableMiss unit => Sys2Proof.Machine.execTableMiss unit s
  | .add f => Sys2Proof.Machine.execAdd f s
  | .sub f => Sys2Proof.Machine.execSub f s
  | .and f => Sys2Proof.Machine.execAnd f s
  | .or f => Sys2Proof.Machine.execOr f s
  | .xor f => Sys2Proof.Machine.execXor f s
  | .andn f => Sys2Proof.Machine.execAndn f s
  | .shl f => Sys2Proof.Machine.execShl f s
  | .shr f => Sys2Proof.Machine.execShr f s
  | .sar f => Sys2Proof.Machine.execSar f s
  | .rol f => Sys2Proof.Machine.execRol f s
  | .mul f => Sys2Proof.Machine.execMul f s
  | .mulh f => Sys2Proof.Machine.execMulh f s
  | .mulhu f => Sys2Proof.Machine.execMulhu f s
  | .div f => Sys2Proof.Machine.execDiv f s
  | .divu f => Sys2Proof.Machine.execDivu f s
  | .rem f => Sys2Proof.Machine.execRem f s
  | .remu f => Sys2Proof.Machine.execRemu f s
  | .min f => Sys2Proof.Machine.execMin f s
  | .max f => Sys2Proof.Machine.execMax f s
  | .minu f => Sys2Proof.Machine.execMinu f s
  | .maxu f => Sys2Proof.Machine.execMaxu f s
  | .clz f => Sys2Proof.Machine.execClz f s
  | .ctz f => Sys2Proof.Machine.execCtz f s
  | .popc f => Sys2Proof.Machine.execPopc f s
  | .sext f => Sys2Proof.Machine.execSext f s
  | .zext f => Sys2Proof.Machine.execZext f s
  | .sel f => Sys2Proof.Machine.execSel f s
  | .addi f => Sys2Proof.Machine.execAddi f s
  | .andi f => Sys2Proof.Machine.execAndi f s
  | .ori f => Sys2Proof.Machine.execOri f s
  | .xori f => Sys2Proof.Machine.execXori f s
  | .shli f => Sys2Proof.Machine.execShli f s
  | .shri f => Sys2Proof.Machine.execShri f s
  | .sari f => Sys2Proof.Machine.execSari f s
  | .ldi f => Sys2Proof.Machine.execLdi f s
  | .ldih f => Sys2Proof.Machine.execLdih f s
  | .cmpi f => Sys2Proof.Machine.execCmpi f s
  | .cmp f => Sys2Proof.Machine.execCmp f s
  | .pand f => Sys2Proof.Machine.execPand f s
  | .por f => Sys2Proof.Machine.execPor f s
  | .pxor f => Sys2Proof.Machine.execPxor f s
  | .pnot f => Sys2Proof.Machine.execPnot f s
  | .pset f => Sys2Proof.Machine.execPset f s
  | .pinv f => Sys2Proof.Machine.execPinv f s
  | .jmpr f => Sys2Proof.Machine.execJmpr f s
  | .call f => Sys2Proof.Machine.execCall f s
  | .callr f => Sys2Proof.Machine.execCallr f s
  | .ret f => Sys2Proof.Machine.execRet f s
  | .loop f => Sys2Proof.Machine.execLoop f s
  | .loopx f => Sys2Proof.Machine.execLoopx f s
  | .trap f => Sys2Proof.Machine.execTrap f s
  | .yield f => Sys2Proof.Machine.execYield f s
  | .tend f => Sys2Proof.Machine.execTend f s
  | .waittask f => Sys2Proof.Machine.execWaittask f s
  | .gets f => Sys2Proof.Machine.execGets f s
  | .sets f => Sys2Proof.Machine.execSets f s
  | .blend f => Sys2Proof.Machine.execBlend f s
  | .tmirror f => Sys2Proof.Machine.execTmirror f s
  | .portcfg f => Sys2Proof.Machine.execPortcfg f s
  | .ringcfg f => Sys2Proof.Machine.execRingcfg f s
  | .ld f => Sys2Proof.Machine.execLd f s
  | .st f => Sys2Proof.Machine.execSt f s
  | .lds f => Sys2Proof.Machine.execLds f s
  | .sts f => Sys2Proof.Machine.execSts f s
  | .atom f => Sys2Proof.Machine.execAtom f s
  | .fence f => Sys2Proof.Machine.execFence f s
  | .trn f => Sys2Proof.Machine.execTrn f s
  | .hrel f => Sys2Proof.Machine.execHrel f s
  | .hinfo f => Sys2Proof.Machine.execHinfo f s
  | .probe f => Sys2Proof.Machine.execProbe f s
  | .rand f => Sys2Proof.Machine.execRand f s
  | .semsig f => Sys2Proof.Machine.execSemsig f s
  | .semwait f => Sys2Proof.Machine.execSemwait f s
  | .semset f => Sys2Proof.Machine.execSemset f s
  | .taskq f => Sys2Proof.Machine.execTaskq f s
  | .tclaim f => Sys2Proof.Machine.execTclaim f s
  | .twait f => Sys2Proof.Machine.execTwait f s
  | .block f => Sys2Proof.Machine.execBlock f s
  | .fst f => Sys2Proof.Machine.execFst f s
  | .fatom f => Sys2Proof.Machine.execFatom f s
  | .fred f => Sys2Proof.Machine.execFred f s
  | .wmwait f => Sys2Proof.Machine.execWmwait f s
  | .wmtest f => Sys2Proof.Machine.execWmtest f s
  | .vadd f => Sys2Proof.Machine.execVadd f s
  | .vsub f => Sys2Proof.Machine.execVsub f s
  | .vmul f => Sys2Proof.Machine.execVmul f s
  | .vfma f => Sys2Proof.Machine.execVfma f s
  | .vfms f => Sys2Proof.Machine.execVfms f s
  | .vmax f => Sys2Proof.Machine.execVmax f s
  | .vmin f => Sys2Proof.Machine.execVmin f s
  | .vabs f => Sys2Proof.Machine.execVabs f s
  | .vneg f => Sys2Proof.Machine.execVneg f s
  | .vrcp f => Sys2Proof.Machine.execVrcp f s
  | .vrsq f => Sys2Proof.Machine.execVrsq f s
  | .vexp2 f => Sys2Proof.Machine.execVexp2 f s
  | .vlog2 f => Sys2Proof.Machine.execVlog2 f s
  | .vand f => Sys2Proof.Machine.execVand f s
  | .vor f => Sys2Proof.Machine.execVor f s
  | .vxor f => Sys2Proof.Machine.execVxor f s
  | .vshl f => Sys2Proof.Machine.execVshl f s
  | .vshr f => Sys2Proof.Machine.execVshr f s
  | .vsar f => Sys2Proof.Machine.execVsar f s
  | .vcmp f => Sys2Proof.Machine.execVcmp f s
  | .vsel f => Sys2Proof.Machine.execVsel f s
  | .vtest f => Sys2Proof.Machine.execVtest f s
  | .vcvt f => Sys2Proof.Machine.execVcvt f s
  | .vqmx f => Sys2Proof.Machine.execVqmx f s
  | .vdqmx f => Sys2Proof.Machine.execVdqmx f s
  | .vpack f => Sys2Proof.Machine.execVpack f s
  | .vunpack f => Sys2Proof.Machine.execVunpack f s
  | .vrsum f => Sys2Proof.Machine.execVrsum f s
  | .vrmax f => Sys2Proof.Machine.execVrmax f s
  | .vrmin f => Sys2Proof.Machine.execVrmin f s
  | .vargmax f => Sys2Proof.Machine.execVargmax f s
  | .vscan f => Sys2Proof.Machine.execVscan f s
  | .vbcast f => Sys2Proof.Machine.execVbcast f s
  | .vshuf f => Sys2Proof.Machine.execVshuf f s
  | .vrot f => Sys2Proof.Machine.execVrot f s
  | .vcompress f => Sys2Proof.Machine.execVcompress f s
  | .vmov f => Sys2Proof.Machine.execVmov f s
  | .vrand f => Sys2Proof.Machine.execVrand f s
  | .mmould f => Sys2Proof.Machine.execMmould f s
  | .mflow f => Sys2Proof.Machine.execMflow f s
  | .minit f => Sys2Proof.Machine.execMinit f s
  | .mrun f => Sys2Proof.Machine.execMrun f s
  | .mruns f => Sys2Proof.Machine.execMruns f s
  | .mdrain f => Sys2Proof.Machine.execMdrain f s
  | .msave f => Sys2Proof.Machine.execMsave f s
  | .mrest f => Sys2Proof.Machine.execMrest f s
  | .mpop f => Sys2Proof.Machine.execMpop f s
  | .mwait f => Sys2Proof.Machine.execMwait f s
  | .cpy f => Sys2Proof.Machine.execCpy f s
  | .cpyt f => Sys2Proof.Machine.execCpyt f s
  | .cgath f => Sys2Proof.Machine.execCgath f s
  | .cscat f => Sys2Proof.Machine.execCscat f s
  | .cbind f => Sys2Proof.Machine.execCbind f s
  | .cring f => Sys2Proof.Machine.execCring f s
  | .cbcast f => Sys2Proof.Machine.execCbcast f s
  | .cfill f => Sys2Proof.Machine.execCfill f s
  | .carm f => Sys2Proof.Machine.execCarm f s
  | .cwait f => Sys2Proof.Machine.execCwait f s
  | .vtcfg f => Sys2Proof.Machine.execVtcfg f s
  | .vtenq f => Sys2Proof.Machine.execVtenq f s
  | .vtfire f => Sys2Proof.Machine.execVtfire f s
  | .vtstat f => Sys2Proof.Machine.execVtstat f s
  | .vtclose f => Sys2Proof.Machine.execVtclose f s
  | .cbset f => Sys2Proof.Machine.execCbset f s
  | .cbput f => Sys2Proof.Machine.execCbput f s
  | .cbstat f => Sys2Proof.Machine.execCbstat f s
  | .txnorm f => Sys2Proof.Machine.execTxnorm f s
  | .txenc f => Sys2Proof.Machine.execTxenc f s
  | .txdec f => Sys2Proof.Machine.execTxdec f s
  | .grload f => Sys2Proof.Machine.execGrload f s
  | .gradv f => Sys2Proof.Machine.execGradv f s
  | .grmask f => Sys2Proof.Machine.execGrmask f s
  | .grstat f => Sys2Proof.Machine.execGrstat f s
  | .stopset f => Sys2Proof.Machine.execStopset f s
  | .stopchk f => Sys2Proof.Machine.execStopchk f s
  | .cljoin f => Sys2Proof.Machine.execCljoin f s
  | .clleave f => Sys2Proof.Machine.execClleave f s
  | .clstat f => Sys2Proof.Machine.execClstat f s
  | .clceil f => Sys2Proof.Machine.execClceil f s
  | .fwin f => Sys2Proof.Machine.execFwin f s
  | .fwstat f => Sys2Proof.Machine.execFwstat f s
  | .fwclose f => Sys2Proof.Machine.execFwclose f s
  | .storePerformed c k => Sys2Proof.Machine.execStorePerformed c k s
  | .wmwaitExpiry => Sys2Proof.Machine.execWmwaitExpiry s
  | .fabricPayloadRead c k => Sys2Proof.Machine.execFabricPayloadRead c k s
  | .fredLaunchTick c => Sys2Proof.Machine.execFredLaunchTick c s
  | .abandonNoticeResend => Sys2Proof.Machine.execAbandonNoticeResend s
  | .streamIdleExpiry => Sys2Proof.Machine.execStreamIdleExpiry s
  | .linkDown port => Sys2Proof.Machine.execLinkDown port s
  | .outOfStepTimeout => Sys2Proof.Machine.execOutOfStepTimeout s
  | .ethernetLinkChange port up => Sys2Proof.Machine.execEthernetLinkChange port up s

end Sys2Proof.Machine
end

