-- ==== Sys2Proof/Machine/Step.lean ====
section
/-! DEFINITION. One step of the machine (log 1): the next unit of the issue under way; else the next input, its ticks
first; else what the core in hand does by itself. -/
namespace Sys2Proof.Machine

/-- The first unit of the issue that a step of a core has begun, in the same step. -/
def firstUnit (r : Host.Outcome State Fault Refusal) : Host.Outcome State Fault Refusal :=
  match r with
  | .next s =>
    match s.agenda with
    | x :: rest => exec x.2 { s with agenda := rest, unit := x.1 }
    | [] => .next s
  | .fault r => .fault r
  | .refused r => .refused r

def step (s : State) : Host.Outcome State Fault Refusal :=
  match s.agenda with
  | x :: rest => exec x.2 { s with agenda := rest, unit := x.1 }
  | [] =>
    match s.inputs with
    | x :: rest => exec x.what { s.passed x.dt with inputs := rest }
    | [] =>
      if !s.host.powered then .fault .poweredOff
      else if s.host.stage < 2 then exec .powerOn s
      else firstUnit (exec s.idle s.turn)

/-- The bundle whose bits are `w`, its bytes in ascending order from bit 0, stored where core 0 fetches next. -/
def State.withFetchWord (s : State) (nbits w : Nat) : State := s.placeBundle (leBytes 60 (w % 2 ^ nbits))

end Sys2Proof.Machine
end

