-- ==== Sys2Proof/Safety.lean ====
section
/-! DEFINITION. The terms in which claims are stated: the memory invariant, runs, and what an instruction does to the core
of the unit in hand when that unit commits. -/
namespace Sys2Proof

/-- The memory invariant that every step keeps. -/
def Inv (s : Machine.State) : Prop := Machine.Memory.wf s

/-- A step answers a next state. -/
def StepsTo (s t : Machine.State) : Prop := Machine.step s = .next t

/-- The states reached from `s` by steps that answer a next state. -/
inductive Reaches (s : Machine.State) : Machine.State → Prop where
  | refl : Reaches s s
  | step {t u : Machine.State} : Reaches s t → StepsTo t u → Reaches s u

namespace Machine

/-- The core of the unit in hand, and its registers. -/
abbrev State.self (s : State) : Core := s.core s.unit.core
abbrev State.regs (s : State) : Ctx := s.self.ctx
/-- Nothing keeps the unit in hand from committing: no earlier unit of its issue has raised a fatal cause or a trap
(09 R275 to R277). -/
def State.clear (s : State) : Prop := s.self.seq.fatal = none ∧ s.self.seq.trap = none

/-- `s` after one more result is in flight on the core in hand, visible at the end of the `l`-th issue cycle (03 R90). -/
def State.schedule (s : State) (l : Nat) (e : LandEff) : State :=
  s.onSeq s.unit.core (fun q => { q with pend := q.pend ++ [⟨l, q.issue, s.unit.unit, e⟩] })
/-- A scalar result of `l` cycles for the word's register, latch and, where given, predicate (04 R126). -/
def State.returns (s : State) (f : SF) (l : Nat) (v : Word) (p : Option (Nat × Bool) := none) : State :=
  s.schedule l (.scalar (sDst f) (some s.unit.sLatch) v p)
/-- A predicate result of one cycle, which the pipe's latch holds too (04 R126, R134). -/
def State.decides (s : State) (p : Nat) (v : Bool) : State := s.schedule 1 (.pred p v (some s.unit.sLatch))
/-- A fatal cause of the unit in hand, which is noted beside it, with the tick of its detection (09 R275, R294, R518). -/
def State.failed (s : State) (cause : Nat) (detail : Nat := 0) : State :=
  s.onCore s.unit.core (fun k => (k.onSeq (fun q =>
    { q with fatal := some ⟨cause, s.unit.slot, detail, s.unit.bundle⟩, fatalUnit := s.unit.unit })).noteFatal s.gtick)
/-- A restartable trap of the unit in hand (09 R276). -/
def State.trapped (s : State) (t : Trap) : State := s.onSeq s.unit.core (fun q => { q with trap := some t })

/-- Nothing outside the core in hand differs. -/
def State.onlyCore (s t : State) : Prop :=
  (∀ c, c ≠ s.unit.core → t.core c = s.core c) ∧ t.mem = s.mem ∧ t.sched = s.sched ∧ t.semC = s.semC ∧
  t.semOwner = s.semOwner ∧ t.fab = s.fab ∧ t.vat = s.vat ∧ t.comb = s.comb ∧ t.text = s.text ∧ t.clk = s.clk ∧
  t.host = s.host ∧ t.gtick = s.gtick ∧ t.inputs = s.inputs ∧ t.agenda = s.agenda
/-- What stays when only the sequencer of the core in hand moves: every register of every core, the scratchpads, the engines
and all of the module outside that core's sequencer. -/
def State.onlySeq (s t : State) : Prop :=
  s.onlyCore t ∧ t.self.ctx = s.self.ctx ∧ t.self.eng = s.self.eng ∧ t.self.job = s.self.job ∧ t.self.cgen = s.self.cgen ∧
  t.self.ldq = s.self.ldq
/-- A vector operation may commit: nothing keeps its unit from it, no word of the SRAM pools holds an error, its sources can
be read and its destination written (06 R186, R187; 01 R20, R28, R29). `ws` are the element widths of its sources. -/
def State.vectorReady (s : State) (f : VF) (w : Nat) (ws : Nat × Nat × Nat) : Prop :=
  s.clear ∧ s.mem.sramBad = [] ∧ s.mem.sramSoft = [] ∧
  ((s.self.srcs s.unit f ws.1 ws.2.1 ws.2.2).k.vwrite s.unit f 1 w 0).seq.fatal = none ∧
  ((s.self.srcs s.unit f ws.1 ws.2.1 ws.2.2).k.vwrite s.unit f 1 w 0).seq.trap = none
/-- `s` after its vector operation has read its sources and sent the row on its way, to be visible after `l` cycles, with its
flags; a pipe that draws keeps its capture (06 R187, R191; 02 R66; 09 R517). -/
def State.vectorDone (s : State) (f : VF) (l w : Nat) (ws : Nat × Nat × Nat) (r : Row) (fl : Flags) : State :=
  s.onCore s.unit.core (fun k =>
    (((k.srcs s.unit f ws.1 ws.2.1 ws.2.2).k.vwrite s.unit f l w r).raiseFlags s.unit.unit fl.bits).keepDraw s.unit)
/-- What a vector operation with the row `r` and the flags `fl` does: it commits, or, where one of its flags is enabled in
FPCTL.TEN, it traps with cause 0x21 and the flags alone are raised (02 R66, R67). -/
def State.vectorResult (s : State) (i : Instr) (f : VF) (l w : Nat) (ws : Nat × Nat × Nat) (r : Row) (fl : Flags) : Prop :=
  (fl.enabled s.regs.ten = false → exec i s = .next (s.vectorDone f l w ws r fl)) ∧
  (fl.enabled s.regs.ten = true → ∃ t, exec i s = .next t ∧ s.onlySeq t ∧
    t.self.seq.trap = some ⟨0x21, s.unit.unit, fl.bits.setWidth 64, BitVec.ofNat 64 s.unit.unit⟩)
/-- Nothing differs. -/
def State.unchanged (s t : State) : Prop := (∀ c, t.core c = s.core c) ∧ s.onlyCore t
/-- The condition of a compare of 04 R133, for the codes 0 to 7. -/
def conditionHolds (cc : Nat) (a b : Word) : Prop :=
  match cc with
  | 0 => a.toNat = b.toNat
  | 1 => a.toNat ≠ b.toNat
  | 2 => a.toInt < b.toInt
  | 3 => b.toInt ≤ a.toInt
  | 4 => a.toNat < b.toNat
  | 5 => b.toNat ≤ a.toNat
  | 6 => ∃ i < 64, a.getLsbD i = true ∧ b.getLsbD i = true
  | _ => ∀ i < 64, ¬(a.getLsbD i = true ∧ b.getLsbD i = true)
/-- No outstanding COP command of the core in hand has the number of the next one. -/
def State.freshCops (s : State) : Prop := ∀ x ∈ s.self.seq.cops, x.id ≠ s.self.seq.copNext
/-- The COP command in hand is outstanding with the answer `v`, or with none yet; without a reply register an answered one is
finished (08 R248; 03 R109). The core's registers are as before. -/
def State.asks (s t : State) (f : CF) (v : Option Word) : Prop :=
  t.self.ctx = s.regs ∧ t.self.seq.copNext = s.self.seq.copNext + 1 ∧ t.self.seq.pend = s.self.seq.pend ∧
  t.self.seq.cops = s.self.seq.cops ++
    (if f.dst = 0 ∧ v.isSome then [] else [⟨s.self.seq.copNext, f.dst.toNat, s.unit.sLatch, v, [], 0, 0, none, writeKey s.self.seq.issue s.unit.unit⟩])
def State.answers (s t : State) (f : CF) (v : Word) : Prop := s.asks t f (some v)
/-- The COP command of the word in hand, and the state in which it has just become outstanding (08 R248). -/
def State.copCmd (s : State) (f : CF) (op : Instr) : UnitCmd :=
  { core := s.unit.core, id := s.self.seq.copNext, job := s.self.job.getD fwJob, op := op, a := s.regs.src f.sa, b := s.regs.src f.sb,
    data := [], banks := s.regs.bank, rows := s.regs.rows }
def State.copSent (s : State) (f : CF) : State :=
  s.onSeq s.unit.core (fun q =>
    { q with copNext := q.copNext + 1, cops := q.cops ++ [⟨q.copNext, f.dst.toNat, s.unit.sLatch, none, [], 0, 0, none,
      writeKey q.issue s.unit.unit⟩] })
/-- What the text unit of the core's die finds as it takes up the command of the word in hand. -/
def State.textSent (s : State) (f : CF) (op : Instr) : State :=
  (s.copSent f).onText (dieOf s.unit.core) (fun u => { u with queue := u.queue ++ [s.copCmd f op] })
/-- No block of HBM holds an error and no frame is discarded. -/
def State.cleanHbm (s : State) : Prop := s.mem.poison = [] ∧ s.mem.soft = [] ∧ s.mem.bad = [] ∧ s.mem.discarded = []
/-- Nothing waits for a page: no invalidation, no acknowledgement of a kill, no RDMA access, no write of the scheduler's, no end of
a job. -/
def State.noneWait (s : State) : Prop := s.mem.invals = [] ∧ s.host.dues = [] ∧ s.host.rdma = [] ∧ s.sched.writes = [] ∧
  ∀ j ∈ s.sched.jobs.filterMap (·.2), j.ending = []
/-- The spilled records of a vat stand in entries of the spill region of which no block is uncorrectable (14 R381). -/
def State.spillSound (s : State) (x : Vat) : Prop :=
  x.spill.length ≤ x.ent.length ∧ ∀ e ∈ x.ent, s.mem.uncorrectable (entryBlock e) = false
/-- The host was sent one more message, by the port in use. -/
def State.tells (s t : State) (m : HostMsg) : Prop := t.host.out = s.host.out ++ [(s.host.port, m)]
/-- No byte of memory differs. -/
def State.sameMem (s t : State) : Prop := ∀ a, t.mem.hbm.get 0 a = s.mem.hbm.get 0 a
/-- No round of the module's own can end or begin: the open one lacks a CONFIRM or waits for a ceiling of its own, and what waits
for a round finds one open or a ceiling pending (18 R462, R463). -/
def Clock.atRest (c : Clock) : Bool :=
  (match c.round with
    | some r => !(c.allConfirmed r && (r.kind = 1 || c.own.pending.isNone))
    | none => true) &&
  (c.rise.isNone || !c.calm) &&
  !(c.calm && c.members.any (fun e => e.2.evictBy = some ownModule && e.2.goneAt.isNone)) &&
  (c.leaving.isNone || c.round.isSome || c.own.leaveAt.isSome)
/-- Nothing of the clock unit stands at a tick that has come, its rounds are at rest, its member table is in canonical form, no
member of it is marked as evicted, no CLOCK datagram waits, and each VC2 flit stands in the buffer of its own port (17 R428;
18 R460). -/
def State.settled (s : State) : Prop :=
  (s.clk.members.map (fun e => (e.1, e.2.settle s.gtick))).filter (fun e => e.2 != Member.empty) = s.clk.members ∧
  (s.clk.isMember = true → s.clk.atRest = true) ∧ s.clk.members.wf Member.empty ∧
  (∀ e ∈ s.clk.members, e.2.present = true → e.2.evictBy = none) ∧ s.host.clockBusy = [] ∧
  (∀ e ∈ s.fab.links, ∀ m ∈ e.2.col, m.port = e.1)
/-- The VC2 flits handed to a port so far, oldest first: those it has sent, then those that wait in it for the link or for credits
(17 R428). -/
def State.given (s : State) (p : Nat) : List ColMsg := s.clk.out.filter (fun m => m.port = p) ++ (s.linkAt p).col
/-- A flit of this module by one port, sealed under the group key (18 R457). -/
def State.sealed (s : State) (k p : Nat) (m : ColMsg) : ColMsg :=
  let m := { m with port := p, ctr := s.fab.ctr.get 0 128 + 1 }
  { m with tag := Config.noticeTag k (colSealed m) }
/-- What a notice of this module leaves at a port: the notice, where its link is up (18 R457, R458); `n` is the member count. -/
def State.flooded (s : State) (k n ty code subj tick p : Nat) : List ColMsg :=
  if (s.linkAt p).up then
    [s.sealed k p { colZero with ty := ty, code := code, subj := subj, tick := tick, seq := s.clk.seqNext, count := n }]
  else []
/-- What a module sends on of a notice of another, by a port (18 R458). -/
def State.forwarded (s : State) (m : ColMsg) (p : Nat) : List ColMsg :=
  if 16 ≤ m.hops + 1 ∨ p = m.port ∨ (s.linkAt p).up = false then [] else [{ m with port := p, hops := m.hops + 1 }]
/-- Each of the 16 ports has been given these VC2 flits more. -/
def State.gives (s t : State) (l : Nat → List ColMsg) : Prop := ∀ p < 16, t.given p = s.given p ++ l p
/-- Only the module's clock unit, the counter of its sealed flits, the ports' buffers and what the module has sent differ. -/
def State.onlyClock (s t : State) : Prop :=
  t.cores = s.cores ∧ t.mem = s.mem ∧ t.sched = s.sched ∧ t.vat = s.vat ∧ t.comb = s.comb ∧ t.text = s.text ∧ t.gtick = s.gtick ∧
  t.fab.keys = s.fab.keys ∧ t.fab.groupKey = s.fab.groupKey ∧ t.fab.route = s.fab.route ∧ t.fab.origins = s.fab.origins ∧
  t.fab.windows = s.fab.windows ∧ t.fab.holds = s.fab.holds
/-- A packet of this module as it leaves: its unit's next CTR and the tag under its key (17 R430). -/
def State.stamped (s : State) (p : Packet) : Packet :=
  let p := { p with ctr := s.fab.ctr.get 0 p.unit + 1 }
  { p with tag := match s.fab.keyOf p with | some k => Config.packetTag k (pktAad p) p.payload | none => 0 }
/-- One packet goes to its destination's port: it leaves by a link that runs, holds no other packet back and has the credits
for all its flits, which are spent; it waits in the port's buffer while the link is down (17 R427, R428, R454). -/
def State.routed (s t : State) (p : Packet) : Prop :=
  let port := (s.fab.route.get 0 p.dest).toNat % 16
  let l := s.linkAt port
  let v := Packet.vc p.ty
  (s.fab.route.get 0 p.dest).getLsbD 7 = true →
    (l.up = true → l.buffer = [] → l.col = [] → v = 0 ∨ v = 1 ∨ v = 3 → Packet.flits p ≤ l.credit.get 0 v →
      t.fab.out = s.fab.out ++ [(port, p)] ∧ (t.linkAt port).buffer = [] ∧
      (t.linkAt port).credit.get 0 v = l.credit.get 0 v - Packet.flits p) ∧
    (l.up = false → t.fab.out = s.fab.out ∧ (t.linkAt port).buffer = l.buffer ++ [p])
/-- This module sends one packet: to its own interface, or on its way (17 R427, R430). -/
def State.sends (s t : State) (p : Packet) : Prop :=
  (p.dest = ownModule → t.inputs = s.inputs ++ [⟨0, deliverOwn (s.stamped p)⟩] ∧ t.fab.out = s.fab.out) ∧
  (p.dest ≠ ownModule → s.routed t (s.stamped p) ∧ t.inputs = s.inputs)
/-- A context that still holds its core and has not ended ends with a cause of no slot (09 R518). -/
def State.endsContext (s t : State) (c : Nat) (g : BitVec 8) (job cause detail : Nat) : Prop :=
  (s.core c).job = some job → (s.core c).cgen = g → (s.core c).seq.phase ≠ .off → (s.core c).seq.fatal = none →
    (s.core c).seq.opened = false → (t.core c).seq.fatal = some ⟨cause, 6, detail, 0⟩ ∧ (t.core c).ctx = (s.core c).ctx
/-- No core's registers differ. -/
def State.sameRegs (s t : State) : Prop := ∀ c, (t.core c).ctx = (s.core c).ctx
/-- A datagram that verifies and is the next in order, none being held (19 R472, R473). -/
def State.inTurn (s : State) (d : Datagram) : Prop :=
  s.host.powered = true ∧ s.gramOk d = true ∧ d.seq = s.host.seqNext ∧ d.seq < 2 ^ 32 ∧ s.host.held = []
/-- It has been taken: its acknowledgement is the last message sent, and the next number is awaited. -/
def State.acked (s t : State) (d : Datagram) (payload : List Byte) : Prop :=
  (∃ l, t.host.out = s.host.out ++ l ++ [(s.host.port, .ack d.seq payload)]) ∧ t.host.seqNext = (s.host.seqNext + 1) % 2 ^ 32
/-- The module with one more datagram number used. -/
def State.counted (s : State) : State := s.onHost (fun h => { h with seqNext := (h.seqNext + 1) % 2 ^ 32 })
/-- The byte of memory that the translation cache of a die has for an address of a job (10 R305; 01 R32). -/
def State.cachedAt (s : State) (die job va : Nat) : Option Nat :=
  (s.mem.lookup die job (va % 2 ^ 57)).bind (fun t => t.leaf.map (fun e => (ptePlace t.size e (va % 2 ^ 57)).key))
/-- A span of a job's memory can be written at once: the die's cache holds its pages, writable, each byte has a place of its own in
which a write has effect, no page of it is being moved, no code section meets it, and no entry of a cache is struck by an error. -/
def State.writableSpan (s : State) (die job va n : Nat) : Prop :=
  va + n ≤ 2 ^ 57 ∧ (∀ x ∈ s.mem.tcache, x.bad = false) ∧ (∀ j, s.job job = some j → j.codeMeets va n = false) ∧
  (∀ i < n, s.mem.marked job (va + i) = false ∧ ∃ t e, s.mem.lookup die job (va + i) = some t ∧ t.leaf = some e ∧ pteWr e = true ∧
    s.mem.inert (ptePlace t.size e (va + i)).key = false) ∧
  ∀ i < n, ∀ k < n, s.cachedAt die job (va + i) = s.cachedAt die job (va + k) → i = k
/-- What memory holds for a job at `n` bytes from an address, by the cache of a die in `s`, as a number. -/
def State.shows (s t : State) (die job va n : Nat) : Nat :=
  ofLe ((List.range n).map (fun i => match s.cachedAt die job (va + i) with | some k => t.mem.hbm.get 0 k | none => 0))
/-- The nodes that a stamp of node `n` reaches: its successors, and theirs, through nodes that are not done (12 R363). -/
inductive Job.StampReaches (j : Job) (n : Nat) : Nat → Prop where
  | first {m : Nat} : m ∈ (j.tcbAt n).succ → m ≠ n → (j.tcbAt m).isNode = true → (j.nodeAt m).state < 3 → StampReaches j n m
  | next {a m : Nat} : StampReaches j n a → m ∈ (j.tcbAt a).succ → m ≠ n → (j.tcbAt m).isNode = true → (j.nodeAt m).state < 3 →
      StampReaches j n m
/-- What the pair merging of a word gives (16 R418): among the adjacent pairs that have a merge, of rank and result `find`, that of
the lowest rank is made, the leftmost on a tie, until none is left. -/
inductive MergesTo (find : Nat → Nat → Option (Nat × Nat)) : List Nat → List Nat → Prop where
  | done {l : List Nat} : (∀ j x y, l[j]? = some x → l[j + 1]? = some y → find x y = none) → MergesTo find l l
  | merge {l r : List Nat} {j x y rank res : Nat} : l[j]? = some x → l[j + 1]? = some y → find x y = some (rank, res) →
      (∀ i x' y' rank' res', l[i]? = some x' → l[i + 1]? = some y' → find x' y' = some (rank', res') →
        rank < rank' ∨ rank = rank' ∧ j ≤ i) →
      MergesTo find (l.take j ++ res :: l.drop (j + 2)) r → MergesTo find l r
/-- Core `c` has a fresh context of job `n` at an entry (12 R344; 01 R17). -/
def State.begins (s t : State) (c n : Nat) (w : Word) : Prop :=
  (t.core c).job = some n ∧ (t.core c).seq.phase = .run ∧ (t.core c).seq.pc = startEntry w ∧ (t.core c).cgen = (s.core c).cgen + 1 ∧
  (∀ r, (t.core c).ctx.reg r = 0) ∧ (∀ p < 16, (t.core c).ctx.pv p = decide (p = 0) ∧ (t.core c).ctx.pw p = true) ∧
  (t.core c).ctx.ras = []

end Machine
end Sys2Proof
end

