-- ==== Sys2Proof/Certificates/Slice0/Obligations.lean ====
section
/-! DEFINITION. What the model is claimed to do, for the provers: each statement formalises rules of spec/, cited in its
docstring. A statement about every state holds of states that no run reaches as well. -/
section
open Sys2Proof Sys2Proof.Machine

/-! ### Scalar results (04_scalar_control_instructions.md R126 to R134) -/

/-- ADD, SUB, AND, OR, XOR and ANDN complete wherever nothing keeps their unit from committing: the result of R128,
modulo 2^64, is in flight for sd and the pipe's latch with L = 1 (R126, R127). The shifts by a register and by an
immediate (R128, R131): only bits [5:0] of the amount count; SAR and SARI divide the signed value, rounding down; ROL
brings the bits shifted out back in. MUL, MULH and MULHU: the low half of the product, the high half of the signed and
of the unsigned product, with L = 3 (R127, R128). -/
def Obligations.ArithmeticAndLogicResults : Prop :=
  (
  ∀ (f : SF) (s : State), s.clear →
    let a := s.regs.src f.sa
    let b := s.regs.src f.sb
    exec (.add f) s = .next (s.returns f 1 (BitVec.ofNat 64 (a.toNat + b.toNat))) ∧
    exec (.sub f) s = .next (s.returns f 1 (BitVec.ofInt 64 ((a.toNat : Int) - b.toNat))) ∧
    (∃ v, exec (.and f) s = .next (s.returns f 1 v) ∧ ∀ i < 64, v.getLsbD i = (a.getLsbD i && b.getLsbD i)) ∧
    (∃ v, exec (.or f) s = .next (s.returns f 1 v) ∧ ∀ i < 64, v.getLsbD i = (a.getLsbD i || b.getLsbD i)) ∧
    (∃ v, exec (.xor f) s = .next (s.returns f 1 v) ∧ ∀ i < 64, v.getLsbD i = (a.getLsbD i != b.getLsbD i)) ∧
    (∃ v, exec (.andn f) s = .next (s.returns f 1 v) ∧ ∀ i < 64, v.getLsbD i = (a.getLsbD i && !b.getLsbD i))) ∧
  (
  ∀ (f : SF) (s : State), s.clear →
    let a := s.regs.src f.sa
    let n := (s.regs.src f.sb).toNat % 64
    let m := f.imm.toNat % 64
    exec (.shl f) s = .next (s.returns f 1 (BitVec.ofNat 64 (a.toNat * 2 ^ n))) ∧
    exec (.shr f) s = .next (s.returns f 1 (BitVec.ofNat 64 (a.toNat / 2 ^ n))) ∧
    exec (.sar f) s = .next (s.returns f 1 (BitVec.ofInt 64 (a.toInt / 2 ^ n))) ∧
    exec (.rol f) s = .next (s.returns f 1 (BitVec.ofNat 64 (a.toNat * 2 ^ n + a.toNat / 2 ^ (64 - n)))) ∧
    exec (.shli f) s = .next (s.returns f 1 (BitVec.ofNat 64 (a.toNat * 2 ^ m))) ∧
    exec (.shri f) s = .next (s.returns f 1 (BitVec.ofNat 64 (a.toNat / 2 ^ m))) ∧
    exec (.sari f) s = .next (s.returns f 1 (BitVec.ofInt 64 (a.toInt / 2 ^ m)))) ∧
  (
  ∀ (f : SF) (s : State), s.clear →
    let a := s.regs.src f.sa
    let b := s.regs.src f.sb
    exec (.mul f) s = .next (s.returns f 3 (BitVec.ofNat 64 (a.toNat * b.toNat))) ∧
    exec (.mulh f) s = .next (s.returns f 3 (BitVec.ofInt 64 (a.toInt * b.toInt / 2 ^ 64))) ∧
    exec (.mulhu f) s = .next (s.returns f 3 (BitVec.ofNat 64 (a.toNat * b.toNat / 2 ^ 64))))

/-- DIV, REM, DIVU and REMU with every corner case of R129, with L = 24 (R127). MIN, MAX, MINU, MAXU, CLZ, CTZ and POPC
(R128). -/
def Obligations.QuotientsExtremesAndBitCounts : Prop :=
  (
  ∀ (f : SF) (s : State), s.clear →
    let a := s.regs.src f.sa
    let b := s.regs.src f.sb
    ∃ q r qu ru : Word,
      exec (.div f) s = .next (s.returns f 24 q) ∧ exec (.rem f) s = .next (s.returns f 24 r) ∧
      exec (.divu f) s = .next (s.returns f 24 qu) ∧ exec (.remu f) s = .next (s.returns f 24 ru) ∧
      (b = 0 → q = 0xFFFFFFFFFFFFFFFF#64 ∧ r = a ∧ qu = 0xFFFFFFFFFFFFFFFF#64 ∧ ru = a) ∧
      (b ≠ 0 → qu.toNat = a.toNat / b.toNat ∧ ru.toNat = a.toNat % b.toNat) ∧
      (a.toInt = -2 ^ 63 → b.toInt = -1 → q.toInt = -2 ^ 63 ∧ r = 0) ∧
      (b ≠ 0 → ¬(a.toInt = -2 ^ 63 ∧ b.toInt = -1) →
        q.toInt = a.toInt.tdiv b.toInt ∧ r.toInt = a.toInt.tmod b.toInt ∧ a.toInt = q.toInt * b.toInt + r.toInt)) ∧
  (
  ∀ (f : SF) (s : State), s.clear →
    let a := s.regs.src f.sa
    let b := s.regs.src f.sb
    exec (.min f) s = .next (s.returns f 1 (BitVec.ofInt 64 (min a.toInt b.toInt))) ∧
    exec (.max f) s = .next (s.returns f 1 (BitVec.ofInt 64 (max a.toInt b.toInt))) ∧
    exec (.minu f) s = .next (s.returns f 1 (BitVec.ofNat 64 (min a.toNat b.toNat))) ∧
    exec (.maxu f) s = .next (s.returns f 1 (BitVec.ofNat 64 (max a.toNat b.toNat))) ∧
    (∃ n ≤ 64, exec (.clz f) s = .next (s.returns f 1 (BitVec.ofNat 64 n)) ∧
      (∀ i < n, a.getLsbD (63 - i) = false) ∧ (n < 64 → a.getLsbD (63 - n) = true)) ∧
    (∃ n ≤ 64, exec (.ctz f) s = .next (s.returns f 1 (BitVec.ofNat 64 n)) ∧
      (∀ i < n, a.getLsbD i = false) ∧ (n < 64 → a.getLsbD n = true)) ∧
    exec (.popc f) s = .next (s.returns f 1 (BitVec.ofNat 64 (((List.range 64).filter (fun i => a.getLsbD i)).length))))

/-- SEXT and ZEXT of the three widths, SEL on V xor negate whatever the W bit (R130), and the immediate forms ADDI,
ANDI, ORI, XORI, LDI and LDIH with their immediates (R131). CMP and CMPI decide their condition (R132, R133), and PAND,
POR, PXOR, PNOT and PSET their logic on the sources' values, whatever their W bits; PINV has no result but clears the
slot's W (R134). -/
def Obligations.ExtensionsSelectionsAndCompares : Prop :=
  (
  ∀ (f : SF) (s : State), s.clear →
    let a := s.regs.src f.sa
    let imm := f.imm.signExtend 64
    let long := f.sb.extractLsb' 0 3 ++ f.imm
    (∀ w, (f.imm.toNat % 4, w) ∈ [(0, 8), (1, 16), (2, 32)] →
      exec (.sext f) s = .next (s.returns f 1 (BitVec.ofInt 64 ((a.toNat : Int).bmod (2 ^ w)))) ∧
      exec (.zext f) s = .next (s.returns f 1 (BitVec.ofNat 64 (a.toNat % 2 ^ w)))) ∧
    exec (.sel f) s = .next (s.returns f 1
      (if s.regs.pv (f.imm.toNat % 16) != f.imm.getLsbD 4 then a else s.regs.src f.sb)) ∧
    exec (.addi f) s = .next (s.returns f 1 (BitVec.ofInt 64 (a.toInt + imm.toInt))) ∧
    (∃ v, exec (.andi f) s = .next (s.returns f 1 v) ∧ ∀ i < 64, v.getLsbD i = (a.getLsbD i && imm.getLsbD i)) ∧
    (∃ v, exec (.ori f) s = .next (s.returns f 1 v) ∧ ∀ i < 64, v.getLsbD i = (a.getLsbD i || imm.getLsbD i)) ∧
    (∃ v, exec (.xori f) s = .next (s.returns f 1 v) ∧ ∀ i < 64, v.getLsbD i = (a.getLsbD i != imm.getLsbD i)) ∧
    exec (.ldi f) s = .next (s.returns f 1 (BitVec.ofInt 64 long.toInt)) ∧
    exec (.ldih f) s = .next (s.returns f 1 (BitVec.ofNat 64 (long.toNat * 2 ^ 32 + a.toNat % 2 ^ 32)))) ∧
  (
  ∀ (f : SF) (s : State), s.clear →
    let a := s.regs.src f.sa
    let cc := f.imm.toNat / 16 % 16
    let pd := f.imm.toNat / 1024 % 16
    let pa := s.regs.pv (f.imm.toNat / 32 % 16) != f.imm.getLsbD 9
    let pb := s.regs.pv (f.imm.toNat % 16) != f.imm.getLsbD 4
    (∃ v, exec (.cmp f) s = .next (s.decides (f.imm.toNat % 16) v) ∧
      (cc < 8 → (v = true ↔ conditionHolds cc a (s.regs.src f.sb)))) ∧
    (∃ v, exec (.cmpi f) s = .next (s.decides (f.imm.toNat % 16) v) ∧
      (cc < 8 → (v = true ↔ conditionHolds cc a (BitVec.ofInt 64 (f.imm.toInt / 256))))) ∧
    exec (.pand f) s = .next (s.decides pd (pa && pb)) ∧
    exec (.por f) s = .next (s.decides pd (pa || pb)) ∧
    exec (.pxor f) s = .next (s.decides pd (pa != pb)) ∧
    exec (.pnot f) s = .next (s.decides pd (!pa)) ∧
    exec (.pset f) s = .next (s.decides pd (f.imm.getLsbD 0)) ∧
    exec (.pinv f) s = .next (s.schedule 1 (.pinv pd)))

/-! ### What lands, and what stays (03_bundle_encoding.md R90; 01_machine_state.md R15, R16) -/

/-- A scalar result becomes visible in its register, unless that is s0, which reads zero, and in its latch, and a
predicate result sets V and W of its slot, unless that is p0, which reads true; every other register, latch and slot
keeps its value (01 R15, R16; 03 R90; 04 R126, R134). What the other kinds of result do as they land: a row in its tile
register and in the mirror partner's (01 R18, R21), scratchpad bytes, the flags of a unit, a SETS of each special
register with its hard-wired, reserved and write-one-to-clear bits, FPCTL's with an RM of 5 to 7 stored as 0 (01 R36,
R37, R40; 04 R148), a bank binding (01 R20), a port, a ring, and the new count of a semaphore, the core's own or its
cluster's, or the overflow fault, cause 0x11, that leaves the count (01 R33). -/
def Obligations.EffectsLand : Prop :=
  (
  ∀ (s : State) (c l i u : Nat) (dst latch : Option Nat) (v : Word) (pred : Option (Nat × Bool)),
    let k := (s.core c).ctx
    let t := s.landOne c ⟨l, i, u, .scalar dst latch v pred⟩
    let x := (t.core c).ctx
    x.reg 0 = 0 ∧ x.pv 0 = true ∧ x.pw 0 = true ∧
    (∀ r, r ≠ 0 → x.reg r = if dst = some r then v else k.reg r) ∧
    (∀ b, x.latchS.get 0 b = if latch = some b then v else k.latchS.get 0 b) ∧
    (∀ n, n ≠ 0 → n < 16 → x.pv n = (match pred with | some (m, b) => if m = n then b else k.pv n | none => k.pv n) ∧
      x.pw n = (match pred with | some (m, _) => m = n || k.pw n | none => k.pw n)) ∧
    x.tile = k.tile ∧ x.spad = k.spad ∧ x.acc = k.acc ∧ x.sw = k.sw ∧ x.sem = k.sem ∧ t.mem = s.mem ∧
    (∀ d, d ≠ c → t.core d = s.core d) ∧
    (∀ m b, let y := ((s.landOne c ⟨l, i, u, .pred m b latch⟩).core c).ctx
      (∀ n, n ≠ 0 → n < 16 → y.pv n = (if m = n then b else k.pv n) ∧ y.pw n = (m = n || k.pw n)) ∧
      (∀ r, y.reg r = k.reg r) ∧ ∀ j, latch = some j → y.latchS.get 0 j = if b then 1 else 0) ∧
    (∀ m, let y := ((s.landOne c ⟨l, i, u, .pinv m⟩).core c).ctx
      ∀ n, n ≠ 0 → n < 16 → y.pv n = k.pv n ∧ y.pw n = (k.pw n && m != n))) ∧
  (
  ∀ (s : State) (c l i u : Nat),
    let k := (s.core c).ctx
    let land := fun (e : LandEff) => ((s.landOne c ⟨l, i, u, e⟩).core c).ctx
    (∀ b t j w v, let x := land (.row b (some (t, j, false, w)) v)
      (x.tileRow t j = v ∧ x.latchV.get 0 b = v ∧ ∀ m, k.partner t = some m → x.tileRow m j = v)) ∧
    (∀ a bytes n, n < bytes.length → (land (.spad a bytes)).spad.get 0 (a + n) = bytes.getD n 0) ∧
    (∀ f, (land (.flags f)).sw.flags = k.sw.flags.or (Flags.ofBits f)) ∧
    (∀ v : Word,
      (land (.special 0 v)).sw = { k.sw with
        disc := k.sw.disc && !v.getLsbD 47, late := k.sw.late && !v.getLsbD 46, bovr := k.sw.bovr && !v.getLsbD 45,
        flags := ⟨k.sw.flags.iv && !v.getLsbD 39, k.sw.flags.dz && !v.getLsbD 38, k.sw.flags.ov && !v.getLsbD 37,
          k.sw.flags.uf && !v.getLsbD 36, k.sw.flags.nx && !v.getLsbD 35⟩ } ∧
      land (.special 1 v) = k ∧ land (.special 3 v) = k ∧ land (.special 4 v) = k ∧ land (.special 5 v) = k ∧
      land (.special 2 v) = { k with deadline := BitVec.ofNat 32 (v.toNat % 2 ^ 32) } ∧
      land (.special 6 v) = { k with ovfptr := BitVec.ofNat 64 (v.toNat % 2 ^ 57 / 8 * 8) } ∧
      land (.special 7 v) = { k with seed := v } ∧
      (∃ w, land (.special 8 v) = { k with fpctl := w } ∧ ∀ b < 64, w.getLsbD b =
        if b < 3 then decide (v.toNat % 8 ≤ 4) && v.getLsbD b
        else (decide (7 ≤ b) && decide (b < 13) || decide (16 ≤ b) && decide (b < 32)) && v.getLsbD b) ∧
      land (.special 9 v) = { k with dispret := BitVec.ofNat 64 (v.toNat % 2 ^ 57 / 4 * 4) }) ∧
    (∀ b < 4, ∀ n < 4, bankSlot (land (.bank b n)).bank b = n ∧
      ∀ d < 4, d ≠ b → bankSlot (land (.bank b n)).bank d = bankSlot k.bank d) ∧
    (∀ n q, (land (.portcfg n q)).port.get Port.empty n = q) ∧ (∀ n r, (land (.ringcfg n r)).rg n = r) ∧
    (∀ n v, n < 32 → s.semOk c n = true →
      let set := s.landOne c ⟨l, i, u, .semSet n v⟩
      let add := s.landOne c ⟨l, i, u, .semAdd n v⟩
      let sees := fun (t : State) (w : Nat) => t.semGet c n = w ∧ (∀ m < 32, m ≠ n → t.semGet c m = s.semGet c m) ∧
        ∀ d, 16 ≤ n → clusterOf d = clusterOf c → t.semGet d n = w
      sees set v ∧ (s.semGet c n + v ≤ 65535 → sees add (s.semGet c n + v)) ∧
      (65535 < s.semGet c n + v → (∀ d, ∀ m < 32, add.semGet d m = s.semGet d m) ∧
        ((s.core c).seq.fatal = none →
          (add.core c).seq.fatal = some ⟨0x11, (u - 1) / 2, 0, (s.core c).seq.pc⟩ ∧ (add.core c).ctx = k))))

/-- LOCKSTEP_RESULT_LAND ends an open issue cycle: the results at the end of their latency land, the others have one
cycle less to go, and no other register of the scalar file changes, unless a WAITTASK hands over a task, whose s24 to
s31 are then written (03 R90, R108; 01 R48). A scalar result whose last cycle this is stands in its register and its
latch afterwards, and every other scalar register as before; with nothing to land, a bundle that has no branch goes on
to its next repetition, or to the bundle after it (03 R94, R108). -/
def Obligations.IssueCycleLandsItsResults : Prop :=
  ∀ (c : Nat) (s : State), let k := s.core c
    k.seq.opened = true →
    (∃ t, exec (.lockstepResultLand c) s = .next t ∧ (t.core c).seq.opened = false ∧
      (t.core c).seq.pend = (k.seq.pend.map (fun p => { p with left := p.left - 1 })).filter (fun p => p.left != 0) ∧
      (k.seq.xfer ≠ some .waittask → ∀ r, (t.core c).ctx.reg r = ((s.landCycle c).core c).ctx.reg r)) ∧
    (∀ i u r latch v, k.seq.pend = [⟨1, i, u, .scalar (some r) (some latch) v none⟩] → k.seq.xfer ≠ some .waittask → r ≠ 0 →
      ∃ t, exec (.lockstepResultLand c) s = .next t ∧ (t.core c).ctx.reg r = v ∧ (t.core c).ctx.latchS.get 0 latch = v ∧
        (∀ q, q ≠ r → (t.core c).ctx.reg q = k.ctx.reg q) ∧ (t.core c).seq.pend = [] ∧ (t.core c).seq.opened = false) ∧
    (∀ b, s.fetch (k.job.getD fwJob) (kindOf c) k.seq.pc = .ok b → b.branch = none → k.seq.pend = [] → k.seq.phase = .run →
      k.seq.fatal = none → k.seq.later = none → k.seq.trap = none → k.seq.split = none → k.seq.xfer = none → k.seq.loopSkip = none → k.ctx.loop = [] →
      ∃ t, exec (.lockstepResultLand c) s = .next t ∧ (t.core c).seq.opened = false ∧ (t.core c).seq.resume = 0 ∧
        (∀ q, (t.core c).ctx.reg q = k.ctx.reg q) ∧
        (t.core c).seq.rep = (if k.seq.rep < b.rep then k.seq.rep + 1 else 0) ∧
        (t.core c).seq.pc = if k.seq.rep < b.rep then k.seq.pc else k.seq.pc + b.len)

/-- The scalar, predicate, special-register and configuration operations, TRAP, the transfers that push nothing, STS, TRN,
HREL, HINFO, RAND, SEMSIG, SEMSET, FENCE and WMWAIT change at their issue nothing but the sequencer of the core in hand:
memory, every register of every core, the engines and all units stand as before (03 R90: results become visible later). -/
def Obligations.IssueTouchesOnlyTheSequencer : Prop :=
  ∀ (f : SF) (s t : State), ∀ i ∈ [Instr.add f, .sub f, .and f, .or f, .xor f, .andn f, .shl f, .shr f, .sar f, .rol f, .mul f,
      .mulh f, .mulhu f, .div f, .divu f, .rem f, .remu f, .min f, .max f, .minu f, .maxu f, .clz f, .ctz f, .popc f, .sext f,
      .zext f, .sel f, .addi f, .andi f, .ori f, .xori f, .shli f, .shri f, .sari f, .ldi f, .ldih f, .cmp f, .cmpi f, .pand f,
      .por f, .pxor f, .pnot f, .pset f, .pinv f, .gets f, .sets f, .blend f, .tmirror f, .portcfg f, .ringcfg f, .jmpr f,
      .trap f, .yield f, .tend f, .waittask f, .sts f, .trn f, .hrel f, .hinfo f, .rand f, .semsig f, .semset f, .fence f,
      .wmwait f],
    exec i s = .next t → s.onlySeq t

/-! ### Control, traps and configuration (04_scalar_control_instructions.md R136 to R154) -/

/-- JMPR with an aligned target makes that target the bundle's pending transfer; a target that is not a multiple of 4 is
an alignment fault (cause 0x09) instead, for JMPR and for CALLR (R136, R137). CALL and CALLR push the address of the
next sequential bundle and make their target the pending transfer. With fewer than 16 entries on chip nothing else
changes; with 16, the oldest goes to its place first: to the scratchpad's last 4 KiB for the entries 0 to 511 (R137,
R138). RET pops the youngest on-chip entry: an address whose bits [1:0] are 0 becomes the pending transfer, a
trap-return entry (bit 0 set) starts a trap return (09 R282, R284); with DEPTH = 0 it is a return underflow, cause 0x0A
(R137 to R139). -/
def Obligations.JumpsCallsAndReturns : Prop :=
  (
  ∀ (f : SF) (s : State), s.clear →
    let t := (((s.regs.src f.sa).toInt + f.imm.toInt) % 2 ^ 57).toNat
    (t % 4 = 0 → exec (.jmpr f) s =
      .next (s.onSeq s.unit.core (fun q => { q with xfer := some (.jump t false) }))) ∧
    (t % 4 ≠ 0 → exec (.jmpr f) s = .next (s.failed 0x09) ∧ exec (.callr f) s = .next (s.failed 0x09))) ∧
  (
  ∀ (f : SF) (s : State), s.clear → s.regs.depth ≠ 0xFFFFFFFF →
    let c := s.unit.core
    let k := s.regs
    let ret := s.unit.bundle + s.unit.len
    let n := k.depth - 16
    let base := spadSize c k - 4096
    ∀ i g, (i = Instr.call f ∧ g = (((s.unit.bundle : Int) + 4 * f.imm.toInt) % 2 ^ 57).toNat ∨
        i = Instr.callr f ∧ g = (((k.src f.sa).toInt + f.imm.toInt) % 2 ^ 57).toNat ∧ g % 4 = 0) →
      (k.ras.length < 16 → ∃ t, exec i s = .next t ∧ t.self.ctx = { k with ras := ret :: k.ras, depth := k.depth + 1 } ∧
        t.self.seq = { s.self.seq with xfer := some (.jump g true) } ∧ s.onlyCore t) ∧
      (k.ras.length = 16 → n < 512 → ∃ t, exec i s = .next t ∧
        t.self.ctx = { k with ras := ret :: k.ras.take 15, depth := k.depth + 1,
                              spad := k.spad.putBytes (base + 8 * n) (leBytes 8 (k.ras.getD 15 0)) } ∧
        t.self.seq = { s.self.seq with xfer := some (.jump g true) } ∧ s.onlyCore t)) ∧
  (
  ∀ (f : SF) (s : State), s.clear →
    let k := s.regs
    (∀ e rest, k.ras = e :: rest → e % 4 < 2 →
      exec (.ret f) s = .next (s.onCore s.unit.core (fun x =>
        { x with ctx := { x.ctx with ras := rest, depth := x.ctx.depth - 1 },
                 seq := { x.seq with xfer := some (if e % 4 = 0 then .jump e false else .trapRet) } }))) ∧
    (k.ras = [] → k.depth = 0 → exec (.ret f) s = .next (s.failed 0x0A)))

/-- LOOP sets its counter to the trip, the next bundle and the end bundle; with a trip of 0 the counter stays inactive
and the bundle after the end bundle comes next, unless the end lies outside every code section, an illegal encoding
(R141, 01 R34). LOOPX takes the trip from the two row pointers that it pops from its stream register, and returns the
first (R142, 01 R28). -/
def Obligations.LoopsSetTheirCounters : Prop :=
  ∀ (f : SF) (s : State), s.clear → f.imm.toNat % 2 ^ 24 < 2 ^ 23 →
    let u := s.unit
    let n := f.imm.toNat / 2 ^ 27 % 4
    let stop := (u.bundle + 4 * (f.imm.toNat % 2 ^ 24)) % 2 ^ 57
    let trip := (s.regs.src f.sa).toNat % 2 ^ 32
    let job := s.self.job.getD fwJob
    let set := fun (trip : Nat) => s.regs.loop.set LoopCtr.empty n ⟨trip, u.bundle + u.len, stop⟩
    (trip ≠ 0 → ∃ t, exec (.loop f) s = .next t ∧ s.onlyCore t ∧ t.self.seq = s.self.seq ∧
      t.self.ctx = { s.regs with loop := set trip }) ∧
    (trip = 0 → s.inCode job stop = true → ∃ t, exec (.loop f) s = .next t ∧ s.onlyCore t ∧
      t.self.seq = { s.self.seq with
        loopSkip := some (stop + headerLen (BitVec.ofNat 32 (ofLe (s.codeBytes job stop 4)))) } ∧
      t.self.ctx = { s.regs with loop := set 0 }) ∧
    (trip = 0 → s.inCode job stop = false → exec (.loop f) s = .next (s.failed 0x01)) ∧
    (∀ v rest, let q := f.imm.toNat / 2 ^ 24 % 8
      (s.regs.stream.get Stream.empty q).vecs = v :: rest →
      (lane 32 v 0 < lane 32 v 1 → ∃ t, exec (.loopx f) s = .next t ∧ s.onlyCore t ∧
        t.self.ctx.loop = set (lane 32 v 1 - lane 32 v 0) ∧ (t.self.ctx.stream.get Stream.empty q).vecs = rest ∧
        t.self.seq.pend = s.self.seq.pend ++
          [⟨1, s.self.seq.issue, u.unit, .scalar (sDst f) (some u.sLatch) (BitVec.ofNat 64 (lane 32 v 0)) none⟩]) ∧
      (lane 32 v 0 = lane 32 v 1 → s.inCode job stop = true → ∃ t, exec (.loopx f) s = .next t ∧ s.onlyCore t ∧
        t.self.ctx.loop = set 0 ∧ (t.self.ctx.stream.get Stream.empty q).vecs = rest ∧
        t.self.seq.loopSkip = some (stop + headerLen (BitVec.ofNat 32 (ofLe (s.codeBytes job stop 4))))) ∧
      (lane 32 v 1 < lane 32 v 0 → exec (.loopx f) s = .next (s.failed 0x0F)))

/-- TRAP raises a restartable trap with cause 0x23, its immediate in INFO0 and the unit after it as return point (R144).
YIELD without PREQ does nothing, and with PREQ stops the countdown and asks for the cooperative save (R145). TEND and
WAITTASK are pending transfers; TEND without a task, and WAITTASK with one or on the housekeeping core, raise an illegal
operation, cause 0x0F (R146, R147). GETS returns the register of its index as R36 and 04 R148 number them, GTICK's value
at the issue among them; SETS sends its value to that register, except that OVFPTR is refused with an illegal operation,
cause 0x0F, while return addresses stand in HBM (R149). -/
def Obligations.TaskFlowAndSpecialRegisters : Prop :=
  (
  ∀ (f : SF) (s : State), s.clear →
    let c := s.unit.core
    exec (.trap f) s = .next (s.trapped ⟨0x23, s.unit.unit + 1, BitVec.ofNat 64 (f.imm.toNat % 65536), 0⟩) ∧
    (s.regs.sw.preq = false → ∃ t, exec (.yield f) s = .next t ∧ s.unchanged t) ∧
    (s.regs.sw.preq = true → exec (.yield f) s =
      .next (s.onSeq c (fun q => { q with xfer := some .yield, preempt := none }))) ∧
    (s.self.seq.task ≠ none → exec (.tend f) s = .next (s.onSeq c (fun q => { q with xfer := some .tend })) ∧
      exec (.waittask f) s = .next (s.failed 0x0F)) ∧
    (s.self.seq.task = none → exec (.tend f) s = .next (s.failed 0x0F) ∧
      (c < 128 → exec (.waittask f) s = .next (s.onSeq c (fun q => { q with xfer := some .waittask }))) ∧
      (128 ≤ c → exec (.waittask f) s = .next (s.failed 0x0F)))) ∧
  (
  ∀ (f : SF) (s : State), s.clear →
    let k := s.regs
    let n := f.imm.toNat % 32
    let got := fun v => exec (.gets f) s = .next (s.returns f 1 v)
    (n = 0 → ∃ w, got w ∧ (w.extractLsb' 58 6) = k.sw.cause ∧ w.extractLsb' 56 2 = k.sw.prio ∧ w.getLsbD 55 = k.sw.preq ∧
      w.getLsbD 54 = k.sw.replay ∧ w.getLsbD 47 = k.sw.disc ∧ w.getLsbD 46 = k.sw.late ∧ w.getLsbD 45 = k.sw.bovr ∧
      w.extractLsb' 35 5 = k.sw.flags.bits ∧ w.toNat / 2 ^ 8 % 16 = k.sw.resume % 16 ∧
      w.toNat / 2 ^ 4 % 16 = k.sw.repidx % 16) ∧
    (n = 1 → got k.pword) ∧ (n = 2 → got (BitVec.ofNat 64 k.deadline.toNat)) ∧ (n = 3 → got (BitVec.ofNat 64 s.gtick)) ∧
    (n = 4 → got k.ctxid) ∧ (n = 5 → got k.duty) ∧ (n = 6 → got k.ovfptr) ∧ (n = 7 → got k.seed) ∧ (n = 8 → got k.fpctl) ∧
    (n = 9 → got k.dispret) ∧
    (¬(n = 6 ∧ k.depth > 528) → exec (.sets f) s = .next (s.schedule 1 (.special n (k.src f.sa)))) ∧
    (n = 6 → k.depth > 528 → exec (.sets f) s = .next (s.failed 0x0F)))

/-- BLEND, TMIRROR, PORTCFG and RINGCFG send their configuration on its way (R150 to R154): TMIRROR pairs registers of
two banks that no other pair holds, over rows ÷ 8 cycles, and faults otherwise (cause 0x04); RINGCFG checks the ring's
parameter word (cause 0x04) and that its slots lie in the scratchpad (cause 0x05). -/
def Obligations.ConfigurationInstructions : Prop :=
  ∀ (f : SF) (s : State), s.clear →
    let k := s.regs
    let a := f.imm.toNat % 16
    let b := f.imm.toNat / 16 % 16
    let free := fun (x y : Nat) => s.self.pairedWith x = none ∨ s.self.pairedWith x = some y
    let w := k.src f.sa
    let slotb := if w.toNat / 2 ^ 15 % 4096 = 0 then 4096 else w.toNat / 2 ^ 15 % 4096
    let top := 256 * (w.toNat % 2 ^ 15) + 256 * slotb * (w.toNat / 2 ^ 27 % 64)
    exec (.blend f) s = .next (s.schedule 1 (.bank (f.imm.toNat % 4) (f.imm.toNat / 4 % 8))) ∧
    (f.imm.getLsbD 8 = true → exec (.tmirror f) s = .next (s.schedule 1 (.unpair a))) ∧
    (f.imm.getLsbD 8 = false → a / 4 ≠ b / 4 → free a b → free b a →
      exec (.tmirror f) s = .next (s.schedule (k.rows / 8) (.pair a b))) ∧
    (f.imm.getLsbD 8 = false → ¬(a / 4 ≠ b / 4 ∧ free a b ∧ free b a) → exec (.tmirror f) s = .next (s.failed 0x04)) ∧
    (∃ p : Port, exec (.portcfg f) s = .next (s.schedule 1 (.portcfg (f.imm.toNat / 2 ^ 16 % 8) p)) ∧ p.configured = true ∧
      p.write = f.imm.getLsbD 15 ∧ p.base.toNat = f.imm.toNat % 2 ^ 15 ∧ p.counts = w ∧ p.strides = k.src f.sb ∧ p.idx = 0) ∧
    (w.toNat < 2 ^ 33 → w.toNat / 2 ^ 27 % 64 ≤ 32 → (w.toNat / 2 ^ 27 % 64 ≠ 0 → top ≤ spadSize s.unit.core k) →
      ∃ r : Ring, exec (.ringcfg f) s = .next (s.schedule 1 (.ringcfg (f.imm.toNat % 8) r)) ∧ r.base = w.toNat % 2 ^ 15 ∧
        r.slotb = w.toNat / 2 ^ 15 % 4096 ∧ r.nslot = w.toNat / 2 ^ 27 % 64 ∧ r.head = 0 ∧ r.tail = 0 ∧ r.cnt = [] ∧
        r.ph = 0 ∧ r.hl = false ∧ r.tl = false) ∧
    (2 ^ 33 ≤ w.toNat ∨ 32 < w.toNat / 2 ^ 27 % 64 → exec (.ringcfg f) s = .next (s.failed 0x04)) ∧
    (w.toNat < 2 ^ 33 → w.toNat / 2 ^ 27 % 64 ≤ 32 → w.toNat / 2 ^ 27 % 64 ≠ 0 → spadSize s.unit.core k < top →
      exec (.ringcfg f) s = .next (s.failed 0x05))

/-! ### Memory, translation, semaphores and waits (05_memory_sync_fabric_instructions.md R156 to R178) -/

/-- LD, ST and ATOM are checked in the order of R158 and then enter the core's list of accesses, at the physical place
that their handle and offset give at issue (R157 to R161); no register and no byte of memory changes at the issue. The
checks that fail end in causes 0x06, 0x07, 0x08 and 0x09. -/
def Obligations.LoadsStoresAndAtomicsIssue : Prop :=
  ∀ (f : SF) (s : State), s.clear →
    let c := s.unit.core
    let k := s.regs
    let h := k.h (f.imm.toNat / 2 ^ 22 % 16)
    let n := 2 ^ (f.imm.toNat / 2 ^ 27 % 4)
    let off := (((k.src f.sa).toNat : Int) + ((f.imm.toNat % 2 ^ 16 : Nat) : Int).bmod (2 ^ 16)) % 2 ^ 64
    let at_ := (k.src f.sa).toNat
    let place := fun (o : Nat) => (⟨h.die, h.pbase * 65536 + o, h.order, h.pbase⟩ : Place)
    let sem := if f.imm.getLsbD 21 then some (f.imm.toNat / 2 ^ 16 % 32) else none
    let mayWrite := fun (o : Nat) => h.writable = true ∧ s.codeHit c (h.va.toNat + o) n = false
    (∀ j, sem = some j → s.semOk c j = true) →
    (h.valid = false → exec (.ld f) s = .next (s.failed 0x06) ∧ exec (.st f) s = .next (s.failed 0x06) ∧
      exec (.atom f) s = .next (s.failed 0x06)) ∧
    (h.valid = true → pageBytes h.size < off.toNat + n → exec (.ld f) s = .next (s.failed 0x07) ∧
      exec (.st f) s = .next (s.failed 0x07)) ∧
    (h.valid = true → off.toNat + n ≤ pageBytes h.size → ¬mayWrite off.toNat → exec (.st f) s = .next (s.failed 0x08)) ∧
    (h.valid = true → at_ + n ≤ pageBytes h.size → ¬mayWrite at_ → exec (.atom f) s = .next (s.failed 0x08)) ∧
    (h.valid = true → at_ + n ≤ pageBytes h.size → mayWrite at_ → at_ % n ≠ 0 →
      exec (.atom f) s = .next (s.failed 0x09)) ∧
    (h.valid = true → off.toNat + n ≤ pageBytes h.size →
      (∃ t l, exec (.ld f) s = .next t ∧ t.self.ctx = k ∧ s.sameMem t ∧ t.self.seq.loads = s.self.seq.loads ++ [l] ∧
        t.self.seq.stores = s.self.seq.stores ∧ l.place = place off.toNat ∧ l.size = n ∧ l.sx = f.imm.getLsbD 26 ∧
        l.dst = sDst f ∧ l.sem = sem ∧ l.atom = none) ∧
      (mayWrite off.toNat → ∃ t x, exec (.st f) s = .next t ∧ t.self.ctx = k ∧ s.sameMem t ∧
        t.self.seq.stores = s.self.seq.stores ++ [x] ∧ t.self.seq.loads = s.self.seq.loads ∧ x.place = place off.toNat ∧
        x.bytes = leBytes n (k.src f.sb).toNat ∧ x.sem = sem)) ∧
    (h.valid = true → at_ + n ≤ pageBytes h.size → mayWrite at_ → at_ % n = 0 →
      ∃ t l, exec (.atom f) s = .next t ∧ t.self.ctx = k ∧ s.sameMem t ∧ t.self.seq.loads = s.self.seq.loads ++ [l] ∧
        l.place = place at_ ∧ l.size = n ∧ l.dst = sDst f ∧ l.sem = sem ∧
        l.atom = some (f.imm.toNat / 2 ^ 12 % 16, (k.src f.sb).toNat, (k.src f.dst).toNat))

/-- LOAD_LAND of an LD: the bytes of its place, the core's own earlier stores among them, extended as SX says, land in
its register where no later-issued write has landed; no byte of memory changes (R159, R161; 11 R322). That it reads the
newest bytes as it lands, never an older value of a UO page, is the model's choice (log 6). A place with an
uncorrectable block gives cause 0x0B; a discarded page reads zeros and sets SW.DISC. LOAD_LAND of an ATOM: the old value
of its bytes lands in its register and the new value of R160 stands in memory, in one step, a choice of the model (log
6); every other byte of memory reads as before. The new memory value of each of ATOM's operations on `n` bytes, as R160
lists them. -/
def Obligations.LoadsAndAtomicsLand : Prop :=
  (
  ∀ (c i r : Nat) (s : State) (l : Load),
    let k := s.core c
    let bs := blocksOf l.place.key l.size
    let soft := ∀ b ∈ bs, s.mem.gone b = false → s.mem.uncorrectable b = false
    k.seq.loads[i]? = some l → k.seq.loadOk l = true → l.atom = none → l.dst = some r → r ≠ 0 → l.sem = none →
    k.seq.regIssue.get 0 r ≤ l.issue →
    let read := fun (bytes : List Byte) => extendLoad l.sx l.size (ofLe (k.seq.forward s.mem l bytes))
    let lands := fun (t : State) (bytes : List Byte) => (t.core c).ctx.reg r = read bytes ∧
      (∀ q, q ≠ r → (t.core c).ctx.reg q = k.ctx.reg q) ∧ (t.core c).seq.loads = k.seq.loads.eraseIdx i ∧ s.sameMem t
    (soft → (∀ b ∈ bs, s.mem.gone b = false) →
      ∃ t, exec (.loadLand c i) s = .next t ∧ lands t (s.mem.rd l.place.key l.size) ∧ (t.core c).ctx.sw = k.ctx.sw) ∧
    (soft → (∃ b ∈ bs, s.mem.gone b = true) →
      ∃ t, exec (.loadLand c i) s = .next t ∧ (t.core c).ctx.sw.disc = true ∧
        lands t ((List.range l.size).map (fun n =>
          if s.mem.gone (blockOf (l.place.key + n)) then 0 else s.mem.hbm.get 0 (l.place.key + n)))) ∧
    (¬soft → k.seq.fatal = none →
      ∃ t, exec (.loadLand c i) s = .next t ∧ (t.core c).seq.fatal = some ⟨0x0B, 0, 0, l.bundle⟩ ∧
        (t.core c).ctx.reg r = k.ctx.reg r ∧ s.sameMem t)) ∧
  (
  ∀ (c i r : Nat) (s : State) (l : Load) (aop b e : Nat),
    let k := s.core c
    let m := ofLe (s.mem.rd l.place.key l.size)
    k.seq.loads[i]? = some l → k.seq.loadOk l = true → l.atom = some (aop, b, e) → l.dst = some r → r ≠ 0 → l.sem = none →
    k.seq.regIssue.get 0 r ≤ l.issue → (l.size = 4 ∨ l.size = 8) →
    (∀ j ∈ blocksOf l.place.key l.size, s.mem.uncorrectable j = false ∧ s.mem.inert (64 * j) = false) →
    ∃ t, exec (.loadLand c i) s = .next t ∧ (t.core c).ctx.reg r = BitVec.ofNat 64 m ∧
      (∀ j < l.size, t.mem.hbm.get 0 (l.place.key + j) = (leBytes l.size (atomValue aop l.size m b e)).getD j 0) ∧
      (∀ a, a < l.place.key ∨ l.place.key + l.size ≤ a → t.mem.hbm.get 0 a = s.mem.hbm.get 0 a) ∧
      (∀ q, q ≠ r → (t.core c).ctx.reg q = k.ctx.reg q)) ∧
  (
  ∀ (n m b e : Nat), n = 4 ∨ n = 8 → m < 2 ^ (8 * n) →
    let w := 2 ^ (8 * n)
    let sg := fun (x : Nat) => (x : Int).bmod w
    atomValue 0 n m b e = (m + b) % w ∧
    sg (atomValue 1 n m b e) = min (sg m) (sg (b % w)) ∧ sg (atomValue 2 n m b e) = max (sg m) (sg (b % w)) ∧
    atomValue 3 n m b e = min m (b % w) ∧ atomValue 4 n m b e = max m (b % w) ∧
    (∀ i, (atomValue 5 n m b e).testBit i = (m.testBit i && (b % w).testBit i)) ∧
    (∀ i, (atomValue 6 n m b e).testBit i = (m.testBit i || (b % w).testBit i)) ∧
    (∀ i, (atomValue 7 n m b e).testBit i = (m.testBit i != (b % w).testBit i)) ∧
    atomValue 8 n m b e = b % w ∧ atomValue 9 n m b e = if m = e % w then b % w else m)

/-- STORE_PERFORMED writes exactly the store's bytes at its place: every other byte of memory reads as before, and no
register changes (R159, R161). The store leaves the core's list. -/
def Obligations.StoresWriteTheirBytesAlone : Prop :=
  ∀ (c i : Nat) (s : State) (x : Store),
    let k := s.core c
    k.seq.stores[i]? = some x → k.seq.storeOk x = true → x.sem = none → x.bytes ≠ [] →
    (∀ b ∈ blocksOf x.place.key x.bytes.length, s.mem.uncorrectable b = false ∧ s.mem.inert (64 * b) = false) →
    ∃ t, exec (.storePerformed c i) s = .next t ∧
      (∀ j < x.bytes.length, t.mem.hbm.get 0 (x.place.key + j) = x.bytes.getD j 0) ∧
      (∀ a, a < x.place.key ∨ x.place.key + x.bytes.length ≤ a → t.mem.hbm.get 0 a = s.mem.hbm.get 0 a) ∧
      (∀ d, (t.core d).ctx = (s.core d).ctx) ∧ (t.core c).seq.stores = k.seq.stores.eraseIdx i

/-- LDS returns the scratchpad's bytes with L = 4, the writes that land in this cycle among them, and STS sends its
bytes on their way; an access with a byte at P or above is a scratchpad range fault, cause 0x05 (R163, R164; 01 R24).
TRN, HREL, HINFO and RAND send their results on their way with the latencies 48, 1, 1 and 6 (R168 to R170, R172), and a
FENCE, its wait over, does nothing more (R166). As TRN lands, in the last of its 48 cycles, at which it looks the cache
up (the model's choice, log 10), on a page that the die's cache holds and may be used so, the handle is valid and names
that page, its status is 0 and the predicate is true (R167, R168). PROBE, its wait over: a page that the cache holds and
may be used so gives the handle as TRN would, at the end of the cycle; another outcome is the status and a false
predicate with NT = 1, and with NT = 0 a restartable trap with cause 0x20 whose INFO0 is the address (R171; 09 R282). -/
def Obligations.ScratchpadTranslationsAndProbes : Prop :=
  (
  ∀ (f : SF) (s : State), s.clear →
    let c := s.unit.core
    let k := s.regs
    let n := 2 ^ (f.imm.toNat / 2 ^ 27 % 4)
    let a := ((((k.src f.sa).toNat : Int) + ((f.imm.toNat % 2 ^ 22 : Nat) : Int).bmod (2 ^ 22)) % 2 ^ 64).toNat
    let read := fun (l : List Byte) =>
      if f.imm.getLsbD 26 then BitVec.ofInt 64 ((ofLe l : Int).bmod (2 ^ (8 * n))) else BitVec.ofNat 64 (ofLe l)
    (a + n ≤ spadSize c k →
      exec (.sts f) s = .next (s.schedule 1 (.spad a (leBytes n (k.src f.sb).toNat))) ∧
      (s.mem.sramBad = [] → s.mem.sramSoft = [] →
        exec (.lds f) s = .next (s.returns f 4 (read (s.self.spadNow.ld a n))) ∧
        ((∀ p ∈ s.self.seq.pend, ∀ b l, p.eff ≠ .spad b l) →
          exec (.lds f) s = .next (s.returns f 4 (read (k.ld a n)))))) ∧
    (spadSize c k < a + n → exec (.sts f) s = .next (s.failed 0x05) ∧ exec (.lds f) s = .next (s.failed 0x05))) ∧
  (
  ∀ (f : SF) (s : State), s.clear →
    let k := s.regs
    let c := s.unit.core
    let va := (k.src f.sa).toNat % 2 ^ 57
    let hn := f.imm.toNat % 16
    let pd := f.imm.toNat / 16 % 16
    let eff := LandEff.trn hn pd (f.imm.getLsbD 8) (BitVec.ofNat 57 va) (sDst f) (some s.unit.sLatch)
    exec (.trn f) s = .next (s.schedule 48 eff) ∧
    (∀ l i u h, s.lookup c (f.imm.getLsbD 8) va = (0, some h) →
      let t := s.landOne c ⟨l, i, u, eff⟩
      (t.core c).ctx.h hn = h ∧ (∀ r, sDst f = some r → r ≠ 0 → (t.core c).ctx.reg r = 0) ∧ (t.core c).ctx.pv pd = true ∧
      ∀ q, q ≠ hn → (t.core c).ctx.h q = k.h q) ∧
    (∃ m, exec (.hrel f) s = .next (s.schedule 1 (.hrel m)) ∧
      ∀ i < 16, m.getLsbD i = (f.imm.getLsbD 4 || i = hn)) ∧
    exec (.hinfo f) s = .next (s.returns f 1 (k.h hn).info) ∧
    exec (.rand f) s = .next (s.returns f 6 (randWord k.seed k.fpStream (k.src f.sa) (f.imm.getLsbD 0))) ∧
    ∃ t, exec (.fence f) s = .next t ∧ s.unchanged t) ∧
  (
  ∀ (f : SF) (s : State) (st : Nat) (h : Option Handle), s.clear →
    let k := s.regs
    let c := s.unit.core
    let va := (k.src f.sa).toNat % 2 ^ 57
    let hn := f.imm.toNat % 16
    let pd := f.imm.toNat / 16 % 16
    let wr := f.imm.getLsbD 8
    let done := fun (t : State) => t.onSeq c (fun q => { q with probe := none })
    s.lookup c wr va = (st, h) →
    (st = 0 → exec (.probe f) s =
      .next (done (s.schedule 1 (.trn hn pd wr (BitVec.ofNat 57 va) (sDst f) (some s.unit.sLatch))))) ∧
    (st ≠ 0 → st ≠ 1 → f.imm.getLsbD 9 = true →
      exec (.probe f) s = .next (done (s.returns f 1 (BitVec.ofNat 64 st) (some (pd, false))))) ∧
    (st ≠ 0 → st ≠ 1 → f.imm.getLsbD 9 = false →
      ∃ i, exec (.probe f) s = .next (s.trapped ⟨0x20, s.unit.unit, BitVec.ofNat 64 va, i⟩)))

/-- SEMSIG and SEMSET send their count to the semaphore, and SEMWAIT, its wait over, takes its count from it at once; on
a cluster semaphore that the job does not hold each is an invalid-handle fault, cause 0x06 (R173, R174; 01 R33). TWAIT,
its tick reached, sets SW.LATE only where it waited and the module is out of step (R177). BLOCK with a limit takes one
count from each of its semaphores, ends an open block, clears the latches and opens a block of that many cycles; with a
limit of 0 it ends the open block, and an overrun sets SW.BOVR (R178). Where its clearing stands among the results that
land in its cycle is the model's choice (log 43). On the housekeeping core BLOCK is an illegal operation, cause 0x0F
(R156). -/
def Obligations.SemaphoresAndTickWaits : Prop :=
  (
  ∀ (f : SF) (s : State), s.clear →
    let c := s.unit.core
    let j := f.imm.toNat % 32
    let v := f.imm.toNat / 32 % 65536
    (s.semOk c j = true → exec (.semsig f) s = .next (s.schedule 1 (.semAdd j v)) ∧
      exec (.semset f) s = .next (s.schedule 1 (.semSet j v)) ∧
      (v ≤ s.semGet c j → ∃ t, exec (.semwait f) s = .next t ∧ t.semGet c j = s.semGet c j - v ∧
        (∀ i, i < 32 → i ≠ j → t.semGet c i = s.semGet c i) ∧ s.sameMem t ∧ ∀ r, t.self.ctx.reg r = s.regs.reg r)) ∧
    (s.semOk c j = false → exec (.semsig f) s = .next (s.failed 0x06) ∧ exec (.semset f) s = .next (s.failed 0x06) ∧
      exec (.semwait f) s = .next (s.failed 0x06))) ∧
  (
  ∀ (f : SF) (s : State), s.clear →
    let c := s.unit.core
    let k := s.regs
    let q := s.self.seq
    let mask := fun (j : Nat) => decide (j < 16) && f.imm.getLsbD j
    let overrun := match q.blk with | some b => decide (b.limit < q.cycles - b.start + 1) | none => false
    (∃ t, exec (.twait f) s = .next t ∧ s.onlyCore t ∧ t.self.seq = { q with waitTick := none } ∧
      t.self.ctx = { k with sw := { k.sw with late := k.sw.late || (q.waitTick.isSome && s.outStep) } }) ∧
    (c < 128 → (∀ j, mask j = true → k.sem.get 0 j ≠ 0) →
      ∃ t, exec (.block f) s = .next t ∧ s.sameMem t ∧
        (∀ j, t.self.ctx.sem.get 0 j = if mask j then k.sem.get 0 j - 1 else k.sem.get 0 j) ∧
        t.self.ctx.sw.bovr = (k.sw.bovr || overrun) ∧
        t.self.seq.blk = (if f.blockCount = 0 then none else some ⟨q.cycles, f.blockCount.toNat⟩) ∧
        t.self.seq.pend = (if f.blockCount = 0 ∧ q.blk = none then q.pend
          else q.pend.filter (fun p => p.issue != q.issue) ++ [⟨1, q.issue, s.unit.unit, .clearLatch⟩] ++
            q.pend.filter (fun p => p.issue = q.issue))) ∧
    (128 ≤ c → exec (.block f) s = .next (s.failed 0x0F)))

/-! ### Tasks and the fabric from a core (05_memory_sync_fabric_instructions.md R175, R176, R179 to R184) -/

/-- TASKQ puts a ready record with its arguments in a free place of the job's dynamic queue, the first one by the
model's choice (log 43), numbers it, and returns the number. A named successor waits again, with one more predecessor.
The record's 64 bytes are written where the queue's page is resident, and no other byte then. A full queue is refused
with reason 1, a TCB that is no template of the job with 2, and a successor that is missing or retired, or a reserved
bit, with 3 (R175; 12 R357). TCLAIM gives back the core's leases on the nest and takes the next ticket: its number in sd
and a true predicate; with no ticket left all ones and a false one. A nest that is not a claim nest is an illegal
operation, cause 0x0F (R176; 12 R354). -/
def Obligations.QueueRecordsAndTickets : Prop :=
  (
  ∀ (f : SF) (s : State) (j : Job), s.clear →
    let c := s.unit.core
    let k := s.regs
    let a := (k.src f.sa).toNat
    let b := k.src f.sb
    let n := f.imm.toNat % 2 ^ 20
    let m := b.toNat % 2 ^ 20
    let named := b.getLsbD 63
    let args := (List.range 4).map (fun i => BitVec.ofNat 64 (ofLe (s.self.spadNow.ld (a + 8 * i) 8)))
    c < 128 → a + 32 ≤ spadSize c k → a % 32 = 0 → s.mem.sramBad = [] → s.mem.sramSoft = [] → s.self.job = some j.num →
    s.job j.num = some j →
    let place := (List.range j.dyncap).find? (fun p => !j.dyn.any (fun r => r.place = p))
    let template := n < j.ntcb ∧ (j.tcbAt n).kind = 3
    let waits := m < j.ntcb ∧ (j.tcbAt m).isNode = true ∧ (j.nodeAt m).cancel = false ∧
      ((j.nodeAt m).state = 0 ∨ ((j.nodeAt m).state = 1 ∧ (j.nodeAt m).handed = []))
    let wellNamed := b.toNat / 2 ^ 20 % 2 ^ 43 = 0 ∧ (named = true → waits)
    (∀ p, place = some p → template → wellNamed →
      ∃ t j', exec (.taskq f) s = .next t ∧ t.job j.num = some j' ∧
        j'.dyn = j.dyn ++
          [⟨p, 1, args, n, if named then some m else none, f.imm.toNat / 2 ^ 20 % 4, j.recSeq % 2 ^ 32, s.sched.readySeq⟩] ∧
        (∀ x, named = false ∨ x ≠ m → j'.nodeAt x = j.nodeAt x) ∧
        (named = true → j'.nodeAt m = { j.nodeAt m with state := 0, pcount := (j.nodeAt m).pcount + 1 }) ∧
        t.self.seq.pend = s.self.seq.pend ++
          [⟨1, s.self.seq.issue, s.unit.unit,
            .scalar (sDst f) (some s.unit.sLatch) (BitVec.ofNat 64 (j.recSeq % 2 ^ 32)) none⟩] ∧ t.self.ctx = k ∧
        let va := j.dynq + 64 * p
        let field := fun (o w : Nat) => s.shows t 0 j.num (va + o) w
        s.sched.writes = [] → va % 64 = 0 → s.writableSpan 0 j.num va 64 →
          (∀ i < 4, field (8 * i) 8 = (args.getD i 0).toNat) ∧ field 32 4 = n ∧
            field 36 4 = (if named then 2 ^ 31 + m else 0) ∧ field 40 1 = f.imm.toNat / 2 ^ 20 % 4 ∧ field 41 1 = 1 ∧
            field 42 6 = 0 ∧ field 48 4 = j.recSeq % 2 ^ 32 ∧ field 52 12 = 0 ∧
            ∀ x, (∀ o < 64, s.cachedAt 0 j.num (va + o) ≠ some x) → t.mem.hbm.get 0 x = s.mem.hbm.get 0 x) ∧
    (place = none → exec (.taskq f) s = .next (s.returns f 1 (copErr 1))) ∧
    (place ≠ none → ¬template → exec (.taskq f) s = .next (s.returns f 1 (copErr 2))) ∧
    (place ≠ none → template → ¬wellNamed → exec (.taskq f) s = .next (s.returns f 1 (copErr 3)))) ∧
  (
  ∀ (f : SF) (s : State) (j : Job), s.clear →
    let c := s.unit.core
    let a := (s.regs.src f.sa).toNat
    let pd := f.imm.toNat % 16
    let x := j.nodeAt a
    let mine := x.handed.filter (fun h => h.1 = c)
    let result := fun (v : Word) (b : Bool) =>
      (⟨1, s.self.seq.issue, s.unit.unit, .scalar (sDst f) (some s.unit.sLatch) v (some (pd, b))⟩ : Pending)
    c < 128 → s.self.job = some j.num → s.job j.num = some j → (∀ e ∈ j.node, e.2.cancel = false) → x.cancel = false →
    (a < j.ntcb → (j.tcbAt a).kind = 1 → (j.tcbAt a).claim = true → (j.tcbAt a).tmpl = false → a < 2 ^ 20 →
      (x.state = 1 ∨ x.state = 2) →
      (∀ l, x.ticket (j.tcbAt a) = some l → ∃ t j', exec (.tclaim f) s = .next t ∧ t.job j.num = some j' ∧
        (j'.nodeAt a).handed = x.handed.filter (fun h => h.1 ≠ c) ++ [(c, l)] ∧ (j'.nodeAt a).state = 2 ∧
        (j'.nodeAt a).doneN = x.doneN + mine.length ∧ t.self.seq.pend = s.self.seq.pend ++ [result (BitVec.ofNat 64 l) true]) ∧
      (x.ticket (j.tcbAt a) = none → ∃ t, exec (.tclaim f) s = .next t ∧
        t.self.seq.pend = s.self.seq.pend ++ [result 0xFFFFFFFFFFFFFFFF#64 false])) ∧
    (j.ntcb ≤ a ∨ (j.tcbAt a).kind ≠ 1 ∨ (j.tcbAt a).claim = false → exec (.tclaim f) s = .next (s.failed 0x0F)))

/-- FST, FATOM and FRED that no check of R180 stops hand their descriptor, their operands and the next number of their
stream to the fabric interface; with a watermark asked for, a free origin slot becomes pending and its watermark is
returned (R179 to R181; 17 R433, R439). That the descriptor is read as the operation issues is the model's reading (log
32). -/
def Obligations.FabricInstructionsHandOver : Prop :=
  ∀ (f : SF) (s : State), s.clear → s.mem.sramBad = [] → s.mem.sramSoft = [] →
    let c := s.unit.core
    let d := s.self.spadNow.ld (s.regs.src f.sa).toNat 32
    ∀ i ty, (i, ty) ∈ [(Instr.fst f, 0), (Instr.fatom f, 1), (Instr.fred f, 2)] → s.fabCause c ty f = none →
      let h : BitVec 32 → Handoff := fun w =>
        { core := c, ty := ty, f := f, desc := d, carried := s.regs.src f.sb, wm := w, job := s.self.job.getD fwJob,
          tcb := s.self.tcbHeld, cgen := s.self.cgen, seq := s.fab.seqNext.get 0 (streamKey (coreField c) ty (descDest d)),
          sent := none }
      (f.imm.getLsbD 2 = false → ∃ t, exec i s = .next t ∧ t.fab.iface = s.fab.iface ++ [h 0] ∧ t.self = s.self ∧ s.sameMem t) ∧
      (f.imm.getLsbD 2 = true → s.fab.originFull = false → ∃ t wm, exec i s = .next t ∧ wm < 2 ^ 32 ∧ wmModule wm = ownModule ∧
        (s.fab.origins.get Origin.empty (wmSlot wm)).state = 0 ∧
        (t.fab.origins.get Origin.empty (wmSlot wm)).state = 1 ∧
        (t.fab.origins.get Origin.empty (wmSlot wm)).gen.toNat = wmGen wm ∧
        t.fab.iface = s.fab.iface ++ [h (BitVec.ofNat 32 wm)] ∧ t.self.ctx = s.regs ∧
        t.self.seq.pend = s.self.seq.pend ++ [⟨1, s.self.seq.issue, s.unit.unit,
          .scalar (sDst f) (some s.unit.sLatch) (BitVec.ofNat 64 wm) none⟩] ∧ s.sameMem t)

/-- WMWAIT, its wait over, returns 1 for a void watermark and 0 otherwise (R183). WMTEST returns 0 for a landed
watermark, 2 for a void one and 1 while nothing is known, with a predicate that says landed, and L = 4; on a remote
watermark that is not known it sends one query (R184; 17 R432), at each WMTEST, even with one outstanding: the model's
reading (log 33). FABRIC_PAYLOAD_READ sends the packet of the handover it reads, unless that is a FRED that waits: the
packet carries the payload that the core's scratchpad holds then, as the model reads R181 (log 32), is kept until it is
acknowledged, and its outcome is awaited (R181; 17 R431, R433, R439). FRED_LAUNCH_TICK sends the FRED that waited, its
tick reached. A FRED with a launch tick that leaves while the module is out of step sets SW.LATE of its core, which
holds that context still (R181). WMWAIT_EXPIRY: a context whose WMWAIT has waited its job's window ends with cause 0x0E
and detail 5 (R183). -/
def Obligations.WatermarkWaitsAndPackets : Prop :=
  (
  ∀ (f : SF) (s : State), s.clear →
    let wm := (s.regs.src f.sa).toNat % 2 ^ 32
    let known := s.fab.known wm (s.self.job.getD fwJob)
    let pd := f.imm.toNat % 16
    exec (.wmwait f) s = .next ((s.returns f 1 (if known = some false then 1 else 0)).onSeq s.unit.core
      (fun q => { q with waitTick := none })) ∧
    (known = some true → exec (.wmtest f) s = .next (s.returns f 4 0 (some (pd, true)))) ∧
    (known = some false → exec (.wmtest f) s = .next (s.returns f 4 2 (some (pd, false)))) ∧
    (known = none → ∃ t, exec (.wmtest f) s = .next t ∧ t.self.ctx = s.regs ∧
      t.self.seq.pend = s.self.seq.pend ++
        [⟨4, s.self.seq.issue, s.unit.unit, .scalar (sDst f) (some s.unit.sLatch) 1 (some (pd, false))⟩] ∧
      (wmModule wm ≠ ownModule → s.sends t (ctrlMsg 6 (wmModule wm) (s.self.job.getD fwJob) 128 wm 0 0)))) ∧
  (
  let late := fun (s t : State) (h : Handoff) => (s.core h.core).cgen = h.cgen → (s.core h.core).job = some h.job →
    (t.core h.core).ctx.sw.late =
      ((s.core h.core).ctx.sw.late || (decide (h.ty = 2) && decide (descTick h.desc ≠ 0) && s.outStep))
  (∀ (c k : Nat) (s : State) (h : Handoff),
    let x := (s.core c).ctx
    let p := h.packet (x.ldRange (descSrc h.desc) (if h.ty = 1 then 0 else descLen h.desc))
    (s.fab.iface.filter (fun h => h.core = c && h.sent.isNone))[k]? = some h → s.fab.fredWaits s.gtick h = false →
    s.fab.window p = true → s.mem.sramBad = [] → s.mem.sramSoft = [] →
    ∃ t u, exec (.fabricPayloadRead c k) s = .next t ∧ t.fab.iface = s.fab.iface.erase h ∧
      t.fab.unacked = s.fab.unacked ++ [u] ∧ u.pkt = p ∧ u.core = h.core ∧ u.due = s.gtick + 100000 ∧ s.sameMem t ∧
      late s t h ∧ ∃ r, t.fab.sent = s.fab.sent ++ [r] ∧ r.seq = p.seq ∧ r.dest = p.dest ∧ r.job = h.job) ∧
  (∀ (c : Nat) (s : State) (h : Handoff) (p : Packet),
    s.fab.iface.find? (fun h => h.core = c && h.ty = 2) = some h → h.sent = some p → descTick h.desc ≤ s.gtick →
    s.fab.window p = true →
    ∃ t u, exec (.fredLaunchTick c) s = .next t ∧ t.fab.iface = s.fab.iface.erase h ∧
      t.fab.unacked = s.fab.unacked ++ [u] ∧ u.pkt = p ∧ s.sameMem t ∧ late s t h)) ∧
  (
  ∀ (s : State) (c : Nat) (k : Core),
    s.cores.find? (fun e =>
      (match e.2.seq.waitTick with | some t => decide (t + s.fab.expiry (e.2.job.getD fwJob) ≤ s.gtick) | none => false) &&
        (s.wmWaits e.1).isSome && e.2.seq.fatal.isNone) = some (c, k) →
    s.core c = k → k.job ≠ none → k.seq.opened = false →
    ∃ t, exec .wmwaitExpiry s = .next t ∧ (t.core c).seq.fatal = some ⟨0x0E, 6, 5, 0⟩ ∧ (t.core c).ctx = k.ctx ∧
      (∀ d, d ≠ c → t.core d = s.core d) ∧ s.sameMem t)

/-! ### Vectors (06_vector_instructions.md R186 to R209) -/

/-- What each source code of a vector word reads (03 R99, R100): a tile row, the column port's lanes (01 R19), a latch,
a scalar register in every lane, an immediate in every lane; an operand port's next vector, whose index then steps (01
R29), the oldest vector of a stream register, which is then gone (01 R28), and zero in every lane. A port that is not
configured for reads is a configuration fault, cause 0x04, and one whose next vector would not lie in the scratchpad a
range fault, cause 0x05. A port reads the scratchpad with the writes that land in its cycle: the model's reading (log
20). Where a row result goes (06 R187): to the pipe's latch alone with WS = 1, to the latch and a tile register whose
bank the slot holds, or to the latch and the scratchpad at a write port's address. A tile register of another slot's
bank is a bank binding fault, cause 0x03 (01 R20), one that a TMIRROR is copying a configuration fault (04 R152), and a
port that does not take the row a configuration or a range fault (01 R29). -/
def Obligations.VectorOperandsAndResults : Prop :=
  (
  ∀ (k : Core) (u : UnitCtx) (f : VF) (w : Nat) (c : BitVec 6), w ∈ [1, 4, 8, 16, 32] →
    let n := c.toNat
    let r := k.vread u f w c
    (n < 16 → r = (k, k.ctx.tile.get 0 (128 * n + u.tile % k.ctx.rows))) ∧
    (16 ≤ n → n < 32 → r.1 = k ∧ ∀ i < 2048 / w,
      let e := 2048 / w * (u.tile % k.ctx.rows) + i
      lane w r.2 i = lane w (k.ctx.tile.get 0 (128 * (n - 16) + e % k.ctx.rows)) (e / k.ctx.rows)) ∧
    (48 ≤ n → n < 52 → r = (k, k.ctx.latchV.get 0 (n - 48))) ∧
    (n = 52 → r.1 = k ∧ ∀ i < 2048 / w, lane w r.2 i = (k.ctx.reg f.opx.toNat).toNat % 2 ^ w) ∧
    (n = 63 → r = (k, 0)) ∧
    (n = 53 → r.1 = k ∧ ∀ i < 2048 / w, lane w r.2 i = immElem (vType f) (f.sc ++ f.opx) % 2 ^ w) ∧
    (32 ≤ n → n < 40 → let p := k.ctx.port.get Port.empty (n - 32)
      (p.configured = true → p.write = false → 0 ≤ p.addr → p.addr + 256 ≤ spadSize u.core k.ctx →
        r.2 = rowOfBytes (k.spadNow.ld p.addr.toNat 256) ∧ r.1.seq = k.seq ∧
        r.1.ctx.port.get Port.empty (n - 32) = p.step) ∧
      (p.configured = false ∨ p.write = true → k.seq.fatal = none →
        r.1.seq.fatal = some ⟨0x04, u.slot, 0, u.bundle⟩) ∧
      (p.configured = true → p.write = false → p.addr < 0 ∨ (spadSize u.core k.ctx : Int) < p.addr + 256 → k.seq.fatal = none →
        r.1.seq.fatal = some ⟨0x05, u.slot, 0, u.bundle⟩ ∧ r.1.ctx = k.ctx)) ∧
    (40 ≤ n → n < 48 → let q := k.ctx.stream.get Stream.empty (n - 40)
      (∀ v rest, q.vecs = v :: rest → r.2 = v ∧ r.1.seq = k.seq ∧
        (r.1.ctx.stream.get Stream.empty (n - 40)) = { q with vecs := rest }) ∧
      (q.vecs = [] → q.bound = false → k.seq.fatal = none → r.1.seq.fatal = some ⟨0x04, u.slot, 0, u.bundle⟩))) ∧
  (
  ∀ (k : Core) (u : UnitCtx) (f : VF) (l w : Nat) (v : Row), k.seq.fatal = none →
    let d := f.dst.toNat
    let r := k.vwrite u f l w v
    let sent := fun (e : List LandEff) => k.seq.pend ++ e.map (fun e => ⟨l, k.seq.issue, u.unit, e⟩)
    (f.ws = 1 → r.ctx = k.ctx ∧ r.seq.pend = sent [.row (u.unit - 3) none v]) ∧
    (f.ws ≠ 1 → d < 32 → k.pairing (d % 16) = true → k.ctx.mayWrite k.ctx.bank (u.slot - 1) (d % 16) = true →
      r.seq.fatal = some ⟨0x04, u.slot, 0, u.bundle⟩) ∧
    (f.ws ≠ 1 → d < 32 → k.pairing (d % 16) = false →
      (k.ctx.mayWrite k.ctx.bank (u.slot - 1) (d % 16) = true → r.ctx = k.ctx ∧ r.seq.fatal = none ∧
        r.seq.pend = sent [.row (u.unit - 3) (some (d % 16, u.tile, decide (16 ≤ d), w)) v]) ∧
      (k.ctx.mayWrite k.ctx.bank (u.slot - 1) (d % 16) = false → r.seq.fatal = some ⟨0x03, u.slot, 0, u.bundle⟩)) ∧
    (f.ws ≠ 1 → 32 ≤ d → let p := k.ctx.port.get Port.empty (d - 32)
      (p.configured = true → p.write = true → 0 ≤ p.addr → p.addr + 256 ≤ spadSize u.core k.ctx →
        r.seq.fatal = none ∧ r.ctx.port.get Port.empty (d - 32) = p.step ∧
        r.seq.pend = sent [.row (u.unit - 3) none v, .spad p.addr.toNat (rowBytes v)]) ∧
      (p.configured = false ∨ p.write = false → r.seq.fatal = some ⟨0x04, u.slot, 0, u.bundle⟩ ∧ r.seq.pend = k.seq.pend) ∧
      (p.configured = true → p.write = true → p.addr < 0 ∨ (spadSize u.core k.ctx : Int) < p.addr + 256 →
        r.seq.fatal = some ⟨0x05, u.slot, 0, u.bundle⟩ ∧ r.seq.pend = k.seq.pend)))

/-- VADD, VSUB, VMUL, VFMA, VFMS, VMAX, VMIN, VABS and VNEG on an integer type: each lane is the exact result, saturated
to the type with RM = 0 and wrapped with another RM (06 R189, R194). VAND, VOR and VXOR work on the bits of whole rows;
VSHL, VSHR and VSAR shift each lane by its own unsigned amount, and an amount of the width or more leaves zeros, or
copies of the sign (06 R190, R196). -/
def Obligations.IntegerAndBitLanes : Prop :=
  (
  ∀ (f : VF) (s : State), let t := vType f
    t ∈ [ETy.i8, .i16, .i32, .u32] →
    let w := t.w
    let x1 := s.self.srcs s.unit f w 0 0
    let x2 := s.self.srcs s.unit f w w 0
    let x3 := s.self.srcs s.unit f w w w
    let is := fun (e : Int) (v : Nat) =>
      if f.rm = 0 then t.int v = min (max e t.range.1) t.range.2 else (v : Int) = e % 2 ^ w
    let at_ := fun (r : Row) (i : Nat) => t.int (lane w r i)
    (s.vectorReady f w (w, w, 0) →
      (∃ r, s.vectorResult (.vadd f) f 2 w (w, w, 0) r Flags.none ∧
        ∀ i < 2048 / w, is (at_ x2.a i + at_ x2.b i) (lane w r i)) ∧
      (∃ r, s.vectorResult (.vsub f) f 2 w (w, w, 0) r Flags.none ∧
        ∀ i < 2048 / w, is (at_ x2.a i - at_ x2.b i) (lane w r i)) ∧
      (∃ r, s.vectorResult (.vmul f) f 4 w (w, w, 0) r Flags.none ∧
        ∀ i < 2048 / w, is (at_ x2.a i * at_ x2.b i) (lane w r i)) ∧
      (∃ r, s.vectorResult (.vmax f) f 2 w (w, w, 0) r Flags.none ∧
        ∀ i < 2048 / w, at_ r i = max (at_ x2.a i) (at_ x2.b i)) ∧
      (∃ r, s.vectorResult (.vmin f) f 2 w (w, w, 0) r Flags.none ∧
        ∀ i < 2048 / w, at_ r i = min (at_ x2.a i) (at_ x2.b i))) ∧
    (s.vectorReady f w (w, w, w) →
      (∃ r, s.vectorResult (.vfma f) f 4 w (w, w, w) r Flags.none ∧
        ∀ i < 2048 / w, is (at_ x3.a i * at_ x3.b i + at_ x3.c i) (lane w r i)) ∧
      (∃ r, s.vectorResult (.vfms f) f 4 w (w, w, w) r Flags.none ∧
        ∀ i < 2048 / w, is (at_ x3.a i * at_ x3.b i - at_ x3.c i) (lane w r i))) ∧
    (s.vectorReady f w (w, 0, 0) →
      (∃ r, s.vectorResult (.vabs f) f 1 w (w, 0, 0) r Flags.none ∧
        ∀ i < 2048 / w, is ((at_ x1.a i).natAbs : Int) (lane w r i)) ∧
      (∃ r, s.vectorResult (.vneg f) f 1 w (w, 0, 0) r Flags.none ∧
        ∀ i < 2048 / w, is (-(at_ x1.a i)) (lane w r i)))) ∧
  (
  ∀ (f : VF) (s : State), let w := (vType f).w
    s.vectorReady f w (w, w, 0) →
    let x := s.self.srcs s.unit f w w 0
    let gives := fun (i : Instr) (l : Nat) (p : Row → Prop) => ∃ r, s.vectorResult i f l w (w, w, 0) r Flags.none ∧ p r
    gives (.vand f) 1 (fun r => ∀ i < 2048, r.getLsbD i = (x.a.getLsbD i && x.b.getLsbD i)) ∧
    gives (.vor f) 1 (fun r => ∀ i < 2048, r.getLsbD i = (x.a.getLsbD i || x.b.getLsbD i)) ∧
    gives (.vxor f) 1 (fun r => ∀ i < 2048, r.getLsbD i = (x.a.getLsbD i != x.b.getLsbD i)) ∧
    gives (.vshl f) 2 (fun r => ∀ i < 2048 / w, lane w r i = lane w x.a i * 2 ^ lane w x.b i % 2 ^ w) ∧
    gives (.vshr f) 2 (fun r => ∀ i < 2048 / w, lane w r i = lane w x.a i / 2 ^ lane w x.b i) ∧
    gives (.vsar f) 2 (fun r => ∀ i < 2048 / w,
      (lane w r i : Int) = ((lane w x.a i : Int).bmod (2 ^ w)) / 2 ^ lane w x.b i % 2 ^ w))

/-- The same instructions on FP32, BF16 and FP16: each lane is the exact result of its lanes, denormals flushed where
FPCTL.FZ says so, rounded once under the mode in force, and the flags of the lanes together are the operation's (06
R189, R194; 02 R56, R57, R65, R66). VRCP, VRSQ, VEXP2 and VLOG2 give the defined result of R80, to 12 bits or to FP32
first and then to the destination (06 R195); that the model's `approx` computes these in fixed point is its reading, and
VRCP just above 2^-128 its choice (log 9). -/
def Obligations.FloatingPointLanes : Prop :=
  ∀ (f : VF) (s : State), let t := vType f
    t ∈ [ETy.f32, .bf16, .f16] →
    let w := t.w
    let mode := vMode s.regs f
    let v := fun (r : Row) (i : Nat) => t.valFz s.regs.fz (lane w r i)
    let draw := fun (i : Nat) => rbOf mode (drawOf s.regs s.unit) s.unit.tile i
    let rounded := fun (i : Nat) (e : FVal × Flags) =>
      ((t.ofVal mode (draw i) s.regs.fz false e.1).1, e.2.or (t.ofVal mode (draw i) s.regs.fz false e.1).2)
    let plain := fun (e : FVal) => ((t.ofVal .rne 0 false false e).1, Flags.none)
    let gives := fun (i : Instr) (l : Nat) (ws : Nat × Nat × Nat) (g : Nat → Nat × Flags) =>
      ∃ r, s.vectorResult i f l w ws r (Flags.all ((List.range (2048 / w)).map (fun i => (g i).2))) ∧
        ∀ i < 2048 / w, lane w r i = (g i).1 % 2 ^ w
    let x1 := s.self.srcs s.unit f w 0 0
    let x2 := s.self.srcs s.unit f w w 0
    let x3 := s.self.srcs s.unit f w w w
    (s.vectorReady f w (w, w, 0) →
      gives (.vadd f) 2 (w, w, 0) (fun i => rounded i ((v x2.a i).add mode (v x2.b i))) ∧
      gives (.vsub f) 2 (w, w, 0) (fun i => rounded i ((v x2.a i).add mode (v x2.b i).neg)) ∧
      gives (.vmul f) 4 (w, w, 0) (fun i => rounded i ((v x2.a i).mul (v x2.b i))) ∧
      gives (.vmax f) 2 (w, w, 0) (fun i => plain ((v x2.a i).maxMin true (v x2.b i))) ∧
      gives (.vmin f) 2 (w, w, 0) (fun i => plain ((v x2.a i).maxMin false (v x2.b i)))) ∧
    (s.vectorReady f w (w, w, w) →
      gives (.vfma f) 4 (w, w, w) (fun i => rounded i ((v x3.a i).fma mode (v x3.b i) (v x3.c i))) ∧
      gives (.vfms f) 4 (w, w, w) (fun i => rounded i ((v x3.a i).fma mode (v x3.b i) (v x3.c i).neg))) ∧
    (s.vectorReady f w (w, 0, 0) →
      gives (.vabs f) 1 (w, 0, 0) (fun i => plain (v x1.a i).abs) ∧
      gives (.vneg f) 1 (w, 0, 0) (fun i => plain (v x1.a i).neg) ∧
      gives (.vrcp f) 8 (w, 0, 0) (fun i => approx .rcp t mode (draw i) s.regs.fz (lane w x1.a i)) ∧
      gives (.vrsq f) 8 (w, 0, 0) (fun i => approx .rsq t mode (draw i) s.regs.fz (lane w x1.a i)) ∧
      gives (.vexp2 f) 8 (w, 0, 0) (fun i => approx .exp2 t mode (draw i) s.regs.fz (lane w x1.a i)) ∧
      gives (.vlog2 f) 8 (w, 0, 0) (fun i => approx .log2 t mode (draw i) s.regs.fz (lane w x1.a i)))

/-- Rounding a value that a format holds gives back its own code without a flag, in every mode and for every format
(02 R50, R51, R57, R63): rounding loses nothing that fits. -/
def Obligations.RoundingKeepsRepresentableValues : Prop :=
  ∀ f ∈ [Fmt.f32, Fmt.bf16, Fmt.f16, Fmt.e4m3, Fmt.e5m2, Fmt.e2m1], ∀ (mode : Rm) (rb code : Nat),
    code < 2 ^ (f.mb + f.eb + 1) → f.val code ≠ .nan → f.round mode rb false (f.val code) = (code, Flags.none)

/-- VCMP makes each lane all ones or zero by the condition of R197; VSEL takes a lane of source 1 where the mask's lane
is not zero (R198); VTEST has no row but a predicate, any or all lanes being not zero (R199). VBCAST, VSHUF, VROT,
VCOMPRESS and VMOV move whole lanes (R205 to R208): the lane {SC, OPX} to every lane, the lane each index names modulo
the lane count, a rotation down, the lanes whose mask is not zero packed from lane 0 with zeros above, and the row as it
stands. VRAND fills the row with the generator's words, as FP32 numbers in [0, 1) or as UINT32 (R209). -/
def Obligations.CompareSelectAndMoveLanes : Prop :=
  (
  ∀ (f : VF) (s : State), let t := vType f
    let w := t.w
    let cc := f.sc.toNat % 8
    let x2 := s.self.srcs s.unit f w w 0
    let x3 := s.self.srcs s.unit f w w w
    let ordered := fun (a : Nat) (lt eq un : Prop) =>
      (cc = 0 → (a = 2 ^ w - 1 ↔ eq) ∧ (a = 0 ↔ ¬eq)) ∧ (cc = 1 → (a = 2 ^ w - 1 ↔ un ∨ ¬eq)) ∧ (cc = 2 → (a = 2 ^ w - 1 ↔ lt)) ∧
      (cc = 3 → (a = 2 ^ w - 1 ↔ lt ∨ eq)) ∧ (cc = 4 → (a = 2 ^ w - 1 ↔ ¬un ∧ ¬lt ∧ ¬eq)) ∧
      (cc = 5 → (a = 2 ^ w - 1 ↔ ¬un ∧ ¬lt)) ∧ (cc = 6 → (a = 2 ^ w - 1 ↔ un)) ∧ (cc = 7 → (a = 2 ^ w - 1 ↔ ¬un)) ∧
      (a = 0 ∨ a = 2 ^ w - 1)
    (s.vectorReady f w (w, w, 0) → ∃ r, s.vectorResult (.vcmp f) f 2 w (w, w, 0) r Flags.none ∧ ∀ i < 2048 / w,
      (t.isF = true → let a := t.valFz s.regs.fz (lane w x2.a i)
        let b := t.valFz s.regs.fz (lane w x2.b i)
        ordered (lane w r i) (a.lt false b = true) (a.eqv b = true) (a = .nan ∨ b = .nan)) ∧
      (t.isF = false → ordered (lane w r i) (t.int (lane w x2.a i) < t.int (lane w x2.b i))
        (lane w x2.a i = lane w x2.b i) False)) ∧
    (s.vectorReady f w (w, w, w) → ∃ r, s.vectorResult (.vsel f) f 1 w (w, w, w) r Flags.none ∧
      ∀ i < 2048 / w, lane w r i = if lane w x3.c i ≠ 0 then lane w x3.a i else lane w x3.b i) ∧
    (s.clear → s.mem.sramBad = [] → s.mem.sramSoft = [] → (s.self.vread s.unit f w f.sa).1.seq.fatal = none →
      (s.self.vread s.unit f w f.sa).1.seq.trap = none →
      ∃ t b, exec (.vtest f) s = .next t ∧ s.onlyCore t ∧
        t.self = (s.self.vread s.unit f w f.sa).1.after s.unit 2 (.pred (f.opx.toNat % 16) b none) ∧
        (b = true ↔ if f.opx.getLsbD 4 then ∀ i < 2048 / w, lane w (s.self.vread s.unit f w f.sa).2 i ≠ 0
          else ∃ i < 2048 / w, lane w (s.self.vread s.unit f w f.sa).2 i ≠ 0))) ∧
  (
  ∀ (f : VF) (s : State), let t := vType f
    let w := t.w
    let n := 2048 / w
    let k := f.sc.toNat * 32 + f.opx.toNat
    let x1 := (s.self.srcs s.unit f w 0 0).a
    let x2 := s.self.srcs s.unit f w w 0
    (s.vectorReady f w (w, 0, 0) →
      (k < n → ∃ r, s.vectorResult (.vbcast f) f 1 w (w, 0, 0) r Flags.none ∧ ∀ i < n, lane w r i = lane w x1 k) ∧
      (k < n → ∃ r, s.vectorResult (.vrot f) f 1 w (w, 0, 0) r Flags.none ∧
        ∀ i < n, lane w r i = lane w x1 ((i + k) % n)) ∧
      s.vectorResult (.vmov f) f 1 w (w, 0, 0) x1 Flags.none) ∧
    (s.vectorReady f w (w, w, 0) →
      (∃ r, s.vectorResult (.vshuf f) f 3 w (w, w, 0) r Flags.none ∧
        ∀ i < n, lane w r i = lane w x2.a (lane w x2.b i % n)) ∧
      (∃ r, s.vectorResult (.vcompress f) f 4 w (w, w, 0) r Flags.none ∧
        let kept := (List.range n).filter (fun i => lane w x2.b i ≠ 0)
        ∀ i < n, lane w r i = (kept.map (lane w x2.a)).getD i 0)) ∧
    (s.vectorReady f w (0, 0, 0) → t ∈ [ETy.f32, .u32] →
      ∃ r, s.vectorResult (.vrand f) f 6 w (0, 0, 0) r Flags.none ∧ ∀ i < 64,
        let word := ((drawOf s.regs s.unit).word s.unit.tile i).toNat
        (t = .u32 → lane 32 r i = word) ∧
        (t = .f32 → lane 32 r i = (Fmt.f32.round .rne 0 false (.fin false (word / 256) (-24))).1 % 2 ^ 32)))

/-- VCVT converts lane by lane, its narrow results going to PART of the merged row and its wide ones taken from PART of
source 1 (R200); VQMX and VDQMX quantise and dequantise blocks of 32 lanes with one power-of-two scale each (R201, R202;
02 R84, R55); VPACK and VUNPACK take 8-bit lanes to and from the sub-byte types (R203). -/
def Obligations.ConversionLanes : Prop :=
  ∀ (f : VF) (s : State), let t := vType f
    let w := t.w
    let mode := vMode s.regs f
    let draw := fun (i : Nat) => rbOf mode (drawOf s.regs s.unit) s.unit.tile i
    (let st := ETy.ofCode (f.opx.toNat % 16)
      let part := f.sc.toNat % 32
      let n := 2048 / st.w
      (t.w < st.w → part < st.w / t.w → s.vectorReady f w (st.w, w, 0) →
        let x := s.self.srcs s.unit f st.w w 0
        let one := fun (i : Nat) => cvt t st mode (draw (part * n + i)) s.regs.fz (lane st.w x.a i)
        ∃ r, s.vectorResult (.vcvt f) f 3 w (st.w, w, 0) r (Flags.all ((List.range n).map (fun i => (one i).2))) ∧
          (∀ i < n, lane w r (part * n + i) = (one i).1 % 2 ^ w) ∧
          ∀ i < 2048 / w, i < part * n ∨ part * n + n ≤ i → lane w r i = lane w x.b i) ∧
      (st.w ≤ t.w → s.vectorReady f w (st.w, 0, 0) →
        let x := s.self.srcs s.unit f st.w 0 0
        let one := fun (i : Nat) => cvt t st mode (draw i) s.regs.fz (lane st.w x.a (part * (2048 / w) + i))
        ∃ r, s.vectorResult (.vcvt f) f 3 w (st.w, 0, 0) r (Flags.all ((List.range (2048 / w)).map (fun i => (one i).2))) ∧
          ∀ i < 2048 / w, lane w r i = (one i).1 % 2 ^ w)) ∧
    (let st : ETy := match f.opx.toNat / 4 % 4 with | 0 => .f32 | 1 => .bf16 | _ => .f16
      s.vectorReady f w (st.w, w, 0) →
        let x := s.self.srcs s.unit f st.w w 0
        let block := fun (b : Nat) => mxScale t ((List.range 32).map (fun i => st.valFz s.regs.fz (lane st.w x.a (32 * b + i))))
        let ns := 2048 / st.w
        let part := f.opx.toNat % 4 * 64 + f.sc.toNat
        (f.opx.getLsbD 4 = true → part * (ns / 32) + ns / 32 ≤ 256 →
          ∃ r fl, s.vectorResult (.vqmx f) f 4 w (st.w, w, 0) r fl ∧
            ∀ b < ns / 32, lane 8 r (part * (ns / 32) + b) = (block b).1 % 256) ∧
        (f.opx.getLsbD 4 = false → part * ns + ns ≤ 2048 / w →
          ∃ r fl, s.vectorResult (.vqmx f) f 4 w (st.w, w, 0) r fl ∧
            ∀ i < ns, lane w r (part * ns + i) =
              (if (block (i / 32)).2.2.1 then 0
               else (mxElem t mode (draw (part * ns + i)) (block (i / 32)).2.1 (st.valFz s.regs.fz (lane st.w x.a i))).1) %
                2 ^ w)) ∧
    (let et := ETy.ofCode (f.opx.toNat % 16)
      let part := f.sc.toNat % 32
      s.vectorReady f w (et.w, 8, 0) →
        let x := s.self.srcs s.unit f et.w 8 0
        let one := fun (i : Nat) => let q := part * (2048 / w) + i
          t.ofVal mode (draw i) s.regs.fz false (mxVal et (lane 8 x.b (q / 32)) (lane et.w x.a q))
        ∃ r, s.vectorResult (.vdqmx f) f 4 w (et.w, 8, 0) r (Flags.all ((List.range (2048 / w)).map (fun i => (one i).2))) ∧
          ∀ i < 2048 / w, lane w r i = (one i).1 % 2 ^ w) ∧
    (w < 8 → let at0 := f.sc.toNat % 8 * 256
      (s.vectorReady f w (8, w, 0) → at0 + 256 ≤ 2048 / w → let x := s.self.srcs s.unit f 8 w 0
        ∃ r, s.vectorResult (.vpack f) f 2 w (8, w, 0) r Flags.none ∧
          (∀ i < 256, lane w r (at0 + i) = lane 8 x.a i % 2 ^ w) ∧
          ∀ i < 2048 / w, i < at0 ∨ at0 + 256 ≤ i → lane w r i = lane w x.b i) ∧
      (s.vectorReady f 8 (w, 0, 0) → let x := s.self.srcs s.unit f w 0 0
        ∃ r, s.vectorResult (.vunpack f) f 2 8 (w, 0, 0) r Flags.none ∧ ∀ i < 256,
          let v := lane w x.a (at0 + i)
          lane 8 r i = if f.opx.getLsbD 0 then (((v : Int).bmod (2 ^ w)) % 256).toNat else v))

/-- On integer types VRSUM puts the wrapped sum of the lanes in every lane, VRMAX and VRMIN their extremes, VARGMAX the
lowest number of a lane that holds the largest value, as UINT32, and VSCAN the wrapped sums of each lane and those below
it (R204; 02 R82, R83). On the floating-point types VRSUM and VSCAN add by the fixed pairwise tree in FP32 and convert
at the end, and VRMAX, VRMIN and VARGMAX follow the total order of 02 R64, so that VARGMAX takes -0 below +0: the
model's reading (log 19). -/
def Obligations.ReductionsAndScans : Prop :=
  ∀ (f : VF) (s : State), let t := vType f
    let w := t.w
    let n := 2048 / w
    let x := (s.self.srcs s.unit f w 0 0).a
    let v := fun (i : Nat) => t.int (lane w x i)
    let all := fun (r : Row) (p : Nat → Prop) => ∀ i < n, p (lane w r i)
    let sum := fun (m : Nat) => ((List.range m).map v).sum
    s.vectorReady f w (w, 0, 0) → s.vectorReady f 32 (w, 0, 0) →
    (t ∈ [ETy.i8, .i16, .i32, .u32] →
      (∃ r, s.vectorResult (.vrsum f) f 6 w (w, 0, 0) r Flags.none ∧ all r (fun c => (c : Int) = sum n % 2 ^ w)) ∧
      (∃ r, s.vectorResult (.vrmax f) f 6 w (w, 0, 0) r Flags.none ∧
        all r (fun c => (∀ i < n, v i ≤ t.int c) ∧ ∃ i < n, v i = t.int c)) ∧
      (∃ r, s.vectorResult (.vrmin f) f 6 w (w, 0, 0) r Flags.none ∧
        all r (fun c => (∀ i < n, t.int c ≤ v i) ∧ ∃ i < n, v i = t.int c)) ∧
      (∃ r m, s.vectorResult (.vargmax f) f 6 32 (w, 0, 0) r Flags.none ∧ m < n ∧ (∀ i < n, v i ≤ v m) ∧
        (∀ i < m, v i < v m) ∧ ∀ i < 64, lane 32 r i = m) ∧
      (∃ r, s.vectorResult (.vscan f) f 8 w (w, 0, 0) r Flags.none ∧
        ∀ i < n, (lane w r i : Int) = sum (i + 1) % 2 ^ w)) ∧
    (t ∈ [ETy.f32, .bf16, .f16] →
      let fz := s.regs.fz
      let wide := (lanes w x).map (fun c => (widen t fz c, Flags.none))
      (let y := convertOut f s.regs s.unit 0 (reduce (addF32 fz) (0, Flags.none) wide)
        ∃ r, s.vectorResult (.vrsum f) f 6 w (w, 0, 0) r y.2 ∧ all r (· = y.1 % 2 ^ w)) ∧
      (∃ r, s.vectorResult (.vrmax f) f 6 w (w, 0, 0) r Flags.none ∧
        all r (· = reduce (pickLane t fz true) 0 (lanes w x) % 2 ^ w)) ∧
      (∃ r, s.vectorResult (.vrmin f) f 6 w (w, 0, 0) r Flags.none ∧
        all r (· = reduce (pickLane t fz false) 0 (lanes w x) % 2 ^ w)) ∧
      (∃ r, s.vectorResult (.vargmax f) f 6 32 (w, 0, 0) r Flags.none ∧
        ∀ i < 64, lane 32 r i = (reduce (argPick t fz) (0, 0) (lanes w x).zipIdx).2 % 2 ^ 32) ∧
      (∃ r fl, s.vectorResult (.vscan f) f 8 w (w, 0, 0) r fl ∧ ∀ i < n,
        lane w r i = (convertOut f s.regs s.unit i ((scanOf (addF32 fz) n 11 1 wide).getD i (0, Flags.none))).1 % 2 ^ w))

/-! ### Engines (07_matrix_copy_instructions.md R210 to R245, 13_engines_arbitration.md R368 to R372) -/

/-- A decoupled command enters its slot's queue when it issues, with the word, the bank bindings and the scalar
registers that it uses as they stand then, and nothing else of its core moves (R210, R222, R236; 03 R87). MDRAIN into a
tile register whose bank another slot holds faults with cause 0x03 (01 R20), a copy command that the core's type lacks
with cause 0x0F (R236), and CBIND binds its stream register (01 R28). -/
def Obligations.DecoupledCommandsEnterTheirQueues : Prop :=
  ∀ (f : DF) (s : State), s.clear →
    let u := s.unit
    let c := u.core
    let k := s.self
    let q := unitQueue u.unit
    let op := (u.word >>> 57).toNat
    let carries := fun (t : State) => ∃ d, t.self.eng.queue = k.eng.queue ++ [d] ∧ t.self.eng.tagNext = k.eng.tagNext + 1 ∧
      t.self.eng.fly = k.eng.fly ∧ d.q = q ∧ d.tag = k.eng.tagNext ∧ d.word = u.word ∧ d.naming = u.naming ∧
      d.started = false ∧ d.finished = false ∧ d.guarded = false ∧ d.n = u.n ∧ d.banks = k.ctx.bank ∧ d.rm = k.ctx.rm ∧
      (u.n = 0 → capA q op u.word = true → d.ra = k.ctx.reg ((u.word >>> 33).toNat % 32)) ∧
      (u.n = 0 → capB q op u.word = true → d.rb = k.ctx.reg ((u.word >>> 28).toNat % 32)) ∧
      (u.n ≠ 0 → d.ra = u.cap.c0 ∧ d.rb = u.cap.c1)
    let enters := fun (i : Instr) => ∃ t, exec i s = .next t ∧ s.onlyCore t ∧ t.self.ctx = k.ctx ∧ carries t
    let faults := fun (i : Instr) (cause : Nat) => ∃ t, exec i s = .next t ∧ s.onlySeq t ∧
      t.self.seq.fatal = some ⟨cause, u.slot, 0, u.naming⟩
    (∀ i ∈ [Instr.mmould f, .mflow f, .minit f, .mrun f, .mruns f, .msave f, .mrest f, .mpop f, .mwait f, .cpy f, .cpyt f,
      .cfill f, .carm f, .cwait f], enters i) ∧
    (let free := f.cmd.getLsbD 21 = false ∨ k.ctx.mayWrite k.ctx.bank 2 (f.cmd.extractLsb' 28 4).toNat = true;
      (free → enters (.mdrain f)) ∧ (¬free → faults (.mdrain f) 0x03)) ∧
    (∀ i ∈ [Instr.cgath f, .cscat f, .cring f], (kindOf c ≠ .house → enters i) ∧ (kindOf c = .house → faults i 0x0F)) ∧
    ((kindOf c = .main → enters (.cbcast f)) ∧ (kindOf c ≠ .main → faults (.cbcast f) 0x0F)) ∧
    ((kindOf c ≠ .house → ∃ t, exec (.cbind f) s = .next t ∧ s.onlyCore t ∧ carries t ∧
        (∀ n < 8, t.self.ctx.stream.get Stream.empty n =
          if n = (f.cmd.extractLsb' 18 3).toNat then { k.ctx.stream.get Stream.empty n with bound := true }
          else k.ctx.stream.get Stream.empty n) ∧ t.self.ctx.sreg = k.ctx.sreg) ∧
      (kindOf c = .house → faults (.cbind f) 0x0F))

/-- COMMAND_START takes the head of a queue, its guard evaluated and true, once the engine is free and the accesses it
must follow are performed (13 R368; 03 R102; 11 R333). MMOULD loads a mould image, of the ROM or of the scratchpad, into
its slot (R217, R220, R223), MFLOW sets the flow (R224), MINIT, MRUN and MRUNS take their mould and give their
accumulators its word kind (R225, R226, R229; 01 R22), MDRAIN, MSAVE, MREST and MPOP begin at their first step (R230 to
R232), CARM arms its byte barrier (R245), a wait goes on once its semaphore, byte barrier or ring shows its condition, a
semaphore's count being taken (R240), and a copy whose block keeps every rule is in flight with the block it read, as
many granules to deliver as R372 counts (R233 to R239), CGATH and CSCAT with their index list, CRING with the ring slot
that it claims (R242). A start that a rule forbids faults. A suspended command goes on as it stood (R216). -/
def Obligations.CommandsStart : Prop :=
  ∀ (c q : Nat) (s : State) (d : Cmd),
    let s0 := s.onCore c (·.guardHeads)
    let k := s0.core c
    k.eng.queue.find? (fun d => d.q = q) = some d → k.engStops = false → d.guarded = true → k.engineFree d = true →
    k.storesBefore d = true → (d.acq = true → k.loadsBefore d = true) → s0.ringWaits c d = false → s0.ringShut c d = false →
    s0.claimAhead c d = false → (d.isM = true → s0.mouldPeers c = []) →
    (∀ n, d.signals = some n → s0.semOk c n = true) → s.mem.sramBad = [] → s.mem.sramSoft = [] →
    let starts := fun (t : State) (d' : Cmd) => exec (.commandStart c q) s = .next t ∧
      (t.core c).eng.queue = k.eng.queue.filter (fun x => x.tag ≠ d.tag) ∧ (t.core c).eng.fly = k.eng.fly ++ [d'] ∧
      d'.tag = d.tag ∧ d'.word = d.word ∧ d'.started = true ∧ (t.core c).seq.idleCycles = 0 ∧
      (t.core c).seq.fatal = k.seq.fatal ∧ s.sameMem t
    let faults := fun (e : Nat) => ∃ t, exec (.commandStart c q) s = .next t ∧
      (t.core c).seq.fatal = some ⟨e, 3 + d.q, 0, d.naming⟩ ∧ (t.core c).ctx = k.ctx ∧ s.sameMem t
    let at0 := fun (x : Ctx) (img : List Byte) => ∃ t d', starts t d' ∧ (t.core c).ctx = x ∧ d'.aux = img ∧ d'.finished = false ∧
      d'.prog0 = 0
    (d.started = true → d.isWait = false → ∃ t, starts t d ∧ (t.core c).ctx = k.ctx) ∧
    (d.started = false → d.isM = true → d.prog0 = 0 →
      (d.op = 1 → let rom := d.word.getLsbD 30
        let img := if rom then romImage (d.bits 26 4) else k.ctx.ldRange d.ra.toNat 512
        (rom = false ∧ d.ra.toNat % 64 ≠ 0 → faults 0x09) ∧
        (rom = false ∧ d.ra.toNat % 64 = 0 ∧ spadSize c k.ctx < d.ra.toNat + 512 → faults 0x05) ∧
        (rom = true ∨ (d.ra.toNat % 64 = 0 ∧ d.ra.toNat + 512 ≤ spadSize c k.ctx) →
          (Mould.ofImage img = none → faults 0x0F) ∧
          (∀ m, Mould.ofImage img = some m → ∃ t d', starts t d' ∧ d'.finished = !d.word.getLsbD 25 ∧ d'.aux = img ∧
            (t.core c).ctx = k.ctx.setMould (d.bits 31 2) img))) ∧
      (d.op = 2 → ∃ t d', starts t d' ∧ d'.finished = true ∧ (t.core c).ctx = { k.ctx with flow := d.word.extractLsb' 0 5 }) ∧
      (d.op = 3 → let n := d.bits 21 6 + 1
        (k.ctx.accN < d.bits 27 6 + n ∨ k.ctx.mouldAt (d.bits 19 2) = none → faults 0x04) ∧
        (∀ b m, d.bits 27 6 + n ≤ k.ctx.accN → k.ctx.mouldAt (d.bits 19 2) = some b → Mould.ofImage (mouldBytes b) = some m →
          at0 (k.ctx.setKinds (d.bits 27 6) n m.kind) (mouldBytes b))) ∧
      (d.op = 4 ∨ d.op = 5 → let r := d.run
        (k.ctx.mouldAt r.ml = none → faults 0x04) ∧
        (∀ b m, k.ctx.mouldAt r.ml = some b → Mould.ofImage (mouldBytes b) = some m →
          (∀ e, runCheck k.ctx r m = some e → faults e) ∧
          (runCheck k.ctx r m = none → ∃ t d', starts t d' ∧ (t.core c).ctx = k.ctx.setKinds r.acc 1 m.kind ∧
            d'.aux = mouldBytes b ∧ d'.prog0 = 0 ∧ d'.finished = d.finished))) ∧
      (d.op = 6 → let t := ETy.ofCode (d.bits 17 4)
        let rows := 8 * (d.bits 6 4 + 1)
        let kind := k.ctx.kindOfAcc (d.bits 22 6)
        let stop := (d.n + 1) * (rows * (if kind = 3 then 512 else 16 * t.w))
        let mode := if d.bits 14 3 = 7 then d.rm else d.bits 14 3
        let takes := mode ≠ 4 ∧ drainOk kind t (cmdRA d.word != 0) = true
        (k.ctx.accN ≤ d.bits 22 6 → faults 0x04) ∧
        (d.bits 22 6 < k.ctx.accN → ¬takes → faults 0x0F) ∧
        (d.bits 22 6 < k.ctx.accN → takes → d.word.getLsbD 21 = true →
          (256 * k.ctx.rows < stop → faults 0x04) ∧ (stop ≤ 256 * k.ctx.rows → at0 k.ctx d.aux)) ∧
        (d.bits 22 6 < k.ctx.accN → takes → d.word.getLsbD 21 = false →
          (spadSize c k.ctx < d.rb.toNat + stop → faults 0x05) ∧ (d.rb.toNat + stop ≤ spadSize c k.ctx → at0 k.ctx d.aux))) ∧
      (d.op = 7 ∨ d.op = 8 → let n := d.bits 21 6 + 1
        (k.ctx.accN < d.bits 27 6 + n → faults 0x04) ∧
        (d.bits 27 6 + n ≤ k.ctx.accN → d.ra.toNat % 256 ≠ 0 → faults 0x09) ∧
        (d.bits 27 6 + n ≤ k.ctx.accN → d.ra.toNat % 256 = 0 →
          (spadSize c k.ctx < d.ra.toNat + 65536 * n → faults 0x05) ∧
          (d.ra.toNat + 65536 * n ≤ spadSize c k.ctx → at0 k.ctx d.aux))) ∧
      (d.op = 9 → ((k.ctx.rg (d.bits 0 3)).nslot = 0 → faults 0x04) ∧
        ((k.ctx.rg (d.bits 0 3)).nslot ≠ 0 → at0 k.ctx d.aux))) ∧
    (d.started = false → d.isM = false → d.op = 9 → (2 ^ 24 ≤ d.ra.toNat → faults 0x0F) ∧ (d.ra.toNat < 2 ^ 24 →
      ∃ t d', starts t d' ∧ d'.finished = true ∧
        (let b := (t.core c).ctx.bb.get Barrier.empty (d.bits 17 4);
          b.target = d.ra.toNat ∧ b.count = 0 ∧ b.phase = (k.ctx.bb.get Barrier.empty (d.bits 17 4)).phase))) ∧
    (d.started = false → d.op = 10 →
      let waits := exec (.commandStart c q) s = .next s0
      (d.wKind = 0 → ∃ t d', starts t d' ∧ d'.finished = true ∧ (t.core c).ctx = k.ctx) ∧
      (d.wKind = 1 → s0.semOk c d.wNum = true →
        (d.wVal ≤ s0.semGet c d.wNum → ∃ t d', starts t d' ∧ d'.finished = true ∧
          (d.wNum < 16 → t.semGet c d.wNum = s0.semGet c d.wNum - d.wVal)) ∧
        (s0.semGet c d.wNum < d.wVal → waits)) ∧
      (d.wKind = 2 → let phase := (k.ctx.bb.get Barrier.empty d.wNum).phase
        (phase = decide (d.wVal = 1) → ∃ t d', starts t d' ∧ d'.finished = true ∧ (t.core c).ctx = k.ctx) ∧
        (phase ≠ decide (d.wVal = 1) → waits)) ∧
      (d.wKind = 3 → let r := k.ctx.rg d.wNum
        (r.nslot = 0 → faults 0x04) ∧
        (r.nslot ≠ 0 → r.ready 0 = true → ∃ t d', starts t d' ∧ d'.finished = true ∧ (t.core c).ctx = k.ctx) ∧
        (r.nslot ≠ 0 → r.ready 0 = false → waits))) ∧
    (d.started = false → d.isM = false → let l := k.ctx.ldRange d.ra.toNat 160
      let b := Blk.ofBytes l
      (d.op ∈ [1, 2, 3, 4, 5, 6, 7, 8] → ∀ e, s0.copyCheck c d b = some e → faults e) ∧
      (d.op ∈ [1, 2, 5, 7, 8] → s0.copyCheck c d b = none →
        ∃ t d', starts t d' ∧ d'.blk = l ∧ d'.prog0 = (runBytes d b * runCount d b + 255) / 256 ∧ (t.core c).ctx = k.ctx) ∧
      (d.op = 3 ∨ d.op = 4 → s0.copyCheck c d b = none →
        let at_ := addr64 ((d.rb.toNat : Int) + d.n * b.sstep)
        let n := if d.op = 3 then b.count 1 * b.count 2 else b.count 1
        (d.op = 4 ∨ at_ % 4 = 0) → at_ + 4 * n ≤ spadSize c k.ctx →
        ∃ t d', starts t d' ∧ d'.blk = l ∧ (t.core c).ctx = k.ctx ∧
          (∀ i < n, d'.index i = ofLe (k.ctx.ldRange (at_ + 4 * i) 4)) ∧
          d'.prog0 = (if d.op = 3 then b.count 2 else (runBytes d b * b.count 1 + 255) / 256)) ∧
      (d.op = 6 → s0.copyCheck c d b = none → s0.ringCheck c d = none → d.cont = false → d.slotNo = none →
        let n := d.bits 18 3
        let g := (s0.core (d.ringCore c)).ctx.rg n
        ∃ t d', starts t d' ∧ d'.blk = l ∧ d'.slotNo = some g.tail ∧
          (t.core (d.ringCore c)).ctx = ((s0.core (d.ringCore c)).ctx.setRg n g.claim) ∧
          d'.prog0 = (runBytes d b * runCount d b + 255) / 256))

/-- COMMAND_RETIRE: a command with all its work done leaves the engine, its exception flags are set and its semaphore is
signalled (R212, R213, R216); a matrix command that is not done goes on by one of its steps: MMOULD with ALL loads the
slot of each core of its cluster whose engine does not use it (R223), MINIT fills an accumulator with the mould's
identity, MDRAIN converts eight rows of its accumulator, word by word, and writes them in turn to the scratchpad or a
tile register, MSAVE and MREST move an accumulator between the array and the scratchpad, as the command sees it (05
R164), and MPOP pops its ring (R225, R230 to R232). -/
def Obligations.CommandsStepAndRetire : Prop :=
  ∀ (c q i : Nat) (s : State) (d : Cmd), (s.core c).flyAt q i = some d →
    let k := s.core c
    let bare := fun (l : List Cmd) => l.map (fun e => { e with old := [] })
    (d.finished = true → (d.rel = true → k.relBefore d = true) → s.mem.invals = [] → s.host.dues = [] →
      d.hs.valid = false → d.hd.valid = false →
      (∀ n, d.signals = some n → n < 16 ∧ s.semGet c n < 65535) →
      ∃ t, exec (.commandRetire c q i) s = .next t ∧ (t.core c).eng.fly = k.eng.fly.filter (fun x => x.tag ≠ d.tag) ∧
        (∀ n, d.signals = some n → t.semGet c n = s.semGet c n + 1) ∧ (t.core c).ctx.sreg = k.ctx.sreg ∧
        ((t.core c).ctx.sw.flags.bits = k.ctx.sw.flags.bits ||| d.flags.bits) ∧ s.sameMem t) ∧
    (d.finished = false → d.isM = true → d.op = 1 → let ml := d.bits 31 2
      let free := fun (p : Nat) => p ∉ d.done ∧ ∀ x ∈ (s.core p).eng.fly, x.usesMould ml = false
      ∃ t, exec (.commandRetire c q i) s = .next t ∧ s.sameMem t ∧
        (∀ p ∈ s.mouldPeers c, free p → (t.core p).ctx = (s.core p).ctx.setMould ml d.aux) ∧
        (∀ p, p ∉ s.mouldPeers c ∨ ¬free p → (t.core p).ctx = (s.core p).ctx) ∧
        ∃ d' : Cmd, (t.core c).eng.fly = k.eng.fly.map (fun e => if e.tag = d.tag then { d' with old := e.old } else e) ∧
          (∀ p, p ∈ d'.done ↔ p ∈ d.done ∨ (p ∈ s.mouldPeers c ∧ free p)) ∧
          (d'.finished = true ↔ ∀ p ∈ s.mouldPeers c, p ∈ d'.done)) ∧
    (d.finished = false → d.isM = true → k.engStops = false → s.mem.sramBad = [] → s.mem.sramSoft = [] →
      let goes := fun (n : Nat) (x : Ctx) (fl : Flags) => ∃ t, exec (.commandRetire c q i) s = .next t ∧ (t.core c).ctx = x ∧
        s.sameMem t ∧ bare (t.core c).eng.fly = bare (k.eng.fly.map (fun e =>
          if e.tag = d.tag then { d with prog0 := d.prog0 + 1, finished := decide (n ≤ d.prog0 + 1), flags := d.flags.or fl } else e))
      let a := d.bits 27 6 + d.prog0
      let n := d.bits 21 6 + 1
      (∀ m, d.op = 3 → d.mould = some m → goes n (k.ctx.setAcc a (List.replicate 16384 m.identity)) Flags.none) ∧
      (d.op = 7 → goes n (k.ctx.stRange (d.ra.toNat + 65536 * d.prog0) (wordsBytes (k.ctx.accWords a))) Flags.none) ∧
      (d.op = 8 → goes n (k.ctx.setAcc a (bytesWords ((k.view d).ldRange (d.ra.toNat + 65536 * d.prog0) 65536))) Flags.none) ∧
      (d.op = 9 → (k.ctx.rg (d.bits 0 3)).ready 0 = true →
        goes (d.bits 3 5 + 1) (k.ctx.setRg (d.bits 0 3) (k.ctx.rg (d.bits 0 3)).pop) Flags.none) ∧
      (d.op = 6 → let t := ETy.ofCode (d.bits 17 4)
        let rows := 8 * (d.bits 6 4 + 1)
        let kind := k.ctx.kindOfAcc (d.bits 22 6)
        let w := if 2 ≤ kind then 32 else t.w
        let mode := Rm.ofCode (if d.bits 14 3 = 7 then d.rm else d.bits 14 3)
        let scale := ETy.f32.valFz d.fz (if cmdRA d.word = 0 then 0x3F800000 else d.ra.toNat % 2 ^ 32)
        let first := d.n * (rows * (16 * w)) + 8 * d.prog0 * (16 * w)
        let word := fun (i j : Nat) =>
          ((k.ctx.accWords (d.bits 22 6)).getD (128 * ((8 * d.bits 10 4 + d.n * rows + 8 * d.prog0 + i) % 128) + j) 0).toNat
        let value := fun (v : Nat) =>
          if kind = 0 then (t.ofVal mode 0 d.fz false ((ETy.f32.valFz d.fz v).mul scale).1).1
          else if kind = 1 ∧ t.isInt = true then (t.ofVal mode 0 d.fz true (.ofInt ((v : Int).bmod (2 ^ 32)))).1
          else if kind = 1 then (t.ofVal mode 0 d.fz false ((FVal.ofInt ((v : Int).bmod (2 ^ 32))).mul scale).1).1
          else v
        kind ≤ 3 → drainOk kind t (cmdRA d.word != 0) = true → (d.word.getLsbD 21 = true → k.pairing (d.bits 28 4) = false) →
        ∃ l fl, l.length = 8 * (16 * w) ∧
          (∀ i < 8, ∀ j < 128, elemAt w (ofLe ((l.drop (i * (16 * w))).take (16 * w))) j = value (word i j) % 2 ^ w) ∧
          (d.word.getLsbD 21 = true → goes (rows / 8) (k.ctx.setTileBytes (d.bits 28 4) first l) fl) ∧
          (d.word.getLsbD 21 = false → goes (rows / 8) (k.ctx.stRange (d.rb.toNat + first) l) fl)))

/-- MRUN_PANEL_READY: an MRUN or MRUNS whose rings are Ready goes on by K-blocks of its panel, its accumulator taking
their products, and with the panel's last K-block its rings are popped where it does not keep them (R226 to R229; 02 R72
to R75, R78). On 8-bit integers each word takes in the exact sum of its K-block's products, those of a sparse A only at
the places that the metadata names, wrapped or saturated (02 R74; R229). COPY_GRANULE_COMPLETE: a granule of a copy in
the scratchpad, one of the 256 that its engine keeps outstanding, arrives where the runs put it: byte for byte for CPY
and for the rows of CSCAT, transposed for CPYT, the row of an index for CGATH, the fill word for CFILL, in each named
core for CBCAST, in the claimed slot, whose count it raises, for CRING, and as a vector for CBIND (R235 to R244; 13
R372). Addresses are taken modulo 2^64, the model's choice (log 24). A command sees the scratchpad as R164 says. -/
def Obligations.PanelsAndGranules : Prop :=
  let bare := fun (l : List Cmd) => l.map (fun e => { e with old := [] })
  (∀ (c n : Nat) (s : State) (d : Cmd) (m : Mould),
    let k := s.core c
    let x := k.view d
    let r := d.run
    let da := if r.ka then d.prog0 else 0
    let db := if r.kb then d.prog0 else 0
    let al := x.ldRange (ringSlot (k.ctx.rg r.rga) da) (r.panelA m)
    let bl := x.ldRange (ringSlot (k.ctx.rg r.rgb) db) (r.panelB m)
    let gl := match r.rgm with | some g => x.ldRange (ringSlot (k.ctx.rg g) da) (128 * r.pitchM) | none => []
    k.eng.fly.find? (fun d => d.isM && (d.op = 4 || d.op = 5) && !d.finished) = some d → k.engStops = false →
    d.mould = some m → flowPat k.ctx ≠ 2 → s.mem.sramBad = [] → s.mem.sramSoft = [] →
    (k.ctx.rg r.rga).ready da = true → (k.ctx.rg r.rgb).ready db = true →
    (∀ g, r.rgm = some g → (k.ctx.rg g).ready da = true ∧ (d.prog1 = 0 → metaOk r (panelRows gl r.pitchM 128) = true)) →
    let go := min n (r.blocks m - d.prog1)
    let acc := k.ctx.accWords r.acc
    let y := runSparse d r m al bl gl go d.prog1 (acc, if d.dense.isEmpty then acc else d.dense, Flags.none)
    let z := if r.rgm.isNone then let z := runBlocks d r m al bl gl go d.prog1 (acc, Flags.none); (z.1, d.dense, z.2) else y
    let left := r.blocks m - (d.prog1 + go)
    (∃ t, exec (.mrunPanelReady c n) s = .next t ∧ s.sameMem t ∧
      (0 < left → (t.core c).ctx = k.ctx.setAcc r.acc z.1) ∧
      (left = 0 → (t.core c).ctx = popPanel (k.ctx.setAcc r.acc z.1) r) ∧
      bare (t.core c).eng.fly = bare (k.eng.fly.map (fun e => if e.tag = d.tag then
        { d with flags := d.flags.or z.2.2, dense := z.2.1, prog1 := if 0 < left then d.prog1 + go else 0,
                 prog0 := if 0 < left then d.prog0 else d.prog0 + 1,
                 finished := if 0 < left then d.finished else decide (r.np ≤ d.prog0 + 1) } else e))) ∧
    (go = 1 → m.family = 1 → d.dense = [] ∨ d.dense.length = 16384 → ∀ i < 128, ∀ j < 128,
      let k0 := 16 * d.prog1
      let a := fun (e : Nat) => (al.getD (i * r.pitchA m + e) 0).toInt
      let b := fun (e : Nat) => (bl.getD (j * r.pitchB m + e) 0).toInt
      let place := fun (g e : Nat) =>
        g * r.m + elemAt (Nat.log2 r.m) (ofLe ((gl.drop (i * r.pitchM)).take r.pitchM)) (g * r.n + e)
      let sum := if r.rgm.isNone then ((List.range 16).map (fun e => a (k0 + e) * b (k0 + e))).sum
        else ((List.range (r.k / r.m)).map (fun g => ((List.range r.n).map (fun e =>
          if k0 ≤ place g e ∧ place g e < k0 + 16 then a (g * r.n + e) * b (place g e) else 0)).sum)).sum
      let v := (acc.getD (128 * i + j) 0).toInt + sum
      z.1.getD (128 * i + j) 0 = BitVec.ofInt 32 (if r.sat then max (-(2 ^ 31)) (min (2 ^ 31 - 1) v) else v))) ∧
  (∀ (c q i g : Nat) (s : State) (d : Cmd) (r off len : Nat),
    let k := s.core c
    let x := k.view d
    let b := Blk.ofBytes d.blk
    let from_ := addr64 (srcAt d b r + off)
    let to_ := addr64 (dstAt d b r + off)
    let src := x.ldRange from_ len
    k.flyAt q i = some d → d.isM = false → d.finished = false → d.failed = none → g < d.prog0 → g ∉ d.done →
    k.inWindow d g = true → k.engStops = false → d.ck ≠ 2 → b.cvt = false → epKind b.src = 0 → epKind b.dst = 0 →
    s.mem.sramBad = [] → s.mem.sramSoft = [] →
    let steps := fun (t : State) => exec (.copyGranuleComplete c q i g) s = .next t ∧ s.sameMem t ∧
      bare (t.core c).eng.fly = bare (k.eng.fly.map (fun e => if e.tag = d.tag then d.did g Flags.none else e))
    let piece := granuleSegs 257 d b g = [(r, off, len)]
    (d.op = 1 ∨ d.op = 4 → piece → (d.op = 4 → ∀ h < g, h ∈ d.done) → from_ + len ≤ spadSize c k.ctx →
      to_ + len ≤ spadSize c k.ctx → ∃ t, steps t ∧ (t.core c).ctx = k.ctx.stRange to_ src) ∧
    (d.op = 2 → piece → to_ + len ≤ spadSize c k.ctx → let n := (ETy.ofCode b.sty).w / 8
      let at_ := fun (o : Nat) => addr64 (srcAt d b r + (o / n : Nat) * (b.dim 1).ss + (r % b.count 0 * n : Nat))
      (ETy.ofCode b.sty).w ∈ [8, 16, 32] → (∀ o, off ≤ o → o < off + len → at_ o + n ≤ spadSize c k.ctx) →
      ∃ t l, steps t ∧ (t.core c).ctx = k.ctx.stRange to_ l ∧ l.length = len ∧
        ∀ o < len, l.getD o 0 = x.spad.get 0 (at_ (off + o) + (off + o) % n)) ∧
    (d.op = 8 → piece → to_ + len ≤ spadSize c k.ctx → ∃ t, steps t ∧
      (t.core c).ctx = k.ctx.stRange to_ ((List.range len).map (fun o => d.rb.extractLsb' (8 * ((off + o) % 8)) 8))) ∧
    (d.op = 7 → piece → d.word.getLsbD 12 = false → from_ + len ≤ spadSize c k.ctx →
      (∀ p ∈ d.castCores c, to_ + len ≤ spadSize p (s.core p).ctx) →
      ∃ t, steps t ∧ (∀ p ∈ d.castCores c, (t.core p).ctx = (s.core p).ctx.stRange to_ src) ∧
        ∀ p, p ∉ d.castCores c → (t.core p).ctx = (s.core p).ctx) ∧
    (d.op = 6 → piece → from_ + len ≤ spadSize c k.ctx → let o := d.ringCore c
      let y := (s.core o).ctx
      let n := d.bits 18 3
      let slot := d.slotNo.getD 0
      let at_ := ((y.rg n).slotAddr slot + to_) % 2 ^ 64
      let sum := (y.rg n).cnt.get 0 slot + len
      at_ + len ≤ spadSize o y → (y.rg n).full.get none slot = none → sum ≤ (y.rg n).slotBytes →
      ∃ t, steps t ∧ (t.core o).ctx.spad = (y.stRange at_ src).spad ∧
        (∀ p, p ≠ o → (t.core p).ctx = (s.core p).ctx) ∧ (∀ p < 8, p ≠ n → (t.core o).ctx.rg p = y.rg p) ∧
        let z := (t.core o).ctx.rg n
        z.head = (y.rg n).head ∧ z.tail = (y.rg n).tail ∧
          (sum < (y.rg n).slotBytes → z.cnt.get 0 slot = sum ∧ z.ph = (y.rg n).ph) ∧
          (sum = (y.rg n).slotBytes → z.cnt.get 0 slot = 0 ∧ ∀ j < 32, slot < 32 →
            z.ph.getLsbD j = if j = slot then !(y.rg n).ph.getLsbD j else (y.rg n).ph.getLsbD j)) ∧
    (d.op = 5 → (∀ h < g, h ∈ d.done) → vectorSegs d b ((vectorOrder d b).getD g 0) = [(r, off, 256)] →
      let at_ := addr64 (srcAt d b r + off)
      let n := d.bits 18 3
      let v := k.ctx.stream.get Stream.empty n
      at_ + 256 ≤ spadSize c k.ctx → v.vecs.length < 8 → ∃ t, steps t ∧
        (t.core c).ctx.stream.get Stream.empty n = { v with vecs := v.vecs ++ [rowOfBytes (x.ldRange at_ 256)] }) ∧
    (d.op = 3 → g = d.done.length → d.pool = 0 → b.count 0 ≤ 256 → 0 < b.count 0 → let e := d.index (g * b.count 1 + d.prog1)
      let at_ := addr64 ((epBase b.src : Int) + (e : Int) * (b.dim 1).ss)
      let into := addr64 ((epBase b.dst : Int) + d.stepD b + ((d.prog1 : Int) * (b.dim 1).ds + (g : Int) * (b.dim 2).ds))
      d.rows.find? (fun y => y.1 = e) = none →
      (∀ m < b.count 1, d.index (g * b.count 1 + m) ≠ e → (d.rowOf (d.index (g * b.count 1 + m))).isSome) →
      at_ + b.count 0 ≤ spadSize c k.ctx → into + b.count 0 ≤ spadSize c k.ctx →
      ∃ t, exec (.copyGranuleComplete c q i g) s = .next t ∧ s.sameMem t ∧
        (t.core c).ctx = k.ctx.stRange into (x.ldRange at_ (b.count 0)))) ∧
  (∀ (d : Cmd) (b : Blk) (y : Nat → Nat), d.op = 1 → (∀ j, y j < b.count j) →
    let n := fun (j : Nat) => b.count j
    let r := y 1 + n 1 * (y 2 + n 2 * (y 3 + n 3 * (y 4 + n 4 * (y 5 + n 5 * y 6))))
    let dadj := d.word.getLsbD 20
    srcAt d b r = (epBase b.src : Int) + (if dadj then 0 else (d.rb.toNat : Int)) + d.n * b.sstep +
      ((List.range 6).map (fun j => (y (j + 1) : Int) * (b.dim (j + 1)).ss)).sum ∧
    dstAt d b r = (epBase b.dst : Int) + (if dadj then (d.rb.toNat : Int) else 0) + d.n * b.dstep +
      ((List.range 6).map (fun j => (y (j + 1) : Int) * (b.dim (j + 1)).ds)).sum)
/-! ### Traps, saves and the end of a context (09_traps_preemption_context.md) -/

/-- TRAP_ENTRY, the drains over: the sequencer record and the discarded commands go to the frame of the next depth,
TDEPTH and SW.CAUSE change, the trap-return entry is pushed, latches and remembered operations are cleared, a busy pipe
counting on, and the handler is entered; every other register stays (R278, R280, R282). With TDEPTH 3, or no handler,
the trap is fatal with cause 0x0F and its cause as the detail (R282). TRAP_RETURN reads the frame back, one level down,
and re-enters the return point; a frame that it refuses ends the context with cause 0x01, and a TDEPTH of 0 with cause
0x0F (R284). -/
def Obligations.TrapsEnterAndReturn : Prop :=
  (∀ (c : Nat) (s : State) (x : Trap), let k := s.core c
    k.seq.phase = .trapDrain → k.seq.opened = false → k.drained = true → k.seq.fatal = none → k.seq.trap = some x →
    (k.ctx.tdepth < 3 → s.handlerOf c x.cause ≠ 0 → k.ctx.ras.length < 16 → k.ctx.depth ≠ 0xFFFFFFFF →
      ∃ t, exec (.trapEntry c) s = .next t ∧ s.sameMem t ∧ (let y := t.core c;
        y.seq.pc = s.handlerOf c x.cause ∧ y.seq.phase = .run ∧ y.seq.resume = 0 ∧
        (∀ u ∈ unitList, y.seq.pipes.get Pipe.empty u = { Pipe.empty with beats := (k.seq.pipes.get Pipe.empty u).beats }) ∧
        y.eng.queue = [] ∧ y.eng.fly = [] ∧ y.ctx.tdepth = k.ctx.tdepth + 1 ∧ y.ctx.sw.cause = BitVec.ofNat 6 x.cause ∧
        y.ctx.ras = (k.seq.pc % 2 ^ 57 / 4 * 4 + 1) :: k.ctx.ras ∧ y.ctx.depth = k.ctx.depth + 1 ∧
        y.ctx.latchV = [] ∧ y.ctx.latchS = [] ∧ y.ctx.sreg = k.ctx.sreg ∧ y.ctx.predV = k.ctx.predV ∧ y.ctx.acc = k.ctx.acc ∧
        y.ctx.tile = k.ctx.tile ∧
        y.ctx.spad = (k.ctx.st (spadSize c k.ctx - 4096 - 4096 * (k.ctx.tdepth + 1))
          (seqRecord k.seq.pc x.unit k.seq.rep x.cause k.seq k.eng x.info0 x.info1)).spad)) ∧
    (k.ctx.tdepth = 3 ∨ s.handlerOf c x.cause = 0 → ∃ t, exec (.trapEntry c) s = .next t ∧ (t.core c).seq.phase = .fatal ∧
      (t.core c).seq.fatal.map (fun y => (y.cause, y.detail)) = some (0x0F, x.cause) ∧ (t.core c).ctx = k.ctx)) ∧
  (∀ (c : Nat) (s : State), let k := s.core c
    let l := k.ctx.ld (spadSize c k.ctx - 4096 - 4096 * k.ctx.tdepth) 4096
    k.seq.phase = .trapRet → k.seq.opened = false → k.enginesDone = true → k.repliesIn = true → k.seq.fatal = none →
    s.mem.sramBad = [] → s.mem.sramSoft = [] →
    (k.ctx.tdepth ≠ 0 → recordBad l = false →
      ∃ t, exec (.trapReturn c) s = .next t ∧ s.sameMem t ∧ (let y := t.core c;
        y.ctx.tdepth = k.ctx.tdepth - 1 ∧ y.seq.pc = num l 0 8 % 2 ^ 57 ∧ y.seq.resume = num l 8 1 % 16 ∧
        y.seq.phase = (if (recordCmds s (k.job.getD fwJob) l false).isEmpty then .run else .replay) ∧ y.seq.trap = none ∧
        y.ctx.sw.resume = num l 8 1 % 16 ∧ y.ctx.sreg = k.ctx.sreg ∧ y.ctx.spad = k.ctx.spad ∧ y.ctx.ras = k.ctx.ras)) ∧
    (k.ctx.tdepth ≠ 0 → recordBad l = true → ∃ t, exec (.trapReturn c) s = .next t ∧ (t.core c).seq.phase = .fatal ∧
      (t.core c).seq.fatal.map (·.cause) = some 0x01) ∧
    (k.ctx.tdepth = 0 → ∃ t, exec (.trapReturn c) s = .next t ∧ (t.core c).seq.phase = .fatal ∧
      (t.core c).seq.fatal.map (·.cause) = some 0x0F))

/-- PREEMPTION_REQUEST reserves a save slot, sets SW.PREQ and starts the countdown of DEADLINE on the running core that
the scheduler asks to give way to an item that no waiting core may take: of the cores entitled to it that run a task of
a greater class and have no request, the one of the greatest class, and of those the highest number (12 R362; 09 R287).
DEADLINE_EXPIRY strikes once the countdown stands at zero: while TEND waits, at once, that transfer pending; an issue
that nothing holds back completes first; one that a unit's condition holds back is split there, the units before it
committing, and one with a BLOCK that would open a block is split at that unit, if it comes first; one that its branch
holds back does not begin (R287, R288). The RESUME 0 with which a waiting TEND is saved, and the one at which a
held-back branch is, are the model's choice (log 10). FORCED_SAVE and COOPERATIVE_SAVE, their drains over, the
return-address store refilled and the save area's pages there: the image is written, the task waits in its slot for a
core, and the core goes on at DISPRET without a task (R288, R289; 04 R140, R145; 12 R362; 15 R409). Where the pages are
in the die's cache, the slot holds the image of R289: the context header of R290, with the SW that the save leaves, the
sequencer record, which of a cooperative save has RESUME 0 and no records, the stream registers, rings, barriers, tiles,
accumulators and the scratchpad; no byte outside the slot's image changes. -/
def Obligations.PreemptionAndSaves : Prop :=
  (
  (∀ (c slot : Nat) (s : State) (j : Job) (x : Item) (before rest : List Item) (task : Task), s.jobOf c = some j.num →
    s.job j.num = some j → j.items s.gtick = before ++ x :: rest → (∀ y ∈ before, s.askedCore j.num y ≠ some c) →
    (∀ p ∈ x.cores, s.jobOf p = some j.num → (s.core p).offered = false) →
    (∀ e ∈ s.cores, e.2.job = some j.num → e.2.seq.preItem ≠ some x.id) →
    c ∈ x.cores → (s.core c).seq.slot = none → (s.core c).seq.task = some task → x.cls < task.cls →
    (∀ p ∈ x.cores, p ≠ c → s.jobOf p = some j.num → (s.core p).seq.slot = none → ∀ u, (s.core p).seq.task = some u →
      x.cls < u.cls → u.cls < task.cls ∨ (u.cls = task.cls ∧ p < c)) →
    slot < j.saveslots → slot ∉ j.slots →
    ∃ t j', exec (.preemptionRequest c slot) s = .next t ∧ (t.core c).ctx.sw.preq = true ∧
      (t.core c).seq.preempt = some (s.core c).ctx.deadline.toNat ∧ (t.core c).seq.slot = some slot ∧
      t.job j.num = some j' ∧ j'.slots = j.slots ++ [slot] ∧ (t.core c).ctx.sreg = (s.core c).ctx.sreg ∧ s.sameMem t) ∧
  (∀ (c : Nat) (s : State), let k := s.core c
    (k.seq.phase = .run ∨ k.seq.phase = .ending) → k.seq.preempt = some 0 → k.seq.blk = none → k.seq.fatal = none →
    k.seq.opened = false →
    let ready := (s.examine c).2
    (s.examine c).1.mem.sramBad = [] → (s.examine c).1.mem.sramSoft = [] →
    let stops := fun (u : Nat) => ∃ t, exec (.deadlineExpiry c) s = .next t ∧ (t.core c).seq.phase = .saveDrain ∧
      (t.core c).seq.resume = u ∧ (t.core c).ctx.sreg = k.ctx.sreg
    let goesOn := fun (u : Nat) (l : List (UnitCtx × Instr)) => ∃ t, exec (.deadlineExpiry c) s = .next t ∧
      (t.core c).seq.opened = true ∧ (t.core c).seq.split = some u ∧ (t.core c).seq.phase = .run ∧
      (t.agenda.map (·.2)) = l.map (·.2) ++ [.lockstepResultLand c] ∧ (t.core c).ctx.sreg = k.ctx.sreg
    (k.seq.phase = .ending → ∃ t, exec (.deadlineExpiry c) s = .next t ∧ (t.core c).seq.phase = .saveDrain ∧
      (t.core c).seq.resume = 0 ∧ (t.core c).seq.xfer = some .tend ∧ (t.core c).ctx.sreg = k.ctx.sreg ∧ s.sameMem t) ∧
    (k.seq.phase = .run →
      (∀ b p leaf, ready = .issue b p leaf → p.opening = none → goesOn 13 p.units) ∧
      (∀ b p leaf v, ready = .issue b p leaf → p.opening = some v → let units := p.units.filter (fun x => x.1.unit < v)
        v < 13 → (units = [] → stops v) ∧ (units ≠ [] → goesOn v units)) ∧
      (∀ u p leaf, ready = .wait (.unit u) p leaf → p.clash = none → let v := min u (p.opening.getD 13)
        let units := p.units.filter (fun x => x.1.unit < v)
        v < 13 → (units = [] → stops v) ∧ (units ≠ [] → goesOn v units)) ∧
      (∀ p leaf, ready = .wait .branch p leaf → stops (if k.seq.resume ≠ 0 then k.seq.resume else if k.seq.rep ≠ 0 then 1 else 0))))) ∧
  (
  ∀ (c slot : Nat) (s : State) (j : Job) (task : Task), let k := s.core c
    k.job = some j.num → s.job j.num = some j → k.seq.slot = some slot → k.seq.task = some task → k.seq.opened = false →
    k.drained = true → k.seq.stores = [] → s.remoteClaims c = false → k.seq.fatal = none → s.mem.sramBad = [] → s.mem.sramSoft = [] →
    min 16 k.ctx.depth ≤ k.ctx.ras.length →
    (s.jobCheck j.num (coreReq c) true (j.slotVa slot) (k.ctx.imageLen c) (spanFuel (k.ctx.imageLen c))).2 = .ok →
    let saved := fun (t : State) => (let y := t.core c;
      y.seq.task = none ∧ y.seq.phase = .run ∧ y.seq.pc = k.ctx.dispret.toNat % 2 ^ 57 ∧ y.seq.preempt = none ∧ y.seq.slot = none ∧
      y.ctx.sw.preq = false ∧ y.ctx.tdepth = 0 ∧ y.ctx.sreg = k.ctx.sreg ∧ y.ctx.spad = k.ctx.spad ∧ y.job = k.job ∧ y.eng.fly = [] ∧
      ∃ j' v, t.job j.num = some j' ∧ j'.saved = j.saved ++ [v] ∧ v.slot = slot ∧ v.task = task ∧ v.core = c ∧
        v.order = s.sched.saveOrder)
    let image := fun (t : State) (forced : Bool) =>
      let x := k.ctx
      let va := j.slotVa slot
      let at_ := fun (o n : Nat) => s.shows t (dieOf c) j.num (va + o) n
      let flags := x.sw.flags.or (Flags.all (k.eng.fly.map (·.flags)))
      let sw : Status := if forced then { x.sw with flags := flags, cause := 0x22 }
        else { x.sw with flags := flags, preq := false, resume := 0, repidx := 0 }
      let tiles := 0x8000 + x.tileBytes
      let accN := if kindOf c = .main then x.accN else 0
      va % 65536 = 0 → s.writableSpan (dieOf c) j.num va (x.imageLen c) →
      (at_ 0 4 = 0x4C535643 ∧ at_ 4 2 = 1 ∧ at_ 6 2 = forced.toNat ∧ at_ 8 8 = sw.word.toNat ∧ at_ 16 8 = x.pword.toNat ∧
        at_ 24 8 = x.ctxid.toNat ∧ at_ 32 8 = x.deadline.toNat ∧ at_ 40 8 = x.seed.toNat ∧ at_ 48 8 = x.fpctl.toNat ∧
        at_ 56 8 = x.ovfptr.toNat ∧ at_ 64 8 = x.dispret.toNat ∧ at_ 72 4 = x.depth % 2 ^ 32 ∧ at_ 76 1 = x.tdepth % 256 ∧
        at_ 80 2 = (x.predV ||| 1).toNat ∧ at_ 82 2 = (x.predW ||| 1).toNat ∧ at_ 84 1 = x.bank.toNat ∧
        (∀ n < 16, at_ (88 + n) 1 = x.mirror.get 255 n % 256) ∧ at_ 104 1 = x.flow.toNat ∧
        (∀ r < 32, at_ (128 + 8 * r) 8 = (x.reg r).toNat) ∧ (∀ i < 16, at_ (384 + 8 * i) 8 = x.ras.getD i 0 % 2 ^ 64) ∧
        (∀ n < 16, at_ (512 + 16 * n) 8 = (x.h n).va.toNat + (if (x.h n).valid then 2 ^ 63 else 0) ∧
          at_ (520 + 16 * n) 8 = (x.h n).info.toNat) ∧
        (∀ n < 16, at_ (768 + 2 * n) 2 = x.sem.get 0 n % 2 ^ 16)) ∧
      (at_ 0x1000 8 = k.seq.pc % 2 ^ 64 ∧ at_ 0x1008 1 = (if forced then k.seq.resume % 256 else 0) ∧ at_ 0x1009 1 = (if forced then k.seq.rep % 256 else 0) ∧
        at_ 0x100B 1 = (if forced then 0x22 else x.sw.cause.toNat) ∧
        at_ 0x100C 1 = (if forced then (discList k.eng).length % 256 else 0) ∧
        at_ 0x100D 1 = (if forced then (suspList k.eng).length % 256 else 0)) ∧
      (∀ n < 8, (∀ i < 8, at_ (0x2000 + 2048 * n + 256 * i) 256 = ((x.stream.get Stream.empty n).vecs.getD i 0).toNat) ∧
        at_ (0x6000 + 256 * n) 8 = ((x.rg n).base + 2 ^ 15 * (x.rg n).slotb + 2 ^ 27 * (x.rg n).nslot) % 2 ^ 64 ∧
        at_ (0x6008 + 256 * n) 1 = (x.rg n).head % 256 ∧ at_ (0x6009 + 256 * n) 1 = (x.rg n).tail % 256) ∧
      (∀ n < 16, at_ (0x6980 + 8 * n) 8 = (let b := x.bb.get Barrier.empty n;
        (b.target + 2 ^ 24 * b.count + if b.phase then 2 ^ 48 else 0) % 2 ^ 64)) ∧
      (∀ n < 16, ∀ i < x.rows, at_ (0x8000 + 256 * x.rows * n + 256 * i) 256 = (x.tileRow n i).toNat) ∧
      (∀ a < accN, ∀ i < 16384, at_ (tiles + 65536 * a + 4 * i) 4 = (x.acc.get 0 (16384 * a + i)).toNat) ∧
      (∀ i < spadSize c x, at_ (tiles + 65536 * accN + i) 1 = (x.spad.get 0 i).toNat) ∧
      ∀ b, (∀ o < x.imageLen c, s.cachedAt (dieOf c) j.num (va + o) ≠ some b) → t.mem.hbm.get 0 b = s.mem.hbm.get 0 b
    (k.seq.phase = .saveDrain → ∃ t, exec (.forcedSave c) s = .next t ∧ saved t ∧ (t.core c).ctx.sw.cause = 0x22 ∧ image t true) ∧
    (k.seq.phase = .yielding → k.enginesDone = true →
      ∃ t, exec (.cooperativeSave c) s = .next t ∧ saved t ∧ (t.core c).ctx.sw.cause = k.ctx.sw.cause ∧ image t false))

/-- RESTORE: the first item of a waiting core being a saved task, whose image reads well, the core holds the image's
registers and that task, and goes on where the record says; the slot is free again (R291; 12 R351, R362).
HANG_WATCHDOG_EXPIRY: a core whose count has reached HANGLIM takes cause 0x0C, against the slot that is held back
(R292), or for a held-back branch against slot 7, the model's reading (log 27). FATAL_CONTEXT_ERROR ends the context,
its drains over: the core has none, its registers stay as they were, and the job gets a stamp with what the cause is,
or, on a kill, its work back (R293, R294, R518; 12 R355). -/
def Obligations.RestoresAndContextEnds : Prop :=
  (
  ∀ (c i : Nat) (s : State) (x : Item) (j : Job) (v : Saved), let k := s.core c
    k.offered = true → s.firstItem c = some x → x.work = .saved i → s.lowest c x = true → k.seq.opened = false →
    k.enginesDone = true → k.drained = true → k.seq.fatal = none → k.job = some j.num → s.job j.num = some j → j.saved[i]? = some v →
    let s0 := s.onCtx c (fun x => { x with sw := { x.sw with disc := false } })
    ∀ s1 y record handles, s0.readImage c j v = (s1, .ok y record handles) →
    ∀ s2 hs, s1.rehandles j.num (coreReq c) handles = (s2, some hs) →
    ∀ s3 kept j2, s2.regrips j.num (coreReq c) v.kept = (s3, some kept) → s3.job j.num = some j2 → j2.num = j.num →
    recordBad record = false →
    ∃ t j3, exec (.restore c i) s = .next t ∧ (t.core c).ctx.sreg = y.sreg ∧ (t.core c).ctx.predV = y.predV ∧
      (t.core c).ctx.tile = y.tile ∧ (t.core c).ctx.spad = y.spad ∧ (t.core c).ctx.acc = y.acc ∧ (t.core c).ctx.ras = y.ras ∧
      (t.core c).seq.task = some v.task ∧ (t.core c).seq.pc = num record 0 8 % 2 ^ 57 ∧
      (t.core c).seq.resume = num record 8 1 % 16 ∧ (t.core c).seq.waiting = false ∧
      t.job j.num = some j3 ∧ j3.saved = j2.saved.eraseIdx i ∧ j3.slots = j2.slots.erase v.slot) ∧
  (
  (∀ (c : Nat) (s : State) (j : Job), let k := s.core c
    k.job = some j.num → s.job j.num = some j → j.hangLimit ≤ k.seq.idleCycles → k.seq.fatal = none → k.seq.opened = false →
    k.seq.phase = .run →
    ∀ u, k.seq.stall = some u → ∃ t, exec (.hangWatchdogExpiry c) s = .next t ∧ (t.core c).seq.phase = .fatal ∧
      (t.core c).seq.fatal = some ⟨0x0C, (match u with | .branch => 7 | .unit n => (n - 1) / 2), 0, k.seq.pc⟩ ∧
      (t.core c).ctx = k.ctx ∧ s.sameMem t) ∧
  (∀ (c : Nat) (s : State) (j : Job) (x : Fatal), let k := s.core c
    k.job = some j.num → s.job j.num = some j → k.seq.phase = .fatal → k.seq.opened = false → k.drained = true →
    k.seq.stores = [] → k.seq.fatal = some x →
    ∃ t j', exec (.fatalContextError c) s = .next t ∧ (t.core c).job = none ∧ (t.core c).seq.phase = .off ∧
      (t.core c).ctx.sreg = k.ctx.sreg ∧ (t.core c).ctx.spad = k.ctx.spad ∧ (t.core c).ctx.sw.cause = BitVec.ofNat 6 x.cause ∧
      (∀ n < 16, ((t.core c).ctx.h n).valid = false) ∧ t.job j.num = some j' ∧
      (x.cause ≠ 0x13 → j'.frozen = true ∧ ∃ y n, j'.stamps = j.stamps ++ [(y, n)] ∧ y.cause = x.cause ∧ y.slot = x.slot ∧
        y.detail = x.detail ∧ y.addr = x.addr ∧ y.ctxid = k.ctx.ctxid ∧ n = (k.holds.map (·.node)).or k.seq.other) ∧
      (x.cause = 0x13 → j'.gone = j.gone ++ [c])))

/-! ### Tasks and the task graph (12_task_scheduler.md; 04 R146, R147) -/

/-- TASK_COMPLETE: TEND's waits over, what the core held of its node counts as completed, the core's remembered
operations are cleared, a busy pipe counting on, and the core goes on at DISPRET; where that completes no node, every
node keeps its state, and where it completes one alone, that node is done (04 R146; 12 R349, R353; 01 R48). TASK_HANDOFF
gives the first item that a waiting core is entitled to, no lower core taking it, to that core, with its registers s24
to s31, its entry and its class, and the node records it (R351, R353 to R356); TIMED_BLOCK_LAUNCH is the same handover
of a timed block at or past its launch tick, with SW.LATE where the core waited by that tick and the module is out of
step (R356), at whatever later tick it is handed over: the model's reading (log 26). -/
def Obligations.TasksAreHandedOverAndCompleted : Prop :=
  (∀ (c : Nat) (s : State) (j : Job) (x : Task), let k := s.core c
    k.job = some j.num → s.job j.num = some j → k.seq.phase = .ending → k.seq.opened = false → k.enginesDone = true →
    k.repliesIn = true → k.writesDone = true → k.seq.fatal = none → k.seq.task = some x → x.kind ≠ 3 → x.kind ≠ 5 →
    ∃ t j', exec (.taskComplete c) s = .next t ∧ (let y := t.core c;
      y.seq.phase = .run ∧ y.seq.task = none ∧ y.seq.pc = k.ctx.dispret.toNat % 2 ^ 57 ∧ y.seq.preempt = none ∧
      (∀ u ∈ unitList, y.seq.pipes.get Pipe.empty u = { Pipe.empty with beats := (k.seq.pipes.get Pipe.empty u).beats }) ∧
      y.ctx.sreg = k.ctx.sreg ∧ y.ctx.sw.preq = false) ∧ t.job j.num = some j' ∧
      ((∀ m, (j.nodeAt m).cancel = false) →
        ((∀ m, (j.complete_ c).workDone m = false) → ∀ n, (j'.nodeAt n).state = (j.nodeAt n).state ∧
          (j'.nodeAt n).handed = (j.nodeAt n).handed.filter (fun h => h.1 ≠ c) ∧
          (j'.nodeAt n).doneN = (j.nodeAt n).doneN + ((j.nodeAt n).handed.filter (fun h => h.1 = c)).length) ∧
        (∀ n, (j.complete_ c).workDone n = true → (∀ m, m ≠ n → (j.complete_ c).workDone m = false) → (j.tcbAt n).kind = 1 →
          (j'.nodeAt n).state = 3))) ∧
  (∀ (c : Nat) (s : State) (j : Job) (x : Item) (n l : Nat), let k := s.core c
    k.job = some j.num → s.job j.num = some j → k.offered = true → s.firstItem c = some x → s.lowest c x = true →
    x.work = .node n l → x.tcb = n → (j.tcbAt n).levels.length ≤ 6 →
    let handed := fun (t : State) => (∃ task, (t.core c).seq.handed = some task ∧ task.node = n ∧ task.cls = x.cls ∧
        task.entry = (j.tcbAt n).entry ∧ task.s24.getD 6 0 = BitVec.ofNat 64 n ∧
        ((j.tcbAt n).kind = 1 → task.kind = 1 ∧ task.lin = l ∧ task.s24.getD 7 0 = BitVec.ofNat 64 l ∧
          ∀ i < (j.tcbAt n).levels.length,
            task.s24.getD i 0 = BitVec.ofNat 64 ((levelIdx (j.tcbAt n).levels l).getD i 0)) ∧
        ((j.tcbAt n).kind = 2 → task.kind = 2)) ∧
      (t.core c).ctx.sreg = k.ctx.sreg ∧ s.sameMem t ∧
      ∃ j', t.job j.num = some j' ∧ (j'.nodeAt n).state = 2 ∧ (j'.nodeAt n).handed = (j.nodeAt n).handed ++ [(c, l)]
    (∃ t, exec (.taskHandoff c) s = .next t ∧ handed t) ∧
    (l = 0 → (j.tcbAt n).kind = 2 → ∃ t, exec (.timedBlockLaunch c j.num n) s = .next t ∧ handed t ∧
      ((j.tcbAt n).tick ≠ 0 → k.seq.waitFrom ≤ (j.tcbAt n).tick → s.outStep = true → (t.core c).ctx.sw.late = true)))

/-- NODE_RETIRE: a node whose work is done is done, and its successor, armed, has one predecessor left fewer and becomes
ready with the last (R349, R352); of the two successors of a true-or-false branch the one not taken is skipped (R358). A
while node whose condition word is not zero arms each node of its body, gives the first its decrement and waits for the
body again; a body node that is ready or running cancels it with cause 0x0F (R359). BRANCH_NODE_DECIDE reads the
condition word of a ready branch node; one without a continuation is then done, and a word that cannot be read cancels
the node (R358). HOST_SIGNAL_NODE sends event 8 and waits (R361). FAULT_STAMP_SPREAD: the stamp cancels its node and
every node after it that is not done, along the successors of successors; one whose tasks still run is cancelled once
they have ended; a node that is done stays, and the host is told with event 7 (R363, R364). JOB_COMPLETE, every node
ended and no work left: event 17 carries the count of cancelled nodes (R365). -/
def Obligations.NodesStampsAndJobs : Prop :=
  (
  (∀ (n : Nat) (s : State) (j : Job), s.job j.num = some j → j.workDone n = true →
    let x := j.tcbAt n
    let v := (j.nodeAt n).cond
    let awaits := fun (m : Nat) => m ≠ n ∧ (j.tcbAt m).isNode = true ∧ (j.nodeAt m).state = 0
    let body := fun (b : Nat) => x.body ≤ b ∧ b < x.body + x.nbody ∧ (j.tcbAt b).isNode = true
    let busy := fun (b : Nat) => (j.nodeAt b).state = 1 ∨ (j.nodeAt b).state = 2
    (x.kind ≠ 5 ∨ v = 0 →
      ∃ t j', exec (.nodeRetire j.num n) s = .next t ∧ t.job j.num = some j' ∧ (j'.nodeAt n).state = 3 ∧
        (x.kind ≠ 4 → x.kind ≠ 6 → ∀ m, x.succ = [m] → awaits m →
          ((j.nodeAt m).pcount = 1 → (j'.nodeAt m).state = 1 ∧ (j'.nodeAt m).rseq = s.sched.readySeq) ∧
          (1 < (j.nodeAt m).pcount →
            j'.nodeAt m = { j.nodeAt m with pcount := (j.nodeAt m).pcount - 1, live := true })) ∧
        (x.kind = 4 → x.ntrue = 1 → ∀ a b, x.succ = [a, b] → a ≠ b → (∀ m, m = a ∨ m = b → awaits m ∧ (j.nodeAt m).pcount = 1 ∧
            (j.nodeAt m).live = false ∧ (j.tcbAt m).pcount0 ≠ 0 ∧ (j.tcbAt m).succ = []) →
          (j'.nodeAt (if v ≠ 0 then a else b)).state = 1 ∧ (j'.nodeAt (if v ≠ 0 then b else a)).state = 5)) ∧
    (x.kind = 5 → v ≠ 0 → x.body ≠ n →
      ((∀ b, body b → ¬busy b) →
        ∃ t j', exec (.nodeRetire j.num n) s = .next t ∧ t.job j.num = some j' ∧
          j'.nodeAt n = { Node.empty with pcount := x.back } ∧
          (∀ b, body b → b ≠ n → b ≠ x.body → j'.nodeAt b = { Node.empty with pcount := (j.tcbAt b).pcount0 }) ∧
          (body x.body → let p := (j.tcbAt x.body).pcount0
            (1 < p → j'.nodeAt x.body = { Node.empty with pcount := p - 1, live := true }) ∧
            (p ≤ 1 → (j'.nodeAt x.body).state = 1 ∧ (j'.nodeAt x.body).rseq = s.sched.readySeq)) ∧
          ∀ b, ¬body b → b ≠ n → b ≠ x.body → j'.nodeAt b = j.nodeAt b) ∧
      (∀ b, body b → busy b → ∃ t j' y, exec (.nodeRetire j.num n) s = .next t ∧ t.job j.num = some j' ∧
        (j'.nodeAt n).cancel = true ∧ j'.frozen = true ∧ j'.stamps = j.stamps ++ [(y, some n)] ∧ y.cause = 0x0F ∧ y.tcb = n))) ∧
  (∀ (n : Nat) (s : State) (j : Job), s.job j.num = some j → 4 ≤ (j.tcbAt n).kind → (j.tcbAt n).kind ≤ 6 →
    (j.nodeAt n).state = 1 → (j.nodeAt n).decided = false → (j.nodeAt n).cancel = false →
    let cancelled := fun (cause : Nat) => ∃ t j', exec (.branchNodeDecide j.num n) s = .next t ∧ t.job j.num = some j' ∧
      (j'.nodeAt n).cancel = true ∧ j'.frozen = true ∧ ∃ x, j'.stamps = j.stamps ++ [(x, some n)] ∧ x.cause = cause ∧ x.tcb = n
    (∀ s1 l, s.jobRead j.num (nodeReq j.num n) 7 none 0 (j.tcbAt n).cond 8 2 = (s1, .ok l) → s1.job j.num = some j →
      let v := BitVec.ofNat 64 (ofLe l)
      ∃ t j', exec (.branchNodeDecide j.num n) s = .next t ∧ t.job j.num = some j' ∧
        ((j.tcbAt n).entry ≠ 0 → (j'.nodeAt n).decided = true ∧ (j'.nodeAt n).cond = v ∧ (j'.nodeAt n).state = 1) ∧
        ((j.tcbAt n).entry = 0 → (j.tcbAt n).kind ≠ 5 ∨ v = 0 → (j'.nodeAt n).state = 3)) ∧
    (∀ s1, s.jobRead j.num (nodeReq j.num n) 7 none 0 (j.tcbAt n).cond 8 2 = (s1, .none_) → s1.job j.num = some j → cancelled 0x06) ∧
    (∀ s1, s.jobRead j.num (nodeReq j.num n) 7 none 0 (j.tcbAt n).cond 8 2 = (s1, .bad) → s1.job j.num = some j → cancelled 0x0B)) ∧
  (∀ (n : Nat) (s : State) (j : Job), s.job j.num = some j → (j.tcbAt n).kind = 7 → (j.nodeAt n).state = 1 →
    (j.nodeAt n).cancel = false →
    ∃ t j', exec (.hostSignalNode j.num n) s = .next t ∧ t.job j.num = some j' ∧ (j'.nodeAt n).state = 2 ∧
      (j'.nodeAt n).waitEv = some s.host.evNext ∧ t.host.evNext = s.host.evNext + 1 ∧
      t.host.out = s.host.out ++ [(s.host.port, .event s.host.evNext 8 j.num [n, (j.tcbAt n).value.toNat])] ∧
      ∃ w, t.host.waiting = s.host.waiting ++ [w] ∧ w.num = s.host.evNext ∧ w.until_ = none)) ∧
  (
  (∀ (s : State) (j : Job) (x : Stamp) (n : Nat) (rest : List (Stamp × Option Nat)),
    s.liveJobs.find? (fun j => !j.stamps.isEmpty && j.stampEv.isNone) = some j → s.job j.num = some j →
    j.stamps = (x, some n) :: rest → (j.tcbAt n).isNode = true → (j.nodeAt n).state < 3 →
    ∃ t j', exec .faultStampSpread s = .next t ∧ t.job j.num = some j' ∧ j'.stamps = rest ∧ (j'.nodeAt n).state = 4 ∧
      (j'.nodeAt n).stamp = some x ∧
      (∀ m, j.StampReaches n m → (j'.nodeAt m).stamp = some x ∧
        ((j.nodeAt m).state ≠ 2 ∨ (j.nodeAt m).handed = [] → (j'.nodeAt m).state = 4) ∧
        ((j.nodeAt m).state = 2 → (j.nodeAt m).handed ≠ [] → (j'.nodeAt m).state = 2 ∧ (j'.nodeAt m).cancel = true)) ∧
      (∀ m, m ≠ n → (j.tcbAt m).isNode = true → 3 ≤ (j.nodeAt m).state → j'.nodeAt m = j.nodeAt m) ∧
      (s.dutyBit j.num 7 = true ∨ j.stampSent = false → ∃ p num, (p, HostMsg.event num 7 j.num
        [x.tcb, x.cause, x.slot, x.detail, x.addr, x.tick, x.ctxid.toNat]) ∈ t.host.out)) ∧
  (∀ (s : State) (j : Job), s.liveJobs.find? s.jobDone = some j → s.job j.num = some j →
    ∃ t j', exec .jobComplete s = .next t ∧ t.job j.num = some j' ∧ j'.complete = true ∧
      ∃ p num, (p, HostMsg.event num 17 j.num [(j.node.filter (fun e => e.2.state = 4)).length]) ∈ t.host.out))

/-! ### Paging (10_memory_translation.md R305 to R317; 05 R167) -/

/-- PAGE_WALK: the walk of a page puts a resident leaf into the asking die's cache, starts the service of one that is
not resident, and puts a page without a mapping there as such, a malformed entry being reported with event 18 (R302 to
R305, R309). FAULT_SERVICE by hardware: a frame is zeroed, the leaf made resident in it with GEN one higher, and a walk
follows (R309). RAS_REFILL brings the youngest stored return address back from the scratchpad (04 R138, R139).
QSEQ_ADVANCE: QSEQ rises by the periods of 1,024 ticks that have passed, and a frame that no access in flight can reach
is zeroed and goes to its job's released list, or to the reserve (R314). PATROL_SCRUB corrects a correctable error and
counts it, and poisons and logs an uncorrectable block (R316, R317, R520). -/
def Obligations.WalksServicesAndFrames : Prop :=
  (
  (∀ (k : Nat) (s : State) (w : Walk) (j : Job), s.mem.walks[k]? = some w → s.job w.job = some j → s.cleanHbm →
    s.mem.marked w.job w.va = false → s.mem.oldLeaf w.job w.va = none →
    let goes := fun (t : State) => exec (.pageWalk k) s = .next t ∧ t.mem.walks = s.mem.walks.erase w ∧ s.sameMem t
    (∀ pte size e, j.walk s.mem w.va = .leaf pte size e → ptePres e = true →
      ∃ t, goes t ∧ ⟨w.die, w.job, pageOf size w.va, size, some e, false⟩ ∈ t.mem.tcache) ∧
    (∀ pte size e, j.walk s.mem w.va = .leaf pte size e → ptePres e = false →
      ∃ t, goes t ∧ ∃ v ∈ t.mem.services, v.job = w.job ∧ v.page = pageOf size w.va) ∧
    (j.walk s.mem w.va = .nomap → ∃ t, goes t ∧ ⟨w.die, w.job, pageOf 0 w.va, 0, none, false⟩ ∈ t.mem.tcache ∧ t.host = s.host) ∧
    (j.walk s.mem w.va = .malformed → ∃ t, goes t ∧ ⟨w.die, w.job, pageOf 0 w.va, 0, none, false⟩ ∈ t.mem.tcache ∧
      s.tells t (.event s.host.evNext 18 w.job [w.va]))) ∧
  (∀ (k : Nat) (s s1 : State) (v : Service) (j : Job) (pte size pb : Nat) (e : Word), s.mem.services[k]? = some v → v.ev = none →
    s.job v.job = some j → j.walk s.mem v.page = .leaf pte size e → ptePres e = false → hwService s v.job size e = true →
    s.takeFrame j v.die = (s1, some pb) → s.noneWait → (∀ x ∈ s.mem.services, x.job = v.job → x = v) →
    ∃ t, exec (.faultService k) s = .next t ∧ t.mem.rd64 pte = servedLeaf e v.die pb ∧
      (∀ a, hbmKey v.die (65536 * pb) ≤ a → a < hbmKey v.die (65536 * pb) + 65536 → a < pte ∨ pte + 8 ≤ a → t.mem.hbm.get 0 a = 0) ∧
      (∀ x ∈ t.mem.services, ¬(x.job = v.job ∧ x.page = v.page)) ∧ (∃ x ∈ t.mem.walks, x.die = v.die ∧ x.job = v.job)) ∧
  (∀ (c : Nat) (s : State),
    let k := (s.core c).ctx
    let n := k.depth - k.ras.length - 1
    k.ras.length < 16 → k.ras.length < k.depth → n < 512 → s.mem.sramBad = [] → s.mem.sramSoft = [] →
    ∃ t, exec (.rasRefill c) s = .next t ∧
      (t.core c).ctx = { k with ras := k.ras ++ [ofLe (k.ld (spadSize c k - 4096 + 8 * n) 8) % 2 ^ 57] } ∧
      (∀ d, d ≠ c → t.core d = s.core d) ∧ s.sameMem t)) ∧
  (
  (∀ (s : State), let n := s.gtick / 1024 - s.mem.qdiv / 1024
    (s.mem.quar = [] → s.mem.invals = [] → ∃ t, exec .qseqAdvance s = .next t ∧ t.mem.qseq = s.mem.qseq + n ∧ s.sameMem t) ∧
    (∀ q, s.mem.quar = [q] → s.mem.invals = [] → s.births = [] → q.stamp < s.mem.qseq + n →
      let a := hbmKey q.die (65536 * q.pbase)
      ∃ t, exec .qseqAdvance s = .next t ∧ t.mem.qseq = s.mem.qseq + n ∧ t.mem.quar = [] ∧
        (∀ i < 65536, t.mem.hbm.get 0 (a + i) = 0) ∧
        (∀ b, b < a ∨ a + 65536 ≤ b → t.mem.hbm.get 0 b = s.mem.hbm.get 0 b) ∧
        ((s.job q.job).isSome = true → t.mem.released = s.mem.released ++ [q] ∧ t.mem.reserve = s.mem.reserve) ∧
        ((s.job q.job).isSome = false → t.mem.reserve = s.mem.reserve ++ [(q.die, q.pbase)] ∧ t.mem.released = s.mem.released))) ∧
  (∀ (die addr : Nat) (s : State), die ≤ 3 → addr < 0x240000 * 65536 →
    let b := blockOf (hbmKey die addr)
    (s.mem.uncorrectable b = true → ∃ t, exec (.patrolScrub die addr) s = .next t ∧ t.mem.poison.get false b = true ∧
      t.host.elogNew = true ∧ (∃ x rest, t.mem.elog = x :: rest ∧ x.tick = s.gtick ∧ x.reader = 10) ∧ s.sameMem t) ∧
    (s.mem.uncorrectable b = false → s.mem.soft.get false b = true → ∃ t, exec (.patrolScrub die addr) s = .next t ∧
      t.mem.soft.get false b = false ∧ t.mem.cerr.get 0 (b / 2 ^ 32) = s.mem.cerr.get 0 (b / 2 ^ 32) + 1 ∧ s.sameMem t)))

/-- MIGRATION_THRESHOLD: a die's counter at MIGTHRESH tells the host with event 2, or marks the page and takes a frame
there (R311 to R313). MIGRATION copies the marked page, rewrites its leaf and quarantines the old frame, but one that a
unit owns (R313; 14 R381). ACCESS_COUNTER_HALVING halves every counter once in 2^20 ticks but that of a pinned page held
at the threshold (R311, R312). -/
def Obligations.PagesMigrate : Prop :=
  (∀ (va die pte size : Nat) (e : Word) (s : State) (j : Job), s.job j.num = some j →
    j.walk s.mem va = .leaf pte size e → ptePres e = true → j.migthresh ≠ 0 → die ≤ 3 →
    let p := ptePlace size e va
    let key := 4 * frameOf p.key + die
    j.migthresh ≤ s.mem.acc.get 0 key → die ≠ p.die → s.mem.marked j.num va = false →
    (s.dutyBit j.num 0 = true → ∃ t, exec (.migrationThreshold j.num va die) s = .next t ∧ t.mem.acc.get 0 key = 0 ∧
      t.mem.migs = s.mem.migs ∧ s.tells t (.event s.host.evNext 2 j.num [va % 2 ^ 57 / 65536 * 65536, die]) ∧ s.sameMem t) ∧
    (∀ s1 pb, s.dutyBit j.num 0 = false → size = 0 → s.pinned (frameOf p.key) 1 = false →
      s.takeFrame j die = (s1, some pb) →
      ∃ t, exec (.migrationThreshold j.num va die) s = .next t ∧ t.mem.migs = s.mem.migs ++
        [⟨j.num, va % 2 ^ 57 / 65536 * 65536, pte, p.die, ptePbase e, die, pb⟩])) ∧
  (∀ (va : Nat) (s : State) (g : Mig),
    let old := hbmKey g.fromDie (65536 * g.fromPb)
    let new := hbmKey g.toDie (65536 * g.toPb)
    s.mem.migs.find? (fun x => x.job = g.job && x.page = va % 2 ^ 57 / 65536 * 65536 && x.toDie = g.toDie) = some g →
    s.pinned (frameOf old) 1 = false → s.cleanHbm → s.noneWait → Inv s →
    ∃ t, exec (.migration g.job va g.toDie) s = .next t ∧ t.mem.migs = s.mem.migs.erase g ∧
      t.mem.rd64 g.pte = servedLeaf (s.mem.rd64 g.pte) g.toDie g.toPb ∧
      (∀ i < 65536, new + i < g.pte ∨ g.pte + 8 ≤ new + i → t.mem.hbm.get 0 (new + i) = s.mem.hbm.get 0 (old + i)) ∧
      (∀ a, a < new ∨ new + 65536 ≤ a → a < g.pte ∨ g.pte + 8 ≤ a → t.mem.hbm.get 0 a = s.mem.hbm.get 0 a) ∧
      t.mem.quar = s.mem.quar ++
        (if unitFrame (frameId g.fromDie g.fromPb) then [] else [⟨g.fromDie, g.fromPb, s.mem.qseq, g.job⟩])) ∧
  (∀ (s : State), s.mem.halved / 2 ^ 20 < s.gtick / 2 ^ 20 → Tbl.wf 0 s.mem.acc →
    ∃ t, exec .accessCounterHalving s = .next t ∧ t.mem.halved = s.gtick ∧ (∀ k, t.mem.acc.get 0 k =
      if s.mem.held.get false k ∧ s.pinned (k / 4) 1 then s.mem.acc.get 0 k else s.mem.acc.get 0 k / 2) ∧
      t.mem.migs = s.mem.migs ∧ s.sameMem t)

/-! ### Expert vats, the combine unit and reduction windows (08 R251 to R259, R271 to R273; 14; 17 R446 to R449) -/

/-- The vat functions on a core that has them: VTCFG opens a vat of a loop-nest template or configures an open one of
the job, VTENQ places a token record last in its vat and returns the fill, VTFIRE of an empty vat returns 0 and of
another waits for its firing (it takes its turn when it applies: log 29), VTSTAT returns the vat's word, VTCLOSE with
mode 0 frees the records and returns their count; reserved operand bits and another job's vat are refused (R251 to
R256). -/
def Obligations.VatFunctions : Prop :=
  ∀ (f : CF) (s : State), s.clear → s.freshCops →
    let c := s.unit.core
    let a := s.regs.src f.sa
    let b := s.regs.src f.sb
    let job := s.self.job.getD fwJob
    let v := a.toNat % 2 ^ 11
    let x := s.vatAt v
    (kindOf c = .lookup → ∀ i ∈ [Instr.vtcfg f, .vtenq f, .vtfire f, .vtstat f, .vtclose f], ∃ t, exec i s = .next t ∧
      t.self.seq.fatal = some ⟨0x0F, s.unit.slot, 0, s.unit.bundle⟩ ∧ t.self.ctx = s.regs) ∧
    (kindOf c ≠ .lookup →
      let gives := fun (i : Instr) (w : Word) (p : State → Prop) => ∃ t, exec i s = .next t ∧ s.answers t f w ∧ p t
      (a.toNat < 2 ^ 22 → b.toNat < 2 ^ 42 → (x.state = 0 ∨ x.state = 1 ∧ x.owner = job) →
        let tmpl := b.toNat % 2 ^ 20
        let age := b.toNat / 2 ^ 20
        1000 ≤ age → age ≤ 4000000 → (∀ j, s.job job = some j → tmpl < j.ntcb ∧ (j.tcbAt tmpl).kind = 1) → (s.job job).isSome = true →
        gives (.vtcfg f) 0 (fun t => let y := t.vatAt v
          y.state = 1 ∧ y.owner = job ∧ y.tmpl = tmpl ∧ y.age = age ∧ y.prio = a.toNat / 2 ^ 19 ∧
          y.threshold = (if a.toNat / 2 ^ 11 % 2 ^ 8 = 0 then 256 else a.toNat / 2 ^ 11 % 2 ^ 8) ∧
          (x.state = 1 → y.chip = x.chip ∧ y.spill = x.spill))) ∧
      (let y := s.vatAt b.toNat;
        let r := BitVec.ofNat 256 (ofLe (s.self.spadNow.ld a.toNat 32))
        b.toNat < 2 ^ 11 → a.toNat + 32 ≤ spadSize c s.regs → a.toNat % 32 = 0 → s.mem.sramBad = [] → s.mem.sramSoft = [] →
        recReserved r = false → y.state ≠ 0 → y.owner = job → y.closing = none → y.spill = [] → s.vat.poolFree ≠ 0 →
        gives (.vtenq f) (BitVec.ofNat 64 (y.chip.length + 1)) (fun t => ∃ r',
          (t.vatAt b.toNat).chip = y.chip ++ [r'] ∧ (r'.extractLsb' 192 32).toNat = s.gtick % 2 ^ 32 ∧
          r'.getLsbD 155 = false ∧ r'.getLsbD 156 = false ∧ r'.extractLsb' 0 155 = r.extractLsb' 0 155)) ∧
      (a.toNat < 2 ^ 11 → x.owner = job →
        (x.state = 1 → x.total = 0 → gives (.vtfire f) 0 (fun t => t.vatAt v = x)) ∧
        (x.state = 1 → x.total ≠ 0 → ∃ t, exec (.vtfire f) s = .next t ∧ s.asks t f none ∧
          ∃ d, (t.vatAt v).forced = x.forced ++ [d] ∧ (t.vatAt v).chip = x.chip) ∧
        gives (.vtstat f) (x.word s.gtick) (fun t => t.vatAt v = x) ∧
        (x.state = 1 → x.forced = [] → x.closing = none → f.fields.getLsbD 0 = false →
          gives (.vtclose f) (BitVec.ofNat 64 x.total) (fun t => t.vatAt v = Vat.empty))) ∧
      (2 ^ 22 ≤ a.toNat → gives (.vtcfg f) (BitVec.ofNat 64 (2 ^ 63 + 1)) (fun t => t.vat.vats = s.vat.vats)) ∧
      (2 ^ 11 ≤ a.toNat → ∀ i ∈ [Instr.vtfire f, .vtstat f, .vtclose f],
        gives i (BitVec.ofNat 64 (2 ^ 63 + 1)) (fun t => t.vat.vats = s.vat.vats)) ∧
      (a.toNat < 2 ^ 11 → x.state ≠ 0 → x.owner ≠ job → ∀ i ∈ [Instr.vtfire f, .vtstat f, .vtclose f],
        gives i (BitVec.ofNat 64 (2 ^ 63 + 2)) (fun t => t.vat.vats = s.vat.vats)))

/-- FIRING_DECISION fires the vat that R393 ranks first, at most one every 4 ticks: its records, oldest first, stand in
its page, and a firing waits at the scheduler (R392 to R394). VAT_SPILL_STEP moves the youngest on-chip records of the
victim to its spilled run, VAT_REFILL takes spilled ones back, neither changing the vat's order (R387, R388); the record
of an uncorrectable entry is poisoned, logged and a free value (R381). SPILL_REQUEST sends event 3 for a job that is
still to be told that the pool has fallen (R389). REMOTE_ENQUEUE places the record of a committed part in its vat (R384,
R385). The model's choices (log 29): what makes a victim, that VAT_REFILL stops as the free entries fall to 4,095, and
what the record of an uncorrectable entry reads as. -/
def Obligations.VatsFireSpillAndRefill : Prop :=
  (∀ (s : State) (r : Nat × Nat), firstRank s.gtick s.vat.vats = some r → (∀ x, s.vat.lastFire = some x → x + 4 ≤ s.gtick) →
    let v := r.2
    let x := s.vatAt v
    let n := min x.total 256
    let fired := (x.chip ++ x.spill.map recSpilled).take n
    ∀ j, s.job x.owner = some j → j.num = x.owner → s.spillSound x →
      ∃ t j' e, exec .firingDecision s = .next t ∧ (t.vatAt v).state = 2 ∧ (t.vatAt v).chip = x.chip.drop n ∧
        (t.vatAt v).spill = x.spill.drop (n - x.chip.length) ∧ t.vat.lastFire = some s.gtick ∧ t.job j.num = some j' ∧
        j'.firings = j.firings ++ [e] ∧ e.vat = v ∧ e.tmpl = x.tmpl ∧ e.count = n ∧ e.rseq = s.sched.readySeq ∧
        ∀ i, ∀ h : i < fired.length, t.mem.rd (vatPage v + 32 * i) 32 = leBytes 32 fired[i].toNat) ∧
  (∀ (s : State) (r : Nat × Nat), s.vat.spilling = true → (∀ x, s.vat.lastSpill = some x → x + 64 ≤ s.gtick) →
    s.vat.orders = [] → s.vat.poolFree < 4096 → s.vat.spillFree ≠ 0 →
    victim s.gtick (fun x => x.state != 0 && !s.dutyBit x.owner 2) s.vat.vats = some r →
    let x := s.vatAt r.2
    ∃ t, exec .vatSpillStep s = .next t ∧ t.vat.lastSpill = some s.gtick ∧
      (t.vatAt r.2).chip ++ (t.vatAt r.2).spill = x.chip ++ x.spill ∧
      (t.vatAt r.2).chip.length = x.chip.length - min (min 32 (x.movable s.gtick)) s.vat.spillFree) ∧
  (∀ (v : Nat) (s : State), let x := s.vatAt v
    let n := min (min (256 - x.chip.length) x.spill.length) (s.vat.poolFree - 4095)
    (s.spillSound x → ∃ t, exec (.vatRefill v) s = .next t ∧ (t.vatAt v).chip = x.chip ++ (x.spill.take n).map recSpilled ∧
      (t.vatAt v).spill = x.spill.drop n ∧ s.sameMem t ∧ ∀ w, w ≠ v → t.vatAt w = s.vatAt w) ∧
    (∀ r e rest ents, x.spill = r :: rest → x.ent = e :: ents → n = 1 → s.mem.uncorrectable (entryBlock e) = true →
      ∃ t, exec (.vatRefill v) s = .next t ∧ (t.vatAt v).chip = x.chip ++ [recSpilled (Config.freeValue 256 s.free)] ∧
        (t.vatAt v).spill = rest ∧ (t.vatAt v).ent = ents ∧ t.mem.poison.get false (entryBlock e) = true ∧ s.sameMem t ∧
        ∃ y l, t.mem.elog = y :: l ∧ y.tick = s.gtick ∧ y.reader = 7)) ∧
  (∀ (job : Nat) (s : State), s.vat.low.contains job = true → s.vat.fills job ≠ [] →
    ∃ t, exec (.spillRequest job) s = .next t ∧ t.vat.spillEv = s.vat.spillEv ++ [(job, s.host.evNext)] ∧ t.vat.low.contains job = false ∧
      s.tells t (.event s.host.evNext 3 job (s.vat.poolFree :: (s.vat.fills job).flatMap (fun e => [e.1, e.2]))) ∧
      ∃ w, t.host.waiting = s.host.waiting ++ [w] ∧ w.num = s.host.evNext ∧ w.until_ = some (s.gtick + s.hosttmo job)) ∧
  (∀ (s : State) (p : Part) (rest : List Part), s.vat.parts = p :: rest → p.vat < 2048 → p.bytes.length = 32 →
    let x := s.vatAt p.vat
    let r := BitVec.ofNat 256 (ofLe p.bytes)
    (recReserved r = false → x.state ≠ 0 → x.owner = p.job → x.closing = none → x.spill = [] → s.vat.poolFree ≠ 0 →
      ∃ t r', exec .remoteEnqueue s = .next t ∧ t.vat.parts = rest ∧ (t.vatAt p.vat).chip = x.chip ++ [r'] ∧
        r'.getLsbD 156 = true ∧ r'.extractLsb' 0 155 = r.extractLsb' 0 155) ∧
    (recReserved r = true → ∃ t, exec .remoteEnqueue s = .next t ∧ t.vat.parts = rest ∧ t.vat.vats = s.vat.vats ∧
      s.tells t (.event s.host.evNext 22 p.job [p.vat, 1])))

/-- CBSET opens an idle slot for a target that its job holds, where its row is mapped and writable; CBPUT stages a
rank's row and returns the mask; the one that completes the mask writes the combined row, the ranks added in ascending
order, each step rounded to FP32 and a NaN the canonical one, empties the slot and signals; CBSTAT returns the slot's
word (R257 to R259; 14 R397), and REMOTE_PUT applies a committed put like CBPUT (14 R383, R396). While a remote put
waits for a page, the later commands of the unit wait behind it (R247; that they do is read from its order, log 30).
FWIN opens a closed window as its descriptor says, FWSTAT returns its word, and FWCLOSE closes it, an open one with
cause 0x12 for its opener (R271, R273; 17 R446, R449). -/
def Obligations.CombineSlotsAndWindows : Prop :=
  (∀ (f : CF) (s : State), s.clear → s.freshCops → kindOf s.unit.core ≠ .lookup →
    let a := s.regs.src f.sa
    let b := s.regs.src f.sb
    let job := s.self.job.getD fwJob
    let gives := fun (i : Instr) (w : Word) (p : State → Prop) => ∃ t, exec i s = .next t ∧ s.answers t f w ∧ p t
    (s.comb.putting = true → ∀ i ∈ [Instr.cbset f, .cbput f, .cbstat f], ∃ t, exec i s = .next t ∧ s.asks t f none ∧
      t.comb.slots = s.comb.slots) ∧
    (s.comb.waiting = [] → s.comb.putting = false →
      (let n := a.toNat % 2 ^ 16;
        let core := a.toNat / 2 ^ 20 % 2 ^ 6
        let len := rowLen (a.toNat / 2 ^ 31)
        a.toNat < 2 ^ 43 → b.toNat < 2 ^ 57 → a.getLsbD 19 = false → s.jobOf core = some job → (s.slotAt n).k = 0 →
        let mapped := (s.jobMapped job combReq.die b.toNat (4 * len) true (spanFuel (4 * len))).2
        (mapped = true → gives (.cbset f) 0 (fun t => let y := t.slotAt n
          y.k = a.toNat / 2 ^ 16 % 8 + 1 ∧ y.mask = 0 ∧ y.row = b.toNat ∧ y.len = len ∧ y.owner = job ∧
          y.target = some (core, a.toNat / 2 ^ 26 % 32) ∧ y.cgen = (s.core core).cgen ∧ t.comb.waiting = [])) ∧
        (mapped = false → gives (.cbset f) (BitVec.ofNat 64 (2 ^ 63 + 9)) (fun t => t.slotAt n = s.slotAt n))) ∧
      (let n := b.toNat % 2 ^ 16;
        let r := b.toNat / 2 ^ 16
        let y := s.slotAt n
        ∀ l, a.toNat < 2 ^ 57 → b.toNat < 2 ^ 19 → y.k ≠ 0 → y.owner = job → r < y.k → y.mask.getLsbD r = false →
        (s.jobRead job combReq 7 (some s.unit.core) s.regs.ctxid a.toNat (4 * y.len) (spanFuel (4 * y.len))).2 = .ok l →
        s.mem.discarded = [] →
        let mask := setBit y.mask r true
        (mask.toNat ≠ 2 ^ y.k - 1 →
          gives (.cbput f) (BitVec.ofNat 64 mask.toNat) (fun t =>
            t.slotAt n = { y with mask := mask, stage := y.stage.set [] r (bytesWords l) } ∧ t.comb.waiting = [])) ∧
        (mask.toNat = 2 ^ y.k - 1 → s.cleanHbm → s.writableSpan 1 job y.row (4 * y.len) →
          (∀ i < 4 * y.len, s.mem.marked job (a.toNat + i) = false ∧ (s.cachedAt 1 job (a.toNat + i)).isSome = true) →
          (∀ c k, y.target = some (c, k) → c ≠ s.unit.core) →
          let staged := fun (q e : Nat) => ((y.stage.set [] r (bytesWords l)).get [] q).getD e 0
          gives (.cbput f) (BitVec.ofNat 64 (256 + mask.toNat)) (fun t => t.slotAt n = Slot46.empty ∧
            (∃ sum : Nat → Nat → BitVec 32, ∀ e < y.len, sum e 0 = staged 0 e ∧
              (∀ q, q + 1 < y.k → sum e (q + 1) =
                BitVec.ofNat 32 (f32Rne ((f32Val (sum e q).toNat).add .rne (f32Val (staged (q + 1) e).toNat)).1).1) ∧
              s.shows t 1 job (y.row + 4 * e) 4 =
                (if (f32Val (sum e (y.k - 1)).toNat).isNan then 0x7FC00000 else (sum e (y.k - 1)).toNat)) ∧
            (∀ c k, y.target = some (c, k) → s.jobOf c = some y.owner → (s.core c).cgen = y.cgen → s.semOk c k = true →
              s.semGet c k < 65535 → t.semGet c k = s.semGet c k + 1)))) ∧
      (let y := s.slotAt a.toNat;
        a.toNat < 2 ^ 16 → (y.k = 0 → gives (.cbstat f) 0 (fun t => t.comb = s.comb)) ∧
        (y.k ≠ 0 → y.owner = job → gives (.cbstat f) (BitVec.ofNat 64 ((y.k - 1) * 2 ^ 16 + 2 ^ 15 + y.mask.toNat))
          (fun t => t.comb = s.comb)))) ∧
    (let l := s.self.spadNow.ld a.toNat 32;
      let d := WinDesc.of l
      let mould := s.regs.mouldAt (f.fields.toNat % 4)
      ∀ img m, s.fab.waiting = [] → kindOf s.unit.core = .main → a.toNat + 32 ≤ spadSize s.unit.core s.regs → a.toNat % 32 = 0 → s.mem.sramBad = [] →
      s.mem.sramSoft = [] → mould = some img → Mould.ofImage (leBytes 512 img.toNat) = some m → opMatches d.op m = true →
      d.zero = true → (s.windowAt d.win).state = 0 → 4 ≤ d.len → d.len ≤ 2 ^ 24 → d.len % 4 = 0 → 1 ≤ d.count → d.count ≤ 4096 →
      d.timeout ≠ 0 →
      let mapped := (s.jobMapped job winCmdReq.die d.result d.len true (spanFuel d.len)).2
      (mapped = false → gives (.fwin f) (BitVec.ofNat 64 (2 ^ 63 + 9)) (fun t => t.windowAt d.win = s.windowAt d.win)) ∧
      (mapped = true → gives (.fwin f) 0 (fun t => let w := t.windowAt d.win
        w.state = 1 ∧ w.job = job ∧ w.core = s.unit.core ∧ w.result = d.result ∧ w.count = d.count ∧ w.len = d.len ∧ w.op = d.op ∧
        w.sem = d.sem ∧ w.openTick = s.gtick ∧ w.timeout = 1000 * d.timeout ∧ w.bytes = [] ∧ w.staged = []))) ∧
    (let w := s.windowAt a.toNat;
      a.toNat < 2 ^ 12 → s.fab.waiting = [] →
      (w.state = 0 → gives (.fwstat f) 0 (fun t => t.fab = s.fab)) ∧
      (w.state ≠ 0 → w.job = job →
        gives (.fwstat f) (BitVec.ofNat 64 (w.state * 2 ^ 61 + w.arrived)) (fun t => t.fab = s.fab)) ∧
      (w.state = 2 ∨ w.state = 3 → w.job = job →
        gives (.fwclose f) (BitVec.ofNat 64 w.state) (fun t => t.windowAt a.toNat = Window.empty)) ∧
      (w.state = 1 → w.job = job → gives (.fwclose f) 1 (fun t => t.windowAt a.toNat = Window.empty ∧
        s.endsContext t w.core w.cgen w.job 0x12 0)) ∧
      (w.state = 0 → gives (.fwclose f) (BitVec.ofNat 64 (2 ^ 63 + 3)) (fun t => t.fab = s.fab)))) ∧
  (∀ (s : State) (p : Part) (rest : List Part), s.comb.waiting = [] → s.comb.putting = false → s.vat.parts = p :: rest → p.vat = 2048 →
    p.bytes.length = 16 →
    let g := putFields p.bytes
    let y := s.slotAt g.2.1
    let mask := setBit y.mask g.2.2.1 true
    g.2.2.2 = false → y.k ≠ 0 → y.owner = p.job → g.2.2.1 < y.k →
    (∀ l, y.mask.getLsbD g.2.2.1 = false → mask.toNat ≠ 2 ^ y.k - 1 →
      (s.jobRead p.job combReq 7 none 0 g.1 (4 * y.len) (spanFuel (4 * y.len))).2 = .ok l →
      ∃ t, exec .remotePut s = .next t ∧ t.vat.parts = rest ∧
        t.slotAt g.2.1 = { y with mask := mask, stage := y.stage.set [] g.2.2.1 (bytesWords l) }) ∧
    (y.mask.getLsbD g.2.2.1 = true → ∃ t, exec .remotePut s = .next t ∧ t.vat.parts = rest ∧ t.comb = s.comb ∧
      s.tells t (.event s.host.evNext 22 p.job [g.2.1, 5])))

/-! ### Text and grammar units (08_coprocessor_instructions.md R260 to R267; 16_text_grammar_unit.md) -/

/-- A text or grammar command of a main core, the unit of its die being free, is answered with what its function gives,
or with the reason for which it refuses the command; a table miss holds the unit with the command (R247, R249, R260 to
R267; 16 R425). GRMASK answers with its word, its rows and its predicate (R265). COP_REPLY_LAND puts an answer in its
register and latch, with the rows and the predicate that came with it (03 R109; 08 R248), and TABLE_MISS refuses the
command with TABLE, or asks the host with event 5 (16 R425). TXDEC writes the bytes of its tokens in order, as many
whole tokens as fit, and refuses a token outside the vocabulary before it writes (R260, R261; 16 R419). TXENC splits its
input into words at the class boundaries and after 256 bytes, merges the pairs of each, and writes the tokens of as many
whole words as fit (16 R417, R418), by the hash's probing (16 R415). TXNORM maps each code point by its entry's kind,
orders the followers of a segment stably by class, composes by the hash (16 R414, R416), and writes a text of identity
code points as it decodes, as many as fit. The reply says what was consumed and written (R261). -/
def Obligations.TextCommandsAreAnswered : Prop :=
  (
  (∀ (f : CF) (s : State), s.clear → s.freshCops → kindOf s.unit.core = .main →
    let die := dieOf s.unit.core
    let u := s.text.get TextUnit.empty die
    u.queue = [] → u.miss = none →
    (∀ i ∈ [Instr.txnorm f, .txenc f, .txdec f, .grload f, .gradv f, .grstat f, .stopset f, .stopchk f],
      let d := s.copCmd f i
      let w := s.textSent f i
      let work : TM Word := match i with
        | .txnorm _ => txnorm d
        | .txenc _ => txenc d
        | .txdec _ => txdec d
        | .grload _ => grload d (f.fields.getLsbD 0)
        | .gradv _ => gradv d
        | .grstat _ => grstat d
        | .stopset _ => stopset d
        | _ => stopchk d
      ∀ w' : State, w'.cores = w.cores →
        (∀ v, work w = (w', .ok v) → v ≠ copErr 6 →
          ∃ t, exec i s = .next t ∧ s.answers t f v ∧ (t.text.get TextUnit.empty die).queue = [] ∧ t.mem = w'.mem) ∧
        (∀ r, work w = (w', .err r) → r ≠ 6 →
          ∃ t, exec i s = .next t ∧ s.answers t f (BitVec.ofNat 64 (2 ^ 63 + r)) ∧ (t.text.get TextUnit.empty die).queue = []) ∧
        (∀ tab n, work w = (w', .miss tab n) → ∃ t, exec i s = .next t ∧ s.asks t f none ∧
          (t.text.get TextUnit.empty die).miss = some ⟨d, tab, n, none, none⟩)) ∧
    (let d := s.copCmd f (.grmask f);
      let w := s.textSent f (.grmask f)
      let tile := f.fields.toNat % 16
      ∀ w' m, grmask d f.fields (s.regs.mayWrite s.regs.bank 3 tile) w = (w', .ok m) → w'.cores = w.cores →
        ∃ t, exec (.grmask f) s = .next t ∧ t.self.ctx = s.regs ∧ t.self.seq.cops = s.self.seq.cops ++
          [⟨s.self.seq.copNext, f.dst.toNat, s.unit.sLatch, some m.word, m.rows, tile, f.fields.toNat / 2 ^ 4 % 2 ^ 7,
            some (f.fields.toNat / 2 ^ 11 % 16, m.dead), writeKey s.self.seq.issue s.unit.unit⟩])) ∧
  (∀ (c i : Nat) (s : State) (x : Cop) (v : Word), s.comb.waiting = [] → s.fab.waiting = [] →
    (∀ d, (s.text.get TextUnit.empty d).queue = []) → (s.core c).seq.cops[i]? = some x → x.answer = some v → v ≠ copErr 6 →
    ∃ t, exec (.copReplyLand c i) s = .next t ∧ (∀ y ∈ (t.core c).seq.cops, y.id ≠ x.id) ∧
      (x.dst ≠ 0 → x.dst < 32 → (t.core c).ctx.reg x.dst = v ∧ (t.core c).ctx.latchS.get 0 x.latch = v) ∧
      (∀ r, r ≠ x.dst → (t.core c).ctx.reg r = (s.core c).ctx.reg r) ∧
      (∀ p b, x.pred = some (p, b) → 0 < p → p < 16 → (t.core c).ctx.predV.getLsbD p = b ∧ (t.core c).ctx.predW.getLsbD p = true) ∧
      (x.rows = [] → (t.core c).ctx.tile = (s.core c).ctx.tile) ∧ s.sameMem t) ∧
  (∀ (die : Nat) (s : State) (m : Miss) (x : Cop), (s.text.get TextUnit.empty die).miss = some m → m.ok = none → m.ev = none →
    (s.dutyBit m.cmd.job 5 = false → (s.text.get TextUnit.empty die).queue = [] →
      (s.core m.cmd.core).seq.cops.find? (fun y => y.id = m.cmd.id) = some x → x.dst ≠ 0 →
      ∃ t, exec (.tableMiss die) s = .next t ∧ (t.text.get TextUnit.empty die).miss = none ∧
        ∃ y ∈ (t.core m.cmd.core).seq.cops, y.id = m.cmd.id ∧ y.answer = some (BitVec.ofNat 64 (2 ^ 63 + 9))) ∧
    (s.dutyBit m.cmd.job 5 = true → ∃ t, exec (.tableMiss die) s = .next t ∧
      (t.text.get TextUnit.empty die).miss = some { m with ev := some s.host.evNext } ∧
      s.tells t (.event s.host.evNext 5 m.cmd.job [die, m.table, m.idx, textFn m.cmd.op])))) ∧
  (
  (∀ (d : UnitCmd) (w w' : State) (x : TextDesc) (t : TokTab) (l : List Byte) (b : Nat → List Byte),
    textDesc d w = (w, .ok x) → tokTab d x.table w = (w, .ok t) → tmRead d x.inp (4 * x.inLen) w = (w, .ok l) →
    l.length = 4 * x.inLen → x.inLen < 2 ^ 24 → x.cap < 2 ^ 24 →
    let tok := fun i => num l (4 * i) 4
    let upto := fun n => (List.range n).flatMap b
    ((∃ i < x.inLen, t.vocab ≤ tok i) → txdec d w = (w, .err 4)) ∧
    (∀ n ≤ x.inLen, (∀ i < x.inLen, tok i < t.vocab ∧ tokBytes d t (tok i) w = (w, .ok (b i))) →
      tableRegion d t.base t.eoff (8 * t.vocab) w = (w, .ok ()) →
      (upto n).length ≤ x.cap → (n < x.inLen → x.cap < (upto (n + 1)).length) → tmWrite d x.out (upto n) w = (w', .ok ()) →
      txdec d w = (w', .ok (BitVec.ofNat 64 ((if n < x.inLen then 2 ^ 62 else 0) + n * 2 ^ 32 + (upto n).length))))) ∧
  (∀ (t : MergeTab) (l : List Byte), let ws := wordsOf t 0 [] l
    ws.flatMap (·.2) = l ∧
    (∀ e ∈ ws, 1 ≤ e.2.length ∧ e.2.length ≤ 256 ∧ ∀ i p q, e.2[i]? = some p → e.2[i + 1]? = some q → t.breaks p q = false) ∧
    (∀ n e e' p q, ws[n]? = some e → ws[n + 1]? = some e' → e.2.getLast? = some p → e'.2.head? = some q →
      t.breaks p q = true ∨ e.2.length = 256)) ∧
  (∀ (d : UnitCmd) (w : State) (t : MergeTab) (b : List Byte) (find : Nat → Nat → Option (List Byte)),
    (∀ x y, hashFind d (t.base + t.hash) t.s 18 x y w = (w, .ok (find x y))) →
    let toks := b.map (fun c => num t.bmap (4 * c.toNat) 4)
    (∀ x ∈ toks, x < t.vocab) → (∀ x y e, find x y = some e → num e 12 4 < t.vocab) →
    ∃ r, encWord d t b w = (w, .ok r) ∧ MergesTo (fun x y => (find x y).map (fun e => (num e 8 4, num e 12 4))) toks r) ∧
  (∀ (d : UnitCmd) (w : State) (base s bits x y j : Nat) (e : Nat → List Byte), s ≤ 24 → x < 2 ^ bits → j < 2 ^ s →
    let slot := fun i => ((x * 0x9E3779B1 + y * 0x85EBCA6B) % 2 ^ 32 / 2 ^ (32 - s) + i) % 2 ^ s
    (∀ i < 2 ^ s, tmRead d (base + 16 * i) 16 w = (w, .ok (e i))) →
    let valid := fun i => 2 ^ 31 ≤ num (e (slot i)) 0 4
    let meets := fun i => num (e (slot i)) 0 4 % 2 ^ bits = x ∧ num (e (slot i)) 4 4 = y
    (∀ i < j, valid i ∧ ¬meets i) →
    (¬valid j → hashFind d base s bits x y w = (w, .ok none)) ∧
    (valid j → meets j → hashFind d base s bits x y w = (w, .ok (some (e (slot j)))))) ∧
  (∀ (d : UnitCmd) (w w' : State) (x : TextDesc) (t : MergeTab) (l : List Byte) (enc : List Byte → List Nat),
    textDesc d w = (w, .ok x) → mergeTab d x.table w = (w, .ok t) → tmRead d x.inp x.inLen w = (w, .ok l) →
    l.length = x.inLen → x.inLen < 2 ^ 24 → x.cap < 2 ^ 24 →
    let ws := wordsOf t 0 [] l
    let upto := fun n => (ws.take n).flatMap (fun e => enc e.2)
    (∀ e ∈ ws, encWord d t e.2 w = (w, .ok (enc e.2))) →
    ∀ n ≤ ws.length, (upto n).length ≤ x.cap → (n < ws.length → x.cap < (upto (n + 1)).length) →
      tmWrite d x.out ((upto n).flatMap (leBytes 4)) w = (w', .ok ()) →
      txenc d w = (w', .ok (BitVec.ofNat 64 ((if n < ws.length then 2 ^ 62 else 0) +
        ((ws.take n).map (·.2.length)).sum * 2 ^ 32 + (upto n).length)))) ∧
  (∀ (d : UnitCmd) (w : State) (t : NormTab) (c : Nat),
    (normEntry d t c w = (w, .ok none) → normMap d t c w = (w, .ok [(c, 0)])) ∧
    (∀ e, normEntry d t c w = (w, .ok (some e)) →
      let kind := e / 2 ^ 54 % 4
      let target := e % 2 ^ 40
      (kind = 0 → normMap d t c w = (w, .ok [(c, e / 2 ^ 56 % 256)])) ∧
      (kind = 3 → normMap d t c w = (w, .ok [])) ∧
      (∀ k, kind = 1 → normClass d t (target % 2 ^ 21) w = (w, .ok (target % 2 ^ 21, k)) →
        normMap d t c w = (w, .ok [(target % 2 ^ 21, k)])) ∧
      (∀ (p k : Nat → Nat), kind = 2 → (∀ i < e / 2 ^ 48 % 32, tmNum d (t.base + t.pool + 4 * (target + i)) 4 w = (w, .ok (p i)) ∧
          normClass d t (p i) w = (w, .ok (p i, k i))) →
        normMap d t c w = (w, .ok ((List.range (e / 2 ^ 48 % 32)).map (fun i => (p i, k i))))))) ∧
  (∀ (x : NormCp) (r : List NormCp), ∃ o, orderSeg (x :: r) = x :: o ∧ o.Perm r ∧ o.Pairwise (fun a b => a.ccc ≤ b.ccc) ∧
    ∀ k, o.filter (fun a => a.ccc = k) = r.filter (fun a => a.ccc = k)) ∧
  (∀ (d : UnitCmd) (w : State) (t : NormTab) (c : Nat) (y z : NormCp) (f1 f2 : Option (List Byte)),
    hashFind d (t.base + t.ch) t.cs 21 c y.cp w = (w, .ok f1) →
    (f1 = none → y.ccc = z.ccc → composeSeg d t c [] none [y, z] w = (w, .ok [c, y.cp, z.cp])) ∧
    (f1 = none → y.ccc < z.ccc → hashFind d (t.base + t.ch) t.cs 21 c z.cp w = (w, .ok f2) →
      composeSeg d t c [] none [y, z] w = (w, .ok (match f2 with | some e => [num e 8 4, y.cp] | none => [c, y.cp, z.cp]))) ∧
    (∀ e, f1 = some e → hashFind d (t.base + t.ch) t.cs 21 (num e 8 4) z.cp w = (w, .ok f2) →
      composeSeg d t c [] none [y, z] w = (w, .ok (match f2 with | some e' => [num e' 8 4] | none => [num e 8 4, z.cp])))) ∧
  (∀ (d : UnitCmd) (w w' : State) (x : TextDesc) (t : NormTab) (l : List Byte),
    textDesc d w = (w, .ok x) → normTab d x.table w = (w, .ok t) → tmRead d x.inp x.inLen w = (w, .ok l) →
    x.inLen < 2 ^ 24 → x.cap < 2 ^ 24 →
    let cs := utf8Decode l 0 0
    let upto := fun n => (cs.take n).flatMap (fun c => utf8Encode c.2)
    (∀ c ∈ cs, normEntry d t c.2 w = (w, .ok none)) →
    ∀ n ≤ cs.length, (upto n).length ≤ x.cap → (n < cs.length → x.cap < (upto (n + 1)).length) →
      tmWrite d x.out (upto n) w = (w', .ok ()) → (∀ c ∈ cs, c.1 < x.inLen) →
      txnorm d w = (w', .ok (BitVec.ofNat 64 ((if n < cs.length then 2 ^ 62 else 0) +
        (match cs[n]? with | some c => c.1 | none => x.inLen) * 2 ^ 32 + (upto n).length)))))

/-- What the grammar and stop functions give, the entry and its table being there: GRADV steps the automaton by the
transition that admits its token (R264; 16 R421), GRMASK's row bits say which tokens of its groups are admitted and its
word counts them (R265; 16 R422), GRLOAD binds an entry to a table's start state, or to none, or frees it (R263), GRSTAT
gives the status word (R264), STOPSET takes the strings of its block and refuses a bad one (R266), STOPCHK scans its
token's bytes and reports the first completion (R267). UTF-8 decoding gives back every scalar value that is encoded (16
R416; RFC 3629). -/
def Obligations.GrammarsStepAndStringsStop : Prop :=
  (∀ (d : UnitCmd) (w : State) (gt : GramTab) (acc : Bool) (ts : List Trans), let e := w.entryAt (dieOf d.core) (d.a.toNat % 2 ^ 12)
    d.a.toNat < 2 ^ 12 → e.bound = true → e.owner = d.job → e.table ≠ 0 → e.dead = false →
    gramTab d e.table w = (w, .ok gt) → gramState d gt e.state w = (w, .ok (acc, ts)) →
    (∀ m acc2 ts2, d.b.toNat < 2 ^ 18 → matchTok ts e.stack d.b.toNat = some m → m.applies e.stack = true →
      gramState d gt m.next w = (w, .ok (acc2, ts2)) →
      ∃ w' v y, gradv d w = (w', .ok v) ∧ w'.entryAt (dieOf d.core) (d.a.toNat % 2 ^ 12) = y ∧ y.state = m.next ∧
        y.stack = m.apply e.stack ∧ y.acc = (acc2 && (!gt.accEmpty || y.stack.isEmpty)) ∧
        (y.dead = true ↔ ∀ x < gt.vocab, admits ts2 y.stack x = false) ∧ v = y.word) ∧
    (d.b.toNat < 2 ^ 18 → matchTok ts e.stack d.b.toNat = none → gradv d w = (w, .err 7)) ∧
    (∀ (fields : BitVec 22), let g := d.b.toNat % 32
      let n := d.b.toNat / 32 + 1
      d.b.toNat < 2 ^ 10 → g + n ≤ 32 → fields.toNat / 2 ^ 4 % 2 ^ 7 + 4 * n ≤ d.rows → gt.fin < 2 ^ 20 →
      let ok := fun x => decide (x < gt.vocab) && admits ts e.stack x
      ∃ w' m, grmask d fields true w = (w', .ok m) ∧ m.rows.length = 4 * n ∧
        (∀ r < 4 * n, ∀ b < 2048, (m.rows.getD r 0).getLsbD b = ok (8192 * g + 2048 * r + b)) ∧
        m.word.toNat / 2 ^ 22 = ((List.range (8192 * n)).filter (fun i => ok (8192 * g + i))).length)) ∧
  (∀ (d : UnitCmd) (w : State) (t : TokTab) (l : List Byte), let e := w.entryAt (dieOf d.core) (d.a.toNat % 2 ^ 12)
    d.a.toNat < 2 ^ 12 → d.b.toNat < t.vocab → t.vocab ≤ 2 ^ 18 → e.bound = true → e.owner = d.job → e.stopped = false →
    tokTab d e.stopTable w = (w, .ok t) → tokBytes d t d.b.toNat w = (w, .ok l) →
    (∀ ms, stopScan e.strings 0 e.lens l = (ms, none) → ∃ w', stopchk d w = (w', .ok 0) ∧
      w'.entryAt (dieOf d.core) (d.a.toNat % 2 ^ 12) = { e with lens := ms }) ∧
    (∀ ms p i, stopScan e.strings 0 e.lens l = (ms, some (p, i)) → i < 16 → p < 2 ^ 16 → ∃ w' v, stopchk d w = (w', .ok v) ∧
      (w'.entryAt (dieOf d.core) (d.a.toNat % 2 ^ 12)).stopped = true ∧ v.getLsbD 62 = true ∧
      v.toNat / 2 ^ 58 % 16 = i ∧ v.toNat / 2 ^ 40 % 2 ^ 17 = p + 1)) ∧
  (∀ (d : UnitCmd) (w : State), let e := w.entryAt (dieOf d.core) (d.a.toNat % 2 ^ 12)
    let sets := fun (f : TM Word) (v : Nat) (y : Entry) => ∃ w', f w = (w', .ok (BitVec.ofNat 64 v)) ∧
      w'.entryAt (dieOf d.core) (d.a.toNat % 2 ^ 12) = y ∧ w'.mem = w.mem
    d.a.toNat < 2 ^ 12 →
    (d.b = 0 → (e.bound = false ∨ e.owner = d.job) → sets (grload d true) 0 Entry.empty ∧
      sets (grload d false) 0 { Entry.empty with bound := true, owner := d.job }) ∧
    (d.b ≠ 0 → grload d true w = (w, .err 1)) ∧
    (d.b.toNat < 2 ^ 57 → e.bound = true → e.owner ≠ d.job → grload d false w = (w, .err 2)) ∧
    (∀ gt acc ts, d.b ≠ 0 → d.b.toNat < 2 ^ 57 → (e.bound = false ∨ e.owner = d.job) → gramTab d d.b.toNat w = (w, .ok gt) →
      gramState d gt gt.start w = (w, .ok (acc, ts)) → ∃ dead, (dead = true ↔ ∀ x < gt.vocab, admits ts [] x = false) ∧
      sets (grload d false) gt.start { Entry.empty with
        bound := true, owner := d.job, table := d.b.toNat, state := gt.start, acc := acc, dead := dead }) ∧
    (e.bound = true → e.owner = d.job → e.stack.length ≤ 64 → e.stack.headD 0 < 2 ^ 16 → e.state < 2 ^ 20 →
      sets (grstat d) ((if e.dead then 2 ^ 45 else 0) + e.stack.length * 2 ^ 37 + e.stack.headD 0 * 2 ^ 21 +
        (if e.acc then 2 ^ 20 else 0) + e.state) e) ∧
    (∀ l, e.bound = true → e.owner = d.job → d.b.toNat < 2 ^ 57 →
      (d.b.toNat % 64 ≠ 0 → stopset d w = (w, .err 4)) ∧
      (d.b.toNat % 64 = 0 → tmRead d d.b.toNat 1088 w = (w, .ok l) → l.length = 1088 →
        let n := (l.getD 8 0).toNat
        let len := fun s => (l.getD (64 + 64 * s) 0).toNat
        num l 0 8 < 2 ^ 57 → (∀ i, 9 ≤ i → i < 64 → l.getD i 0 = 0) →
        (∀ s < min n 16, ∀ i, len s ≤ i → i < 63 → l.getD (65 + 64 * s + i) 0 = 0) →
        ((16 < n ∨ ∃ s < n, len s = 0 ∨ 63 < len s) → stopset d w = (w, .err 4)) ∧
        (n ≤ 16 → (∀ s < n, 1 ≤ len s ∧ len s ≤ 63) →
          let strs := (List.range n).map (fun s => (List.range (len s)).map (fun i => l.getD (65 + 64 * s + i) 0))
          sets (stopset d) 0 { e with
            strings := strs, lens := List.replicate n 0, stopped := false, stopTable := num l 0 8 })))) ∧
  (∀ c, c < 0x110000 → (c < 0xD800 ∨ 0xE000 ≤ c) → ∀ pos, utf8Decode (utf8Encode c) pos 0 = [(pos, c)])

/-! ### The clock unit (08_coprocessor_instructions.md R268 to R270; 18_group_clock_col.md) -/

/-- The clock functions: CLSTAT on every core type gives the word of R270, in which the group ceiling is the lowest of
the members' ceilings at the tick (R460), and for SEL 1 the first tick at which that will change; on the housekeeping
core CLJOIN founds a group of one or asks a sponsor (R268, R467), CLLEAVE opens the round of a leave (R268, R468), and
CLCEIL sets the source ceiling: a fall is announced with its tick and ends a raise round, a rise opens a raise round or
goes into the one that is open, or waits for a LEAVE round or a pending fall, and is answered later (R269, R461 to
R463). Elsewhere the three are illegal operations. Operands the rules refuse are refused. The model's choices (log 16):
the JOIN that asks a sponsor names it as its subject, and a ceiling that stands already is answered with the tick of its
notice, with its round's answer while that is open, or with the present tick, as is one of a module that is no member.
-/
def Obligations.ClockFunctions : Prop :=
  (∀ (f : CF) (s : State), s.clear → s.freshCops → s.self.seq.copNext ≠ clockId →
    let c := s.unit.core
    let a := s.regs.src f.sa
    let k := s.clk
    let own := k.mem ownModule
    let n := k.present.length
    let err := fun (n : Nat) => BitVec.ofNat 64 (2 ^ 63 + n)
    let tick := fun (n : Nat) => BitVec.ofNat 64 (n % 2 ^ 63)
    let gives := fun (i : Instr) (w : Word) (p : State → Prop) => ∃ t, exec i s = .next t ∧ s.answers t f w ∧ p t
    let waits := fun (i : Instr) (p : State → Prop) => ∃ t, exec i s = .next t ∧ s.asks t f none ∧ p t
    let keeps := fun (t : State) => t.clk = s.clk
    let sends := fun (t : State) (ty code tick : Nat) => ∀ key, s.fab.groupKey = some key → s.gives t (s.flooded key n ty code 0 tick)
    (kindOf c ≠ .house → ∀ i ∈ [Instr.cljoin f, .clleave f, .clceil f], ∃ t, exec i s = .next t ∧
      t.self.seq.fatal = some ⟨0x0F, s.unit.slot, 0, s.unit.bundle⟩ ∧ t.self.ctx = s.regs ∧ t.clk = s.clk) ∧
    (2 ≤ a.toNat → gives (.clstat f) (err 1) keeps) ∧
    (s.settled → a.toNat = 0 → gives (.clstat f) (BitVec.ofNat 64 ((if k.isMember then n * 2 ^ 15 else 0) +
      (if k.openRounds = [] then 0 else 2 ^ 14) + (if k.isMember then 2 ^ 13 else 0) + (if s.outStep then 2 ^ 12 else 0) +
      k.local_ * 2 ^ 6 + k.groupAt s.gtick)) keeps) ∧
    (s.settled → a.toNat = 1 → gives (.clstat f) (match k.nextGroup s.gtick with
      | some (u, code) => BitVec.ofNat 64 (code * 2 ^ 48 + u % 2 ^ 48) | none => 0) keeps) ∧
    (kindOf c = .house → s.settled →
      (4096 ≤ a.toNat → gives (.cljoin f) (err 1) keeps) ∧
      (a.toNat < 4096 → (k.isMember = true ∨ k.joining.isSome = true) → gives (.cljoin f) (err 3) keeps) ∧
      (a.toNat = ownModule → k.isMember = false → k.joining = none →
        gives (.cljoin f) (tick s.gtick) (fun t => t.gtick = s.gtick ∧ t.clk.present = [ownModule] ∧
          t.clk.seqNext = 0 ∧ (t.clk.mem ownModule).ceil = s.localCeil ∧ t.outStep = false)) ∧
      (a.toNat < 4096 → a.toNat ≠ ownModule → k.isMember = false → k.joining = none →
        waits (.cljoin f) (fun t => t.clk.joining = some ⟨a.toNat, s.gtick, 0, s.copCmd f (.cljoin f)⟩ ∧
          ∀ key, s.fab.groupKey = some key → (s.fab.route.get 0 a.toNat).getLsbD 7 = true →
            s.gives t (fun p => if p = (s.fab.route.get 0 a.toNat).toNat % 16
              then [s.sealed key p { colZero with ty := 20, code := s.localCeil, subj := a.toNat }] else []))) ∧
      ((k.isMember = false ∨ k.leaving.isSome = true) → gives (.clleave f) (err 3) keeps) ∧
      (k.isMember = true → k.leaving = none → a ≠ 0 → a.toNat < s.gtick + 50000 → gives (.clleave f) (err 4) keeps) ∧
      (k.isMember = true → k.leaving = none → (a = 0 ∨ s.gtick + 50000 ≤ a.toNat) → k.round = none →
        waits (.clleave f) (fun t =>
          ((∃ m ∈ k.present, m ≠ ownModule) → t.clk.leaving = some (s.copCmd f (.clleave f), a.toNat) ∧
            t.clk.round = some ⟨1, k.local_, [], s.gtick, a.toNat, []⟩ ∧ (ownModule, k.local_) ∈ t.clk.openRounds ∧
            sends t 22 k.local_ 0) ∧
          ((∀ m ∈ k.present, m = ownModule) → (t.clk.mem ownModule).leaveAt = some (max a.toNat (s.gtick + 50000))))) ∧
      (64 ≤ a.toNat → gives (.clceil f) (err 1) keeps) ∧
      (36 < a.toNat → a.toNat < 64 → gives (.clceil f) (err 4) keeps) ∧
      (a.toNat ≤ 36 → s.host.hkduty.getLsbD 4 = false → gives (.clceil f) (err 10) keeps) ∧
      (a.toNat ≤ 36 → s.host.hkduty.getLsbD 4 = true → let code := min k.prot a.toNat
        (k.isMember = false → gives (.clceil f) (tick s.gtick) (fun t => t.clk.clceil = a.toNat ∧ t.clk.local_ = code)) ∧
        (k.isMember = true →
          let due := max (s.gtick + 50000) (match own.pending with | some (_, u) => u | none => 0)
          let set := fun (t : State) => t.clk.clceil = a.toNat ∧ t.clk.local_ = code
          (code = k.local_ → own.fallen = false →
            (k.rise = none → (∀ r, k.round = some r → r.kind ≠ 0) →
              gives (.clceil f) (tick (match own.pending with | some (_, u) => u | none => s.gtick)) set) ∧
            (∀ r, k.rise = none → k.round = some r → r.kind = 0 → waits (.clceil f) (fun t => set t ∧
              t.clk.round = some { r with cmds := r.cmds ++ [s.copCmd f (.clceil f)] })) ∧
            (∀ l, k.rise = some l → waits (.clceil f) (fun t => set t ∧ t.clk.rise = some (l ++ [s.copCmd f (.clceil f)])))) ∧
          (code < k.local_ → k.rise = none →
            (k.round = none → gives (.clceil f) (tick due) (fun t => set t ∧ sends t 17 code due ∧
              (own.fallen = false → (t.clk.mem ownModule).pending = some (code, due)))) ∧
            (∀ r, k.round = some r → r.kind ≠ 1 → r.cmds = [] → k.leaving = none → gives (.clceil f) (tick due) (fun t => set t ∧
              sends t 17 code due ∧ t.clk.round = none ∧ ∀ e ∈ t.clk.openRounds, e.1 ≠ ownModule))) ∧
          (k.local_ < code →
            (k.round = none → own.pending = none → (∃ m ∈ k.present, m ≠ ownModule) → waits (.clceil f) (fun t => set t ∧
              t.clk.round = some ⟨0, code, [], s.gtick, 0, [s.copCmd f (.clceil f)]⟩ ∧ sends t 18 code 0)) ∧
            (∀ r, k.round = some r → r.kind ≠ 1 → (∃ m ∈ k.present, m ≠ ownModule) → waits (.clceil f) (fun t => set t ∧
              t.clk.round = some ⟨0, code, [], s.gtick, r.leave, r.cmds ++ [s.copCmd f (.clceil f)]⟩ ∧ sends t 18 code 0)) ∧
            ((k.round = none → own.pending ≠ none) → (∀ r, k.round = some r → r.kind = 1) → waits (.clceil f) (fun t => set t ∧
              t.clk.round = k.round ∧ t.clk.rise = some (k.rise.getD [] ++ [s.copCmd f (.clceil f)]) ∧
              s.gives t (fun _ => []))))))) ) ∧
  (∀ (k : Clock) (t : Nat), (∀ e ∈ k.members, e.2.counts t = true → k.groupAt t ≤ e.2.at t) ∧
    ((∃ e ∈ k.members, e.2.counts t = true) → ∃ e ∈ k.members, e.2.counts t = true ∧ k.groupAt t = e.2.at t) ∧
    (k.nextGroup t = none → ∀ u, t ≤ u → k.groupAt u = k.groupAt t) ∧
    (∀ u code, k.nextGroup t = some (u, code) → t < u ∧ code = k.groupAt u ∧ code ≠ k.groupAt t ∧
      ∀ v, t ≤ v → v < u → k.groupAt v = k.groupAt t))

/-- Notices of other modules. One of another TYPE changes nothing; one that fails its check steps its port's counter;
one that is not newer changes nothing; none of them is forwarded (R430, R457, R458). A newer one is noted, forwarded on
the other links, and applied. CEIL sets a pending ceiling, or changes at once the one in effect and puts the module out
of step; one whose tick is not later than that in effect is a heartbeat; one with the code of its origin's open round
ends it, gives a leave its tick and frees what it has evicted (R460, R462 to R466, R468). RAISE, LEAVE and EVICT open
their origin's round and are confirmed; an evicted member's ceiling counts until the round's tick (R463, R466, R468).
The last CONFIRM ends the module's own round, with the lead (R463), unless a ceiling of its own is pending, which it
would replace (log 16). SILENT sets the earliest tick (R465); ADMIT names the tick of a join (R467). A SYNC that opens
an exchange is answered, an answer gives the offset (R456), a joiner's tick is set by its sponsor's (R467). The model's
choices (log 16): a JOIN request names its sponsor as its subject and counts no members; the sponsor answers with a JOIN
for each member, its ceiling and the pending one, and a SYNC; an opening SYNC has t3 zero. -/
def Obligations.ColNotices : Prop :=
  ∀ (m : ColMsg) (s : State), s.settled →
    let k := s.clk
    let x := k.mem m.origin
    let heard := { x with seq := some m.seq, heard := s.gtick, mute := false }
    let n := k.present.length
    let out := (s.fab.route.get 0 m.subj).toNat % 16
    let others := fun (t : State) (u : Nat) => ∀ v, v ≠ u → v ≠ m.origin → (k.mem v).evictBy ≠ some m.origin →
      (k.mem v).evictBy ≠ some u → t.clk.mem v = k.mem v
    (∀ i ∈ [(17, Instr.ceil m), (18, .raise m), (19, .confirm m), (21, .admitted m), (22, .leave m), (23, .silent m), (24, .evict m)],
      (m.ty ≠ i.1 → exec i.2 s = .next s) ∧
      (m.ty = i.1 → s.colOk m = false → exec i.2 s = .next (s.badAuth m.port)) ∧
      (m.ty = i.1 → s.colOk m = true → (m.origin = ownModule ∨ newer x.seq m.seq = false) → exec i.2 s = .next s)) ∧
    (∀ key, s.fab.groupKey = some key → s.colOk m = true → m.origin ≠ ownModule → newer x.seq m.seq = true → k.isMember = true →
      x.present = true →
      (m.ty = 17 → (x.leaving = true → k.openRounds.contains (m.origin, m.code) = true → x.since < m.tick → s.gtick < m.tick) →
        ∃ t, exec (.ceil m) s = .next t ∧ s.onlyClock t ∧ others t m.origin ∧ s.gives t (s.forwarded m) ∧
        (m.tick ≤ x.since → t.clk.mem m.origin = heard ∧ t.clk.openRounds = k.openRounds) ∧
        (x.since < m.tick → let ends := k.openRounds.contains (m.origin, m.code)
          ((ends = true ∨ x.leaving = false) → t.clk.openRounds = k.openRounds.filter (fun e => e.1 != m.origin)) ∧
          (ends = true → s.gtick < m.tick → ∀ v, v ≠ m.origin → (k.mem v).evictBy = some m.origin → (k.mem v).goneAt = none →
            (t.clk.mem v).goneAt = some m.tick) ∧
          (ends = true → x.leaving = true → s.gtick < m.tick →
            t.clk.mem m.origin = { heard with leaving := false, leaveAt := some m.tick }) ∧
          (ends = false → x.fallen = true → t.clk.mem m.origin = heard) ∧
          ((ends = true ∧ x.leaving = false ∨ ends = false ∧ x.fallen = false) →
            (s.gtick < m.tick → t.clk.mem m.origin = { heard with pending := some (m.code, m.tick) }) ∧
            (m.tick ≤ s.gtick → t.clk.mem m.origin = { heard with
              ceil := m.code, since := m.tick, pending := none, fallen := false, silent := if x.fallen then none else x.silent }) ∧
            (m.tick ≤ s.gtick → m.code ≠ x.ceil → s.host.stage ≠ 0 → t.outStep = true)))) ∧
      (m.ty = 18 → ∃ t, exec (.raise m) s = .next t ∧ s.onlyClock t ∧ others t m.origin ∧ t.clk.mem m.origin = heard ∧
        t.clk.openRounds = k.openRounds.filter (fun e => e.1 != m.origin) ++ [(m.origin, m.code)] ∧
        s.gives t (fun p => s.forwarded m p ++ s.flooded key n 19 0 m.origin 0 p)) ∧
      (m.ty = 22 → ∃ t, exec (.leave m) s = .next t ∧ s.onlyClock t ∧ others t m.origin ∧
        t.clk.mem m.origin = { heard with leaving := true } ∧ (m.origin, m.code) ∈ t.clk.openRounds ∧
        s.gives t (fun p => s.forwarded m p ++ s.flooded key n 19 0 m.origin 0 p)) ∧
      (m.ty = 19 → m.subj ≠ ownModule → ∃ t, exec (.confirm m) s = .next t ∧ s.onlyClock t ∧ t.clk.round = k.round ∧
        s.gives t (s.forwarded m)) ∧
      (∀ r, m.ty = 19 → m.subj = ownModule → k.round = some r →
        ((∃ v ∈ k.present, v ≠ ownModule ∧ v ≠ m.origin ∧ v ∉ r.confirmed) → ∃ t, exec (.confirm m) s = .next t ∧
          s.onlyClock t ∧ t.clk.round = some { r with confirmed := r.confirmed ++ [m.origin] } ∧ s.gives t (s.forwarded m)) ∧
        ((∀ v ∈ k.present, v = ownModule ∨ v = m.origin ∨ v ∈ r.confirmed) →
          (r.kind ≠ 1 → (k.mem ownModule).pending = none → k.leaving = none → ∃ t, exec (.confirm m) s = .next t ∧
            t.clk.round = none ∧ t.clk.openRounds = k.openRounds.filter (fun e => e.1 != ownModule) ∧
            (t.clk.mem ownModule).pending = some (r.code, s.gtick + 50000) ∧
            s.gives t (fun p => s.forwarded m p ++ s.flooded key n 17 r.code 0 (s.gtick + 50000) p) ∧
            ∀ d y, r.cmds = [d] → d.id ≠ clockId → (s.core d.core).seq.cops.find? (fun z => z.id = d.id) = some y → y.dst ≠ 0 →
              ∃ z ∈ (t.core d.core).seq.cops, z.id = d.id ∧ z.answer = some (BitVec.ofNat 64 ((s.gtick + 50000) % 2 ^ 63))) ∧
          (r.kind = 1 → k.rise = none → ∃ t, exec (.confirm m) s = .next t ∧ t.clk.round = none ∧
            (t.clk.mem ownModule).leaveAt = some (max r.leave (s.gtick + 50000))))) ∧
      (m.ty = 23 → m.subj ≠ m.origin → m.subj ≠ ownModule → let y := k.mem m.subj
        y.present = true → y.fallen = false → ∃ t, exec (.silent m) s = .next t ∧ s.onlyClock t ∧ others t m.subj ∧
          (s.gtick < m.tick → t.clk.mem m.subj =
            { y with silent := some (match y.silent with | some u => min u m.tick | none => m.tick) }) ∧
          (m.tick ≤ s.gtick → (t.clk.mem m.subj).ceil = 0 ∧ (t.clk.mem m.subj).fallen = true ∧
            (y.ceil ≠ 0 → s.host.stage ≠ 0 → t.outStep = true))) ∧
      (m.ty = 24 → m.subj = ownModule → ∃ t, exec (.evict m) s = .next t ∧ t.clk.members = [] ∧ t.clk.round = none ∧
        (s.host.stage ≠ 0 → t.outStep = true)) ∧
      (m.ty = 24 → m.subj ≠ ownModule → m.subj ≠ m.origin → k.round = none → (k.mem m.subj).present = true →
        (k.mem m.subj).leaveAt = none → (k.mem m.subj).goneAt = none → ∃ t, exec (.evict m) s = .next t ∧ s.onlyClock t ∧
          others t m.subj ∧ (t.clk.mem m.subj).present = false ∧ (t.clk.mem m.subj).evictBy = some m.origin ∧
          (∀ u, t.clk.groupAt u = k.groupAt u) ∧ (m.origin, m.code) ∈ t.clk.openRounds ∧ (∀ e ∈ t.clk.openRounds, e.1 ≠ m.subj) ∧
          s.gives t (fun p => s.forwarded m p ++ s.flooded key (k.present.filter (· != m.subj)).length 19 0 m.origin 0 p)) ∧
      (m.ty = 21 → m.subj ≠ m.origin → m.subj ≠ ownModule → s.gtick < m.tick → (k.mem m.subj).leaveAt = none →
        (k.mem m.subj).goneAt = none → ∃ t, exec (.admitted m) s = .next t ∧
        s.onlyClock t ∧ others t m.subj ∧ s.gives t (s.forwarded m) ∧ t.clk.mem m.subj =
          { k.mem m.subj with joinAt := some m.tick, since := m.tick, seq := none, ceil := m.code })) ∧
    (∀ j, s.colOk m = true → k.isMember = false → k.joining = some j → m.origin ≠ ownModule → newer x.seq m.seq = true →
      (m.ty = 20 → j.sponsor = m.origin → (m.count ≠ 0 ∨ m.subj = m.origin) →
        let y := if m.subj = m.origin then heard else k.mem m.subj
        ∃ t, exec (.join m) s = .next t ∧ t.clk.mem m.subj = (if s.gtick < m.tick
          then { y with present := true, heard := s.gtick, pending := some (m.code, m.tick) }
          else { y with present := true, heard := s.gtick, ceil := m.code, since := m.tick })) ∧
      (m.ty = 21 → m.subj = ownModule → s.gtick < m.tick → (k.mem ownModule).leaveAt = none → (k.mem ownModule).goneAt = none →
        ∃ t, exec (.admitted m) s = .next t ∧
        (t.clk.mem ownModule).joinAt = some m.tick ∧ (t.clk.mem ownModule).ceil = s.localCeil)) ∧
    (m.ty ≠ 20 → exec (.join m) s = .next s) ∧
    (∀ key, s.fab.groupKey = some key → m.ty = 20 → k.isMember = true →
      (s.colOk m = true → m.subj = m.origin → m.origin ≠ ownModule → k.joining = none → x.present = false →
        newer x.joinSeq m.seq = true → (∃ u, k.serving = [(m.origin, u)]) →
        ∃ t, exec (.join m) s = .next t ∧ t.clk.serving = [] ∧ (t.clk.mem m.origin).joinAt = some (s.gtick + 50000) ∧
          s.gives t (fun p => s.forwarded m p ++ s.flooded key n 21 m.code m.origin (s.gtick + 50000) p)) ∧
      (m.subj = ownModule → m.origin ≠ ownModule → m.count = 0 →
        (s.colOk m = false → exec (.join m) s = .next (s.badAuth m.port)) ∧
        (s.colOk m = true → 4096 ≤ n → exec (.join m) s = .next s) ∧
        (s.colOk m = true → n < 4096 → k.serving.any (fun j => j.1 = m.origin) = false → ∃ t l, exec (.join m) s = .next t ∧
          t.clk.serving = k.serving ++ [(m.origin, s.gtick)] ∧ s.gives t l ∧
          (k.serving ≠ [] → ∀ p, l p = []) ∧
          (k.serving = [] →
            ((s.fab.route.get 0 m.origin).getLsbD 7 = true →
              ∃ e ∈ l ((s.fab.route.get 0 m.origin).toNat % 16), e.ty = 16 ∧ e.t1 = s.gtick ∧ e.t3 = 0) ∧
            ∀ p < 16, (s.linkAt p).up = true → ∀ v ∈ k.present,
              (∃ e ∈ l p, e.ty = 20 ∧ e.subj = v ∧ e.code = (k.mem v).ceil ∧ e.tick = (k.mem v).since) ∧
              ∀ c u, (k.mem v).pending = some (c, u) → ∃ e ∈ l p, e.ty = 20 ∧ e.subj = v ∧ e.code = c ∧ e.tick = u))) ∧
      (m.subj ≠ ownModule → m.subj ≠ m.origin → m.count = 0 → (s.fab.route.get 0 m.subj).getLsbD 7 = true → m.hops + 1 < 16 →
        ∃ t, exec (.join m) s = .next t ∧ s.gives t (fun p => if p = out then [{ m with port := p, hops := m.hops + 1 }] else []))) ∧
    (m.ty ≠ 16 → exec (.sync m) s = .next s) ∧
    (m.ty = 16 → s.colOk m = false → exec (.sync m) s = .next (s.badAuth m.port)) ∧
    (∀ key, m.ty = 16 → s.colOk m = true → s.fab.groupKey = some key → m.t3 = 0 → m.port < 16 → ∃ t, exec (.sync m) s = .next t ∧
      t.gtick = s.gtick ∧ s.gives t (fun p => if p = m.port
        then [s.sealed key p { colZero with ty := 16, t1 := m.t1, t2 := s.gtick, t3 := s.gtick }] else [])) ∧
    (m.ty = 16 → s.colOk m = true → m.t3 ≠ 0 → let off : Int := (((m.t2 : Int) - m.t1) - ((s.gtick : Int) - m.t3)) / 2
      (∀ j, k.joining = some j → (s.fab.route.get 0 j.sponsor).toNat % 16 = m.port → k.present ≠ [] →
        (j.stage = 0 → ∃ t, exec (.sync m) s = .next t ∧ t.gtick = ((s.gtick : Int) + off).toNat % 2 ^ 64 ∧
          t.clk.joining = some { j with stage := 1, since := ((j.since : Int) + off).toNat % 2 ^ 64 }) ∧
        (∀ key, j.stage = 1 → off.natAbs ≤ 5 → s.fab.groupKey = some key → ∃ t, exec (.sync m) s = .next t ∧
          t.gtick = s.gtick ∧ t.clk.joining = some { j with stage := 2 } ∧ s.gives t (s.flooded key n 20 s.localCeil ownModule 0))) ∧
      (∀ j, k.joining = some j → (s.fab.route.get 0 j.sponsor).toNat % 16 ≠ m.port → exec (.sync m) s = .next s) ∧
      (k.joining = none → s.parentPort = some m.port → ∃ t, exec (.sync m) s = .next t ∧ t.gtick = s.gtick ∧ t.clk.offset = off ∧
        t.clk.slew = off ∧ (20 < off.natAbs → t.clk.offBad = some (k.offBad.getD s.gtick) ∧
          ((∃ u, k.offBad = some u ∧ u + 100000 ≤ s.gtick) → s.host.stage ≠ 0 → t.outStep = true)) ∧
        (off.natAbs ≤ 5 → t.clk.offOut = false ∧ t.clk.linkOut = false ∧ t.clk.offBad = none)))

/-- The clock unit's timers: what has reached its tick takes effect (R460, R465 to R468), the heartbeat and the SYNC
flits of the links that are due (R456, R465), the silence of a member and its eviction, which a round under way joins
(R465, R466), the repeat of a round's notice (R463), the end of a join (R467), a parent link that stays down or an
estimate that stays bad (R456), and what the sensors show: the power goes off outside its limits (19 R479), the
protection limit is the highest code whose projection fits (19 R480), and a member drops alone where it must bite sooner
than the lead, or where not even code 0 fits (R461, R462, R464). The model's choices (log 16): CLJOIN and CLLEAVE are
answered at the tick that they name, and an eviction goes into a round that is open, which then needs every CONFIRM
anew. -/
def Obligations.ClockTimers : Prop :=
  (∀ s : State, s.clk.members.wf Member.empty → s.host.clockBusy = [] → ∃ t, exec .ceilingEffective s = .next t ∧
    let own := s.clk.mem ownModule
    let still := s.clk.round = none ∧ s.clk.rise = none ∧ s.clk.leaving = none ∧ ∀ e ∈ s.clk.members, e.2.evictBy ≠ some ownModule
    (own.present = true → own.goneAt = none → (∀ u, own.leaveAt = some u → s.gtick < u) → t.clk.isMember = true ∧
      ∀ v, (v ≠ ownModule ∨ still) → let x := s.clk.mem v
        let y := t.clk.mem v
        (x.leaveAt = none → x.goneAt = none →
          (∀ c u, x.pending = some (c, u) → u ≤ s.gtick → x.silent = none → y.ceil = c ∧ y.since = u ∧ y.pending = none) ∧
          (∀ u, x.silent = some u → u ≤ s.gtick → x.fallen = false → y.ceil = 0 ∧ y.fallen = true ∧ y.pending = none) ∧
          (∀ u, x.joinAt = some u → u ≤ s.gtick → y.present = true)) ∧
        (∀ u, (x.leaveAt = some u ∨ x.leaveAt = none ∧ x.goneAt = some u) → u ≤ s.gtick → y = Member.empty)) ∧
    (∀ u j y, own.present = false → own.joinAt = some u → u ≤ s.gtick → own.leaveAt = none → own.goneAt = none → own.pending = none →
      own.silent = none → s.clk.joining = some j → j.cmd.id ≠ clockId →
      (s.core j.cmd.core).seq.cops.find? (fun z => z.id = j.cmd.id) = some y → y.dst ≠ 0 →
      t.clk.isMember = true ∧ t.clk.joining = none ∧ t.clk.seqNext = 0 ∧
      ∃ z ∈ (t.core j.cmd.core).seq.cops, z.id = j.cmd.id ∧ z.answer = some (BitVec.ofNat 64 (own.since % 2 ^ 63))) ∧
    (∀ u d w y, own.present = true → own.leaveAt = some u → u ≤ s.gtick → s.clk.leaving = some (d, w) → s.clk.openCmds = [] → d.id ≠ clockId →
      (s.core d.core).seq.cops.find? (fun z => z.id = d.id) = some y → y.dst ≠ 0 →
      t.clk.isMember = false ∧ (s.host.stage ≠ 0 → t.outStep = true) ∧
      ∃ z ∈ (t.core d.core).seq.cops, z.id = d.id ∧ z.answer = some (BitVec.ofNat 64 (w % 2 ^ 63)))) ∧
  (∀ s : State, s.settled → let k := s.clk
    let own := k.mem ownModule
    let n := k.present.length
    (∀ key, s.fab.groupKey = some key → ∃ t l, exec .heartbeatTimer s = .next t ∧ s.onlyClock t ∧ t.clk.members = k.members ∧
      (∀ p, ∀ e ∈ l p, e.ty = 16 ∧ e.t1 = s.gtick ∧ e.t3 = 0) ∧
      (∀ p < 16, (s.linkAt p).up = true → (s.linkAt p).syncAt + 10000 ≤ s.gtick → l p ≠ []) ∧
      ((k.isMember = false ∨ s.gtick < k.beat + 20000) → t.clk.beat = k.beat ∧ s.gives t l) ∧
      (k.isMember = true → k.beat + 20000 ≤ s.gtick → t.clk.beat = s.gtick ∧
        s.gives t (fun p => s.flooded key n 17 own.ceil 0 own.since p ++ l p))) ∧
    (∀ key e, s.fab.groupKey = some key → k.isMember = true →
      k.members.find? (fun e => e.1 != ownModule && e.2.present && !e.2.mute && decide (e.2.heard + 70000 ≤ s.gtick)) = some e →
      ∃ t, exec .silenceTimeout s = .next t ∧ s.tells t (.event s.host.evNext 19 0 [e.1]) ∧ (t.clk.mem e.1).mute = true ∧
        (e.2.fallen = false → (t.clk.mem e.1).silent = some (match e.2.silent with
          | some u => min u (s.gtick + 50000) | none => s.gtick + 50000)) ∧
        (∀ v, v ≠ e.1 → t.clk.mem v = k.mem v) ∧ s.gives t (s.flooded key n 23 0 e.1 (s.gtick + 50000))) ∧
    (∀ key e l, s.fab.groupKey = some key → k.isMember = true →
      k.members.find? (fun e => e.2.present && !e.2.mute) = some l → l.1 = ownModule →
      k.members.find? (fun e => e.1 != ownModule && e.2.present && e.2.mute &&
        (match e.2.silent with | some u => decide (u + 1000000 ≤ s.gtick) | none => false)) = some e →
      let left := k.present.filter (· != e.1)
      let more := ∃ v ∈ left, v ≠ ownModule
      ∃ (t : State) (r : Nat → List ColMsg), exec .evictionTimeout s = .next t ∧ (t.clk.mem e.1).present = false ∧ (t.clk.mem e.1).evictBy = some ownModule ∧
        (more → e.2.leaveAt = none → e.2.goneAt = none → ∀ u, t.clk.groupAt u = k.groupAt u) ∧
        (k.round = none → s.gives t (fun p => s.flooded key left.length 24 k.local_ e.1 0 p ++ r p) ∧
          (more → t.clk.round = some ⟨2, k.local_, [], s.gtick, 0, []⟩ ∧ ∀ p, r p = [])) ∧
        (∀ q, k.round = some q → more → t.clk.round = some { q with confirmed := [], sentAt := s.gtick } ∧
          s.gives t (s.flooded key left.length 24 q.code e.1 0))) ∧
    (∀ r, k.round = some r → (s.gtick < r.sentAt + 200000 → exec .confirmationRetry s = .next s) ∧
      (∀ key, s.fab.groupKey = some key → r.sentAt + 200000 ≤ s.gtick → ∃ t, exec .confirmationRetry s = .next t ∧
        s.onlyClock t ∧ t.clk.round = some { r with sentAt := s.gtick } ∧
        s.gives t (s.flooded key n (if r.kind = 1 then 22 else 18) r.code 0 0))) ∧
    (∀ j y, k.joining = some j → k.serving = [] → j.since + 10000000 ≤ s.gtick → j.cmd.id ≠ clockId →
      (s.core j.cmd.core).seq.cops.find? (fun z => z.id = j.cmd.id) = some y → y.dst ≠ 0 →
      ∃ t, exec .joinTimeout s = .next t ∧ t.clk.joining = none ∧
        ∃ z ∈ (t.core j.cmd.core).seq.cops, z.id = j.cmd.id ∧ z.answer = some (BitVec.ofNat 64 (2 ^ 63 + 11))) ∧
    (∀ e rest, k.joining = none → k.serving = e :: rest → e.2 + 10000000 ≤ s.gtick →
      ∃ t, exec .joinTimeout s = .next t ∧ t.clk.serving = rest) ∧
    (∃ t, exec .outOfStepTimeout s = .next t ∧ s.onlyClock t ∧ t.clk.members = k.members ∧
      (∀ p, s.parentPort = some p → (s.linkAt p).up = false → (s.linkAt p).downAt + 100000 ≤ s.gtick →
        t.clk.linkOut = true ∧ (s.host.stage ≠ 0 → t.outStep = true)) ∧
      (∀ u, k.offBad = some u → u + 100000 ≤ s.gtick → t.clk.offOut = true ∧ (s.host.stage ≠ 0 → t.outStep = true)) ∧
      (k.offBad = none → (∀ p, s.parentPort = some p → (s.linkAt p).up = true) → t.clk.linkOut = k.linkOut ∧ t.clk.offOut = k.offOut)) ∧
    (∀ (r : Sensors) (due : Nat),
      ((r.input < 4200 ∨ 5800 < r.input ∨ 110 ≤ r.junction) → exec (.protectionLimitChange r due) s = exec .powerOff s) ∧
      (4200 ≤ r.input → r.input ≤ 5800 → r.junction < 110 →
        let fits := fun (c : Nat) => (r.proj.getD c (0, 0)).1 ≤ s.host.pcap ∧ (r.proj.getD c (0, 0)).2 ≤ 95
        let shown := fun (t : State) => t.host.proj = r.proj ∧ t.host.power.toNat = r.input % 65536 * 65536 + r.power % 65536 ∧
          t.host.temps.toNat = r.junction % 256 * 65536 + r.outlet % 256 * 256 + r.inlet % 256
        (∀ p, p ≤ 36 → fits p → (∀ c, p < c → c ≤ 36 → ¬fits c) →
          let c := if s.host.hkduty.getLsbD 4 then min p k.clceil else p
          let at_ := max (s.gtick + 50000) (match own.pending with | some (_, u) => u | none => 0)
          let soon := due < s.gtick + 50000 ∧ p < k.ownCode (max due s.gtick)
          let does := fun (q : State → Prop) => ∃ t, exec (.protectionLimitChange r due) s = .next t ∧ shown t ∧ t.clk.prot = p ∧ q t
          (k.isMember = false → does (fun t => s.onlyClock t ∧ t.clk.local_ = c ∧ s.gives t (fun _ => []))) ∧
          (∀ key, s.fab.groupKey = some key → k.isMember = true → k.round = none →
            (c < k.local_ → does (fun t => t.clk.local_ = c ∧ (own.fallen = false → (t.clk.mem ownModule).pending = some (c, at_)) ∧
              s.gives t (s.flooded key n 17 c 0 at_) ∧
              (soon → t.clk.lone = c ∧ t.clk.loneUntil = at_ ∧ (s.host.stage ≠ 0 → t.outStep = true) ∧ t.host.throt = true) ∧
              (¬soon → t.clk.loneUntil = k.loneUntil ∧ t.outStep = s.outStep ∧ t.host.throt = s.host.throt))) ∧
            (∀ u, c = k.local_ → own.pending = some (c, u) → soon → does (fun t => t.clk.lone = c ∧ t.clk.loneUntil = u ∧
              t.host.throt = true ∧ (s.host.stage ≠ 0 → t.outStep = true) ∧ s.gives t (fun _ => []))) ∧
            (k.local_ < c → ¬soon →
              (own.pending = none → (∃ m ∈ k.present, m ≠ ownModule) → does (fun t => t.clk.local_ = c ∧
                t.clk.round = some ⟨0, c, [], s.gtick, 0, []⟩ ∧ s.gives t (s.flooded key n 18 c 0 0))) ∧
              (own.pending ≠ none → does (fun t => t.clk.local_ = c ∧ t.clk.rise = some (k.rise.getD []) ∧
                s.gives t (fun _ => [])))))) ∧
        ((∀ c, c ≤ 36 → ¬fits c) → ∃ t, exec (.protectionLimitChange r due) s = .next t ∧ shown t ∧ t.clk.prot = 0 ∧
          t.host.throt = true ∧ (k.isMember = true → t.clk.lone = 0 ∧ s.gtick < t.clk.loneUntil ∧
            (s.host.stage ≠ 0 → t.outStep = true))))))
/-! ### What travels between modules (17_fabric_watermarks.md) -/

/-- A packet for another module goes on by its route entry, with HOPS stepped; one whose HOPS would reach 16, or without
a valid entry, is dropped and its origin told (R427). At its destination a packet that fails its check is dropped and
its port counts it (R430), one already accepted is acknowledged again (R433), one refused is answered with NACK (R434),
and an accepted one is acknowledged, takes its stream's number and is held, past step 1 where its carried watermarks
have landed (R433, R435); a FRED is held for its window, which a bad one poisons (R446, R447). That the NOTICE of a
packet dropped on its way names its unit and number, that a FRED is held until it folds, and that a stream which has
been forgotten begins with the number it takes are the model's (DESIGN CHOICE and DEDUCED, logs 13 and 32). -/
def Obligations.PacketsAreForwardedAndAccepted : Prop :=
  ∀ (port : Nat) (p : Packet) (s : State),
    (p.dest ≠ ownModule → ∀ i ∈ [Instr.packetAccept port p, .packetForward port p],
      ((s.fab.route.get 0 p.dest).getLsbD 7 = true → p.hops + 1 < 16 → ∃ t, exec i s = .next t ∧
        s.routed t { p with hops := p.hops + 1 } ∧ t.fab.holds = s.fab.holds ∧ t.cores = s.cores ∧ t.mem = s.mem) ∧
      (16 ≤ p.hops + 1 ∨ (s.fab.route.get 0 p.dest).getLsbD 7 = false →
        (p.origin = ownModule → ∃ t, exec i s = .next t ∧ t.host.log = s.host.log ++ [(s.gtick, 1)] ∧ t.fab = s.fab) ∧
        (p.origin ≠ ownModule → (s.fab.route.get 0 p.origin).getLsbD 7 = true →
          ∃ t, exec i s = .next t ∧ s.sends t (ctrlMsg 8 p.origin p.job p.unit 1 p.seq 0)))) ∧
    (p.dest = ownModule → p.ty ≤ 2 →
      let msg := fun (ty b : Nat) => ctrlMsg ty p.origin p.job p.unit p.seq b 0
      let seen := match s.fab.dest p with | some x => x.has p.seq | none => false
      let w := s.windowAt (fredWin p)
      (s.fab.authentic p = false → ∃ t, exec (.packetAccept port p) s = .next t ∧
        (t.linkAt port).authErr = (s.linkAt port).authErr + (if port < 16 then 1 else 0) ∧ t.fab.holds = s.fab.holds ∧ t.fab.dests = s.fab.dests ∧
        t.fab.out = s.fab.out ∧ t.cores = s.cores ∧ t.mem = s.mem) ∧
      (s.fab.authentic p = true → seen = true → ∃ t, exec (.packetAccept port p) s = .next t ∧ s.sends t (msg 3 0) ∧
        t.fab.holds = s.fab.holds ∧ t.fab.dests = (s.fab.heard p s.gtick).dests ∧ t.mem = s.mem) ∧
      (∀ r, s.fab.authentic p = true → seen = false → s.nackReason p = some r → ∃ t, exec (.packetAccept port p) s = .next t ∧
        s.sends t (msg 4 r) ∧ t.fab.holds = s.fab.holds ∧ t.fab.dests = (s.fab.heard p s.gtick).dests ∧ t.mem = s.mem) ∧
      (p.nwm ≠ 0 → 7168 ≤ s.held.length → s.nackReason p = some 1) ∧
      (p.nwm = 0 → p.ty = 2 → w.state = 0 ∨ w.state = 2 → s.nackReason p = some 2) ∧
      (s.fab.authentic p = true → seen = false → s.nackReason p = none →
        (∀ v ∈ carriedOf p, s.fab.known v p.job ≠ none ∨ wmModule v = ownModule) →
        let held := fun (t : State) => ∃ h, t.fab.holds = s.fab.holds ++ [h] ∧ h.pkt = p ∧ h.tick = s.gtick ∧ h.off = 0 ∧
          h.released = (carriedOf p).all (fun v => s.fab.known v p.job = some true) ∧ h.void = false ∧ h.parts = [] ∧
          ∀ v, v ∈ h.known ↔ v ∈ carriedOf p ∧ s.fab.known v p.job = some true
        ∃ t, exec (.packetAccept port p) s = .next t ∧ s.sends t (msg 3 0) ∧ t.mem = s.mem ∧
          (∀ x, s.fab.dest p = some x → x.ahead = [] → ∃ y, t.fab.dest p = some y ∧ y.last = s.gtick ∧ y.idle = false ∧
            (x.idle = true ∨ x.next = p.seq → y.next = (p.seq + 1) % 2 ^ 32 ∧ y.ahead = []) ∧
            (x.idle = true → y.run = 1) ∧ (x.idle = false → x.next = p.seq → y.run = x.run + 1) ∧
            (x.idle = false → x.next ≠ p.seq → y.next = x.next ∧ y.ahead = [p.seq])) ∧
          (p.ty < 2 → held t ∧ t.cores = s.cores) ∧
          (p.ty = 2 → w.state = 3 → t.fab.holds = s.fab.holds) ∧
          (p.ty = 2 → w.state = 1 → w.refuses p = true → t.fab.holds = s.fab.holds ∧ (t.windowAt (fredWin p)).state = 3 ∧
            s.endsContext t w.core w.cgen w.job 0x12 0) ∧
          (p.ty = 2 → w.state = 1 → w.refuses p = false → held t ∧ t.windowAt (fredWin p) =
            { w with got := w.got ++ [(fredRank p, fredOff p, p.payload.length)] })))

/-- Holds whose carried watermarks have landed, as they have learnt or as is known now, leave step 1 (R441); one that
carries a void watermark is dropped with NOTICE 5 (R442). A released FST or FATOM has its next part performed: exactly
its bytes change; after the last part its watermark lands, or LANDED goes to its origin (R435, R436, R440); a part
without a page it may write is dropped with NOTICE 2 or 3 (R436), one that would write a poisoned block in part with
NOTICE 4 (R436). A released FRED is folded: an operator of ranks takes an element whose rank is next, and stages
another; the first is taken as it stands; and the window it completes writes its result (R446, R448). The unit in LANDED
and NOTICE is the model's choice (log 13); that a FRED folds as it commits, that a FATOM is one part and that each
dropped part has its NOTICE are read from the rules (DEDUCED, log 32). -/
def Obligations.HoldsCommitAndLand : Prop :=
  (∀ s : State, s.fab.holds.Pairwise (fun a b => a.arr ≠ b.arr) → ∃ t, exec .holdRelease s = .next t ∧ t.cores = s.cores ∧
    t.mem = s.mem ∧ t.fab.out = s.fab.out ∧ t.fab.holds = s.fab.holds.map (fun h =>
      if !h.released && (carriedOf h.pkt).all (fun w => h.known.contains w || s.fab.known w h.pkt.job = some true) then
        { h with released := true, ev := none } else h)) ∧
  (∀ (s : State) (h : Hold),
    s.fab.holds.find? (fun h => !h.released && (h.void || (carriedOf h.pkt).any (fun w => !h.known.contains w && s.fab.known w h.pkt.job = some false))) = some h →
    ∃ t, exec .holdDropVoid s = .next t ∧ t.fab.holds = s.fab.holds.filter (fun x => x.arr != h.arr) ∧ t.mem = s.mem ∧
      t.fab.origins = s.fab.origins ∧
      s.sends t (ctrlMsg 8 h.pkt.origin h.pkt.job h.pkt.unit 5 h.pkt.seq 2)) ∧
  (∀ (k : Nat) (s v : State) (h : Hold) (q : Place), s.fab.holds[k]? = some h → h.released = true →
    let p := h.pkt
    let va := (p.addr + h.off) % 2 ^ 57
    let m := min (h.len - h.off) (65536 - va % 65536)
    let last := fun (t : State) => h.len ≤ h.off + m →
      t.fab.holds = v.fab.holds.filter (fun x => x.arr != h.arr) ∧
      (p.hasWm = true → h.dropped = false → p.origin ≠ ownModule → v.sends t (ctrlMsg 5 p.origin p.job p.unit p.ownWm 0 0)) ∧
      (p.hasWm = true → h.dropped = false → p.origin = ownModule →
        (v.fab.origins.get Origin.empty (wmSlot p.ownWm)).state = 1 →
        (v.fab.origins.get Origin.empty (wmSlot p.ownWm)).gen.toNat = wmGen p.ownWm →
        (t.fab.origins.get Origin.empty (wmSlot p.ownWm)).state = 2)
    (p.ty < 2 → s.access p.job (holdReq h.die h.arr) va m true = (v, .ok q) → q.order < 2 ∨ v.fab.lowerDone p = true →
      unitFrame (frameOf q.key) = false → v.cleanHbm →
      (p.ty = 0 → ∃ t, exec (.packetCommit k) s = .next t ∧ s.sameRegs t ∧ last t ∧
        (∀ j < m, t.mem.hbm.get 0 (q.key + j) = p.payload.getD (h.off + j) 0) ∧
        (∀ a, a < q.key ∨ q.key + m ≤ a → t.mem.hbm.get 0 a = v.mem.hbm.get 0 a)) ∧
      (p.ty = 1 → ∃ t, exec (.packetCommit k) s = .next t ∧ s.sameRegs t ∧ last t ∧
        let n := if p.sz64 then 8 else 4
        t.mem.rd q.key n = leBytes n (atomValue p.aop n (ofLe (v.mem.rd q.key n)) p.opb p.expd) ∧
        (∀ a, a < q.key ∨ q.key + n ≤ a → t.mem.hbm.get 0 a = v.mem.hbm.get 0 a))) ∧
    (p.ty < 2 → s.access p.job (holdReq h.die h.arr) va m true = (v, .ok q) → q.order < 2 ∨ v.fab.lowerDone p = true →
      unitFrame (frameOf q.key) = false → v.mem.partBad q.key (if p.ty = 0 then m else if p.sz64 then 8 else 4) ≠ [] →
      m ≤ p.payload.length - h.off →
      ∃ t, exec (.packetCommit k) s = .next t ∧ t.mem.hbm = v.mem.hbm ∧ s.sameRegs t ∧
        v.sends t (ctrlMsg 8 p.origin p.job p.unit 4 p.seq 0)) ∧
    (∀ r, p.ty < 2 → h.dropped = false → (s.access p.job (holdReq h.die h.arr) va m true = (v, .nomap) ∧ r = 2 ∨
      s.access p.job (holdReq h.die h.arr) va m true = (v, .noframe) ∧ r = 2 ∨ s.access p.job (holdReq h.die h.arr) va m true = (v, .noperm) ∧ r = 3) →
      ∃ t, exec (.packetCommit k) s = .next t ∧ t.mem.hbm = v.mem.hbm ∧
        v.sends t (ctrlMsg 8 p.origin p.job p.unit r p.seq 0))) ∧
  (∀ (k : Nat) (s : State) (h : Hold), s.fab.holds[k]? = some h → h.released = true → h.pkt.ty = 2 →
    let p := h.pkt
    let n := fredWin p
    let w := s.windowAt n
    let w2 := w.contribute (fredRank p) (fredOff p) p.payload
    w.state = 1 → w.job = p.job →
    (w2.full = false → ∃ t, exec (.packetCommit k) s = .next t ∧ t.windowAt n = w2 ∧ s.sameRegs t ∧ t.mem = s.mem ∧
      t.fab.holds = s.fab.holds.filter (fun x => x.arr != h.arr)) ∧
    (∀ v u, w2.full = true → w2.sem = none →
      (s.setWindow n w2).jobCheck w2.job (windowReq n) true w2.result w2.len (spanFuel w2.len) = (v, .ok) →
      v.jobWrite w2.job (windowReq n) 0 true w2.result w2.result_ (spanFuel w2.len) = (u, .ok) →
      ∃ t, exec (.packetCommit k) s = .next t ∧ t.mem.hbm = u.mem.hbm ∧ t.windowAt n = { w2 with state := 2, staged := [] })) ∧
  (∀ (k : Nat) (s : State) (h : Hold), s.fab.holds[k]? = some h → h.released = true → h.pkt.ty = 2 →
    (s.windowAt (fredWin h.pkt)).state ≠ 1 → ∃ t, exec (.packetCommit k) s = .next t ∧ t.fab.windows = s.fab.windows ∧
      t.fab.out = s.fab.out ∧ t.mem = s.mem ∧ t.fab.holds = s.fab.holds.filter (fun x => x.arr != h.arr)) ∧
  (∀ (w : Window) (r i : Nat) (l : List Byte), l.length = 4 →
    let v := BitVec.ofNat 32 (ofLe l)
    let a := w.acc.get 0 i
    let k := w.rank.get 0 i
    let w2 := w.contribute r (4 * i) l
    (w.op < 2 → k ≠ r → w2.acc = w.acc ∧ w2.rank = w.rank ∧ w2.staged = w.staged ++ [(r, 4 * i, l)]) ∧
    (2 ≤ w.op ∨ k = r → w.staged = [] → w2.rank.get 0 i = k + 1 ∧ w2.staged = [] ∧
      (∀ j, j ≠ i → w2.acc.get 0 j = w.acc.get 0 j ∧ w2.rank.get 0 j = w.rank.get 0 j) ∧
      (k = 0 → w2.acc.get 0 i = v) ∧
      (k ≠ 0 →
        (w.op = 0 → w2.acc.get 0 i = BitVec.ofNat 32 (f32Rne ((f32Val a.toNat).add .rne (f32Val v.toNat)).1).1) ∧
        (w.op = 1 → w2.acc.get 0 i = a + v) ∧
        (w.op = 2 ∨ w.op = 4 → w2.acc.get 0 i = BitVec.ofNat 32 (f32Rne ((f32Val a.toNat).maxMin (decide (w.op = 4)) (f32Val v.toNat))).1) ∧
        (w.op = 3 → (w2.acc.get 0 i).toInt = min a.toInt v.toInt) ∧ (w.op = 5 → (w2.acc.get 0 i).toInt = max a.toInt v.toInt) ∧
        (w.op = 6 → w2.acc.get 0 i = a ||| v) ∧ (w.op = 7 → w2.acc.get 0 i = a &&& v))) ∧
    (∀ m : List Byte, m.length = 4 → w.op = 1 → k = r → w.staged = [(r + 1, 4 * i, m)] → w2.staged = [] ∧
      w2.rank.get 0 i = k + 2 ∧ w2.acc.get 0 i = (if k = 0 then v else a + v) + BitVec.ofNat 32 (ofLe m)))

/-- Messages that fail their check change nothing but the count of their port (R430). ACK ends a packet's or an abandon
notice's repetition (R433, R519), NACK sets its next transmission with a doubled backoff (R434), either on the channel
that has the number open (which one, where both have, is the model's choice: an open value, log 13; so is the unit in
what is sent on or answered), LANDED lands a watermark at its origin, which tells the committing module, or enters the
cache there, and the holds that carry it learn it (R439 to R441), QUERY is answered with what the origin knows, or
deferred, and RELEASE enters the cache (R440); NOTICE is logged, settles an abandoned number, or ends the issuing
context and makes its watermark void (R436, R442, R443, R519). -/
def Obligations.ControlMessagesAreApplied : Prop :=
  ∀ (p : Packet) (s : State),
    let f := s.fab
    let wm := pktA p
    let o := f.origins.get Origin.empty (wmSlot wm)
    (f.authentic p = false → ∀ i ∈ [Instr.ack p, .nack p, .landed p, .query p, .release p, .notice p], ∃ t, exec i s = .next t ∧
      (t.linkAt p.port).authErr = (s.linkAt p.port).authErr + (if p.port < 16 then 1 else 0) ∧ t.fab.unacked = f.unacked ∧
      t.fab.origins = f.origins ∧ t.fab.settled = f.settled ∧ t.fab.sent = f.sent ∧ t.fab.dests = f.dests ∧ t.fab.out = f.out ∧
      t.cores = s.cores ∧ t.mem = s.mem) ∧
    (f.authentic p = true →
      (∃ t v, exec (.ack p) s = .next t ∧ (v = 0 ∨ v = 3) ∧
        (∀ w ∈ [0, 3], f.acksFor p w = true → f.acksFor p (3 - w) = false → v = w) ∧ t.cores = s.cores ∧ t.mem = s.mem ∧
        t.fab.out = f.out ∧ t.fab.unacked = f.unacked.filter (fun u => !u.isFor p v) ∧
        t.fab.abandons = f.abandons.filter (fun a => !a.isFor p v)) ∧
      (∃ t v, exec (.nack p) s = .next t ∧ (v = 0 ∨ v = 3) ∧ (∀ w ∈ [0, 3], f.unacked.any (·.isFor p w) = true →
          f.unacked.any (·.isFor p (3 - w)) = false → v = w) ∧ t.cores = s.cores ∧ t.mem = s.mem ∧ t.fab.out = f.out ∧
        t.fab.unacked = f.unacked.map (fun u =>
          if u.isFor p v then { u with due := s.gtick + u.backoff, backoff := min 64000 (2 * u.backoff) } else u)) ∧
      (wmModule wm ≠ ownModule → ∃ t, exec (.landed p) s = .next t ∧ t.cores = s.cores ∧ t.mem = s.mem ∧
        (∀ (k : Nat) (h : Hold), f.holds[k]? = some h → h.released = false → wm ∈ carriedOf h.pkt →
          t.fab.holds[k]? = some { h with known := wm :: h.known }) ∧
        ∃ e ∈ t.fab.settled, e.wm.toNat = wm ∧ e.landed = true ∧ e.tick = s.gtick) ∧
      (wmModule wm = ownModule → o.state = 1 → o.gen.toNat = wmGen wm → o.job = p.job → ∃ t, exec (.landed p) s = .next t ∧
        t.mem = s.mem ∧ (t.fab.origins.get Origin.empty (wmSlot wm)).state = 2 ∧
        (o.queriers = [] → s.sends t (ctrlMsg 5 p.origin p.job p.unit wm 0 0))) ∧
      (wmModule wm = ownModule →
        let answer := fun (a : Nat) => ∃ t, exec (.query p) s = .next t ∧ t.fab.origins = f.origins ∧
          s.sends t (ctrlMsg 7 p.origin p.job p.unit wm a 0)
        let stale := o.state = 0 ∨ o.state = 2 ∨ o.job ≠ p.job ∨ o.gen.toNat ≠ wmGen wm
        (stale → answer 0) ∧ (¬stale → o.state = 3 → answer 1) ∧
        (¬stale → o.state = 1 → (p.origin, p.unit) ∉ o.queriers →
          (8 ≤ o.queriers.length → answer 2) ∧
          (o.queriers.length < 8 → ∃ t, exec (.query p) s = .next t ∧ t.fab.out = f.out ∧ t.inputs = s.inputs ∧
            t.fab.origins.get Origin.empty (wmSlot wm) = { o with queriers := o.queriers ++ [(p.origin, p.unit)] }))) ∧
      (pktB p ≤ 1 → ∃ t, exec (.release p) s = .next t ∧ t.cores = s.cores ∧ t.mem = s.mem ∧
        (∀ q ∈ t.fab.queries, q.wm.toNat ≠ wm) ∧
        (∀ (k : Nat) (h : Hold), f.holds[k]? = some h → h.released = false → wm ∈ carriedOf h.pkt →
          t.fab.holds[k]? = some (if pktB p = 0 then { h with known := wm :: h.known } else { h with void := true })) ∧
        ∃ e ∈ t.fab.settled, e.wm.toNat = wm ∧ e.landed = decide (pktB p = 0) ∧ e.tick = s.gtick) ∧
      (wm = 1 → ∃ t, exec (.notice p) s = .next t ∧ t.host.log = s.host.log ++ [(s.gtick, 1)] ∧ t.cores = s.cores) ∧
      (wm = 7 → ∃ t, exec (.notice p) s = .next t ∧ t.fab.holds = f.holds ∧ t.mem = s.mem ∧
        s.sends t (ctrlMsg 3 p.origin p.job p.unit (pktB p) 0 0)) ∧
      (∀ r, ∀ v ∈ [0, 3], f.sent.find? (·.isFor p v) = some r → f.sent.any (·.isFor p (3 - v)) = false →
        ∀ cause detail, (wm, cause, detail) ∈ [(2, 0x06, 0), (3, 0x08, 0), (4, 0x0B, 0), (5, 0x0E, 2), (6, 0x0E, 1)] →
        ∃ t, exec (.notice p) s = .next t ∧ t.fab.sent = f.sent.erase r ∧ s.endsContext t r.core r.cgen r.job cause detail ∧
          ∀ n, r.wm = some n → (f.origins.get Origin.empty (wmSlot n.toNat)).state = 1 →
            (f.origins.get Origin.empty (wmSlot n.toNat)).gen.toNat = wmGen n.toNat →
            (t.fab.origins.get Origin.empty (wmSlot n.toNat)).state = 3))

/-- The fabric's timers: a packet due goes out again (R433) and one past its window is abandoned, its destination told
until it answers (R433, R519); holds and origin slots expire (R443), the host being asked first where DUTY bit 3 says so
(R444); a landed slot is freed after 1 ms (R439), a query goes out again while it is needed, cache entries leave after
500 µs (R440), idle streams are forgotten (R433, R519), and a window still open at its timeout, or one of a job killed
on another module, is poisoned (R449). The model's own are what a forgotten stream keeps and the unit 128 of a QUERY
(DESIGN CHOICE, log 13), that the ports first try again what they hold (log 8), and how a module learns of a kill
elsewhere (log 12). -/
def Obligations.FabricTimers : Prop :=
  ∀ s : State, let f := s.fab
    let asks := fun (job ext : Nat) => s.dutyBit job 3 = true ∧ ext < 15
    (∀ u, f.unacked.find? (fun u => u.due ≤ s.gtick) = some u → ∃ t, exec .retransmitTimeout s = .next t ∧
      t.fab.unacked = f.unacked.map (fun v => if v = u then { u with due := s.gtick + 100000 } else v) ∧ s.pump.sends t u.pkt) ∧
    ((∀ q < 16, (s.linkAt q).buffer = [] ∧ (s.linkAt q).col = []) → s.pump = s) ∧
    (∀ u, f.unacked.find? (fun u => u.ev.isNone && decide (u.first + f.expiry u.pkt.job ≤ s.gtick)) = some u →
      let p := u.pkt
      (asks p.job u.ext → ∃ t, exec .packetAbandon s = .next t ∧ s.tells t (.event s.host.evNext 4 p.job [p.seq, 3]) ∧
        t.fab.unacked = f.unacked.map (fun v => if v = u then { u with ev := some s.host.evNext } else v)) ∧
      (¬asks p.job u.ext → ∃ t, exec .packetAbandon s = .next t ∧ t.fab.unacked = f.unacked.filter (fun v => v != u) ∧
        s.endsContext t u.core u.cgen p.job 0x0E 3 ∧
        (∃ a, t.fab.abandons = f.abandons ++ [a] ∧ a.seq = p.seq ∧ a.due = s.gtick + 100000) ∧
        (p.hasWm = false → s.sends t (ctrlMsg 8 p.dest p.job p.unit 7 p.seq (Packet.vc p.ty))) ∧
        (p.hasWm = true → (f.origins.get Origin.empty (wmSlot p.ownWm)).state = 1 →
          (f.origins.get Origin.empty (wmSlot p.ownWm)).gen.toNat = wmGen p.ownWm →
          (t.fab.origins.get Origin.empty (wmSlot p.ownWm)).state = 3))) ∧
    (∀ h, f.holds.find? (fun h => !h.released && h.ev.isNone && decide (h.tick + f.expiry h.pkt.job ≤ s.gtick)) = some h →
      let p := h.pkt
      (asks p.job h.ext → ∃ t, exec .holdExpiry s = .next t ∧
        s.tells t (.event s.host.evNext 4 p.job [if p.hasWm then p.ownWm else p.seq, 1]) ∧ t.fab.out = f.out) ∧
      (¬asks p.job h.ext → ∃ t, exec .holdExpiry s = .next t ∧ t.fab.holds = f.holds.filter (fun x => x.arr != h.arr) ∧
        t.mem = s.mem ∧ s.sends t (ctrlMsg 8 p.origin p.job p.unit 6 p.seq 1))) ∧
    (∀ e, f.origins.find? (fun e => e.2.state = 1 && e.2.ev.isNone &&
        decide (e.2.win + f.expiry e.2.job ≤ s.gtick)) = some e → f.origins.get Origin.empty e.1 = e.2 →
      let o := e.2
      (asks o.job o.ext → ∃ t, exec .originSlotExpiry s = .next t ∧
        s.tells t (.event s.host.evNext 4 o.job [ownModule * 2 ^ 20 + e.1 * 256 + o.gen.toNat, 4]) ∧
        (t.fab.origins.get Origin.empty e.1).state = 1) ∧
      (¬asks o.job o.ext → ∃ t, exec .originSlotExpiry s = .next t ∧ (t.fab.origins.get Origin.empty e.1).state = 3 ∧
        s.endsContext t o.core o.cgen o.job 0x0E 4)) ∧
    (∀ e, f.origins.find? (fun e => e.2.state = 2 && decide (e.2.tick + 1000000 ≤ s.gtick)) = some e →
      ∃ t, exec .watermarkSlotFree s = .next t ∧ (t.fab.origins.get Origin.empty e.1).state = 0 ∧
        (t.fab.origins.get Origin.empty e.1).gen = e.2.gen ∧ t.cores = s.cores ∧ t.mem = s.mem) ∧
    (∀ q, f.queries.find? (fun q => q.due ≤ s.gtick) = some q →
      (s.wmNeeded q.wm.toNat = true → ∃ t, exec .queryResend s = .next t ∧
        s.sends t (ctrlMsg 6 (wmModule q.wm.toNat) q.job 128 q.wm.toNat 0 0) ∧
        t.fab.queries = f.queries.map (fun x => if x = q then { q with due := s.gtick + 100000 } else x)) ∧
      (s.wmNeeded q.wm.toNat = false → ∃ t, exec .queryResend s = .next t ∧ t.fab.queries = f.queries.erase q ∧
        t.fab.out = f.out)) ∧
    (∃ t, exec .settledCacheExpiry s = .next t ∧ t.fab.settled = f.settled.filter (fun e => s.gtick < e.tick + 500000) ∧
      t.cores = s.cores ∧ t.mem = s.mem) ∧
    (∀ a, f.abandons.find? (fun a => a.due ≤ s.gtick) = some a →
      (a.since + f.expiry a.pkt.job + 1000000 ≤ s.gtick → ∃ t, exec .abandonNoticeResend s = .next t ∧
        t.fab.abandons = f.abandons.erase a ∧ t.fab.out = f.out) ∧
      (s.gtick < a.since + f.expiry a.pkt.job + 1000000 → ∃ t, exec .abandonNoticeResend s = .next t ∧ s.sends t a.pkt)) ∧
    (∃ t, exec .streamIdleExpiry s = .next t ∧ t.cores = s.cores ∧ t.mem = s.mem ∧ t.fab.dests.length = f.dests.length ∧
      ∀ (i : Nat) (x : Dest), f.dests[i]? = some x → ∃ y : Dest, t.fab.dests[i]? = some y ∧
        (x.last + f.expiry x.job + 1000000 ≤ s.gtick → y = { x with idle := true, next := 0, run := 0, ahead := [] }) ∧
        (s.gtick < x.last + f.expiry x.job + 1000000 → y = x)) ∧
    (∀ e, f.windows.find? (fun e => e.2.state = 1 && decide (e.2.openTick + e.2.timeout ≤ s.gtick)) = some e →
      s.windowAt e.1 = e.2 → f.killed = [] → ∃ t, exec .windowTimeout s = .next t ∧ t.windowAt e.1 = { e.2 with state := 3, staged := [] } ∧
        s.endsContext t e.2.core e.2.cgen e.2.job 0x12 0 ∧ s.sameRegs t ∧ t.mem = s.mem) ∧
    (∀ job e, f.windows.find? (fun e => e.2.state = 1 && decide (e.2.openTick + e.2.timeout ≤ s.gtick)) = none →
      f.killed = [job] → f.windows.filter (fun e => e.2.state = 1 && e.2.job = job) = [e] → s.windowAt e.1 = e.2 →
      ∃ t, exec .windowTimeout s = .next t ∧ t.windowAt e.1 = { e.2 with state := 3, staged := [] } ∧ t.fab.killed = [] ∧
        s.endsContext t e.2.core e.2.cgen e.2.job 0x12 0 ∧ t.mem = s.mem)

/-- Links: an uncorrectable flit is counted (R429); a link that goes down holds its packets and retrains after 1 ms
(R454); the record that an end sends carries its view and the echo, and every link that is down sends one every 10 µs
(R452); a training record that agrees with the end's view in every field starts the link with full credits and sends
what was held, another is logged beside the end's own and retried (R453); a retraining end measures its lanes again,
doubling its interval up to 64 ms, or asks the host, which gets both records (R452, R454). Which job's partition holds a
port (an open value), the byte order of the CRC (log 13), the form of the event (log 15) and that the ports first try
again what they hold (log 8) are the model's. Power and the Ethernet ports: power or reset runs the boot ROM, which
verifies at STAGE 1, and starts a firmware image that verifies or awaits one (R475, R482); power-off keeps only the
flash, the fuses and the ports (R479); without power the machine stops. RDMA reads and writes a job's pages for the host
through its translations, from the die of the port it comes by, waiting for a page's service where one is needed (R471;
10 R309), in order on its queue pair (PRESUMED, log 40); an access to a job that is not live completes with an error
(DESIGN CHOICE, log 15). What a power-off keeps and OUTSTEP from the boot on are read from the rules (DEDUCED, log 36);
the firmware's entry, and that it starts on core 128 with every other core as it stands (R478), are the model's (DESIGN
CHOICE, log 37). Events leave by port 1 while port 0 is down (R474). -/
def Obligations.LinksAndPower : Prop :=
  (
  (∀ (port : Nat) (s : State), let l := s.linkAt port
    (∃ t, exec (.fecUncorrectable port) s = .next t ∧ t.linkAt port = { l with fecErr := l.fecErr + 1 } ∧
      (∀ q, q ≠ port → t.linkAt q = s.linkAt q) ∧ t.cores = s.cores ∧ t.mem = s.mem) ∧
    (l.up = true → ∃ t, exec (.linkDown port) s = .next t ∧ (∀ q, q ≠ port → t.linkAt q = s.linkAt q) ∧ t.cores = s.cores ∧ t.mem = s.mem ∧ t.linkAt port =
        { l with up := false, downAt := s.gtick, retry := 1000000, retryAt := some (s.gtick + 1000000), peer := LinkView.empty }) ∧
    (∀ r, l.up = false → let v := recView r
      let agrees := recOk r = true ∧ v.speed = l.view.speed ∧ v.width = l.view.width ∧ v.lanes = l.view.lanes ∧ recEcho r = l.view ∧
        v.width = lanesUsed v.lanes
      (∀ v, agrees → v = 0 ∨ v = 1 ∨ v = 3 → l.col = [] → (∀ p ∈ l.buffer, Packet.vc p.ty = v) → (l.buffer.map Packet.flits).sum ≤ 256 →
        ∃ t, exec (.trainingRecord port r) s = .next t ∧ (t.linkAt port).up = true ∧ (t.linkAt port).buffer = [] ∧ (t.linkAt port).peer = recView r ∧
          (∀ w, (t.linkAt port).credit.get 0 w = freshCredits.get 0 w - if w = v then (l.buffer.map Packet.flits).sum else 0) ∧
          t.fab.out = s.fab.out ++ l.buffer.map (fun p => (port, p)) ∧ t.mem = s.mem) ∧
      (¬agrees → ∃ t, exec (.trainingRecord port r) s = .next t ∧ (t.linkAt port).up = false ∧
        (t.linkAt port).mismatch = (r, l.record) :: l.mismatch ∧ (t.linkAt port).retryAt.isSome = true ∧ t.fab.out = s.fab.out))) ∧
  (∀ l : Link, (∀ v ∈ [l.view, l.peer], v.mod < 4096 ∧ v.port < 16 ∧ v.speed < 256 ∧ v.width < 256 ∧ v.lanes < 2 ^ 144) →
    l.record.bytes.length = 64 ∧ recOk l.record = true ∧ recView l.record = l.view ∧ recEcho l.record = l.peer) ∧
  (∀ s : State, ∃ t, exec .retrainTimer s = .next t ∧ t.fab.train = s.fab.train ++ ((List.range 16).filter (fun p =>
    !(s.linkAt p).up && decide ((s.linkAt p).sentAt + 10000 ≤ s.gtick))).map (fun p => (p, (s.linkAt p).record))) ∧
  (∀ (s : State) (p : Nat), let u := s.pump
    let l := u.linkAt p
    (List.range 16).find? (fun p => let l := u.linkAt p
      !l.up && l.retryEv.isNone && (match l.retryAt with | some t => decide (t ≤ s.gtick) | none => true)) = some p →
    ((∀ n j, l.part = some n → s.job n = some j → j.duty.getLsbD 6 = false) → ∃ t, exec .retrainTimer s = .next t ∧
      (t.linkAt p).retry = min 64000000 (2 * l.retry) ∧ (t.linkAt p).retryAt = some (s.gtick + min 64000000 (2 * l.retry)) ∧
      (t.linkAt p).view.width = lanesUsed (t.linkAt p).view.lanes ∧ (t.linkAt p).view.valid = true ∧
      (l.view.valid = true → ∀ i, (t.linkAt p).view.lanes.testBit i = true → l.view.lanes.testBit i = true)) ∧
    (∀ n j, l.part = some n → s.job n = some j → j.duty.getLsbD 6 = true → ∃ t, exec .retrainTimer s = .next t ∧
      (t.linkAt p).retryEv = some s.host.evNext ∧
      s.tells t (.event s.host.evNext 6 j.num
        (p :: (l.record.bytes ++ (match l.got with | some r => slice r.bytes 0 64 | none => zeros 64)).map (·.toNat)))))) ∧
  (
  (∀ s : State,
    (s.host.powered = true → 2 ≤ s.host.stage → exec .powerOn s = .next s) ∧
    ((s.host.powered = false ∨ s.host.stage = 0) → ∃ t, exec .powerOn s = .next t ∧ t.host.powered = true ∧ t.mem = s.mem ∧
      t.host.stage = 1 ∧ t.cores = s.cores ∧ t.host.flash = s.host.flash ∧
      ((s.clk.mem ownModule).in s.gtick = false → t.outStep = true)) ∧
    (s.host.powered = true → s.host.stage = 1 → s.host.checking = none → ∃ t, exec .powerOn s = .next t ∧ t.mem = s.mem ∧
      (imageVerifies s.host.rollback s.host.flash = true → t.host.stage = 3 ∧ (t.core 128).job = some 0xFFFFF ∧
        (t.core 128).seq.phase = .run ∧ (t.core 128).seq.pc % 4 = 0 ∧ (t.core 128).seq.pc < s.host.flash.length ∧
        ∀ c, c ≠ 128 → t.core c = s.core c) ∧
      (imageVerifies s.host.rollback s.host.flash = false → t.host.stage = 2 ∧ t.cores = s.cores)) ∧
    (∃ t, exec .powerOff s = .next t ∧ t.host.powered = false ∧ t.host.flash = s.host.flash ∧ t.host.rollback = s.host.rollback ∧
      t.host.sigs = s.host.sigs ∧
      t.cores = [] ∧ t.mem = Mem.empty ∧ t.sched.jobs = [] ∧ t.fab = Fabric.empty) ∧
    (s.agenda = [] → s.inputs = [] → s.host.powered = false → step s = .fault .poweredOff)) ∧
  (∀ (port : Nat) (up : Bool) (s : State), ∃ t, exec (.ethernetLinkChange port up) s = .next t ∧ t.mem = s.mem ∧ t.cores = s.cores ∧
    (port = 0 → t.host.ethDown = !up ∧ t.host.port = (if up then 0 else 1)) ∧ (port = 1 → t.host.ethDown1 = !up) ∧
    (port ≠ 0 → t.host.port = s.host.port)) ∧
  (∀ (x : RdmaKey) (va n : Nat) (data : List Byte) (s : State), s.host.powered = true → s.host.stage = 3 → x.qp < 1024 →
    (x.port = 0 ∧ s.host.ethDown = false ∨ x.port = 1 ∧ s.host.ethDown1 = false) →
    (∀ r ∈ s.host.rdma, r.key.port = x.port → r.key.qp = x.qp → s.host.rdmaNext ≤ r.num) →
    let job := x.job
    let die := if x.port = 0 then 0 else 2
    let told := fun (s t : State) (ok : Bool) (l : List Byte) => t.host.out = s.host.out ++ [(x.port, .rdma x.qp ok l)]
    let rq := rdmaReq die s.host.rdmaNext
    let s0 := s.onHost (fun h => { h with rdmaNext := h.rdmaNext + 1 })
    (s.job job = none → (∃ t, exec (.rdmaWrite x va data) s = .next t ∧ told s t false [] ∧ t.mem = s.mem) ∧
      (∃ t, exec (.rdmaRead x va n) s = .next t ∧ told s t false [] ∧ t.mem = s.mem)) ∧
    ((s.job job).isSome = true →
      (∀ v u q, s0.jobCheck job rq true va data.length (spanFuel data.length) = (v, .ok) →
        v.access job rq va data.length true = (u, .ok q) → data ≠ [] → va % 65536 + data.length ≤ 65536 → unitFrame (frameOf q.key) = false → u.cleanHbm →
        ∃ t, exec (.rdmaWrite x va data) s = .next t ∧ told u t true [] ∧ s.sameRegs t ∧
          (∀ i < data.length, t.mem.hbm.get 0 (q.key + i) = data.getD i 0) ∧
          (∀ a, a < q.key ∨ q.key + data.length ≤ a → t.mem.hbm.get 0 a = u.mem.hbm.get 0 a)) ∧
      (∀ v l, s0.jobRead job rq 12 none 0 va n (spanFuel n) = (v, .ok l) → ∃ t, exec (.rdmaRead x va n) s = .next t ∧
        told v t true l ∧ t.mem = v.mem) ∧
      (∀ v, s0.jobRead job rq 12 none 0 va n (spanFuel n) = (v, .wait) → ∃ t, exec (.rdmaRead x va n) s = .next t ∧
        t.host.out = v.host.out ∧ t.host.rdma = v.host.rdma ++ [⟨s.host.rdmaNext, x, va, n, none⟩]))) ∧
  (∀ (x : RdmaKey) (va n : Nat) (s : State) (r : Rdma), s.host.powered = true → s.host.stage = 3 → x.qp < 1024 →
    (x.port = 0 ∧ s.host.ethDown = false ∨ x.port = 1 ∧ s.host.ethDown1 = false) →
    r ∈ s.host.rdma → r.key.port = x.port → r.key.qp = x.qp → r.num < s.host.rdmaNext →
    ∃ t, exec (.rdmaRead x va n) s = .next t ∧ t.host.out = s.host.out ∧ t.mem = s.mem ∧
      t.host.rdma = s.host.rdma ++ [⟨s.host.rdmaNext, x, va, n, none⟩]))
/-! ### The host (19_host_boot_power.md; 12 R342 to R344; 10 R307, R308, R315; 17 R427, R445, R450) -/

/-- Datagrams: one that fails its check, or that the boot ROM does not take, is dropped (R472, R475); the next in order
is applied, one ahead is held, one behind is acknowledged again as before, and an unknown TYPE is answered with an error
(R472, R473). Each TYPE's event is the arrival of a datagram of that TYPE. The ROUTE, KEY and REGRD payloads, and what
the rules leave open, are the model's (log 15): ROUTE sets the entries of the destinations it names (17 R427), KEY the
key and expiry of its job (17 R450), REGRD reads a housekeeping register, REGWR writes one (R481, R482), and DISCARD
marks the frames of its range (10 R315). Read from the rules are the window of 2^31 for what lies ahead and behind, that
a datagram the boot ROM does not take uses no SEQ (DEDUCED, log 34), and PCAP's 16 bits (DEDUCED, log 36). -/
def Obligations.DatagramsAreTakenInOrder : Prop :=
  (∀ (d : Datagram) (s : State),
    (∀ i ty, (i, ty) ∈ [(Instr.launch d, 1), (.jobend d, 2), (.inval d, 3), (.discard d, 4), (.key d, 5), (.route d, 6),
        (.kill d, 7), (.start d, 8), (.regrd d, 10), (.reply d, 11), (.attest d, 12), (.image d, 13), (.clock d, 14)] →
      (d.ty = ty → exec i s = exec (.datagramReorder d) s) ∧ (d.ty ≠ ty → exec i s = .next s)) ∧
    (s.gramOk d = true ↔ d.magic = 0x5A57 ∧ d.dir = 0 ∧ d.job < 2 ^ 20 ∧ d.len = d.payload.length ∧ d.len ≤ 8192 ∧ d.zero = 0 ∧
      d.tag = Config.datagramTag s.host.session ((leBytes 2 0x5A57 ++ [b8 d.ty, 0] ++ leBytes 4 d.seq ++ leBytes 4 d.job ++
        leBytes 4 d.len ++ leBytes 8 d.correl ++ zeros 8).map (·.toNat)) d.payload) ∧
    (s.host.powered = false ∨ s.gramOk d = false ∨ s.host.stage ≠ 3 ∧ d.ty ≠ 10 ∧ d.ty ≠ 13 →
      exec (.datagramReorder d) s = .next s) ∧
    (s.host.powered = true → s.gramOk d = true → s.host.stage = 3 →
      let ahead := (d.seq + 2 ^ 32 - s.host.seqNext) % 2 ^ 32
      (0 < ahead → ahead < 2 ^ 31 → s.host.held.length < 64 → s.host.held.any (fun h => h.1.seq = d.seq) = false →
        exec (.datagramReorder d) s = .next (s.onHost (fun h => { h with held := h.held ++ [(d, s.gtick)] }))) ∧
      (0 < ahead → ahead < 2 ^ 31 → 64 ≤ s.host.held.length → exec (.datagramReorder d) s = .next s) ∧
      (∀ e l, 2 ^ 31 ≤ ahead → s.host.out = l ++ [e] → (∃ p, e.2 = .ack d.seq p) →
        ∃ t, exec (.datagramReorder d) s = .next t ∧ s.tells t e.2 ∧ t.cores = s.cores ∧ t.mem = s.mem)) ∧
    (s.inTurn d → s.host.stage = 3 → (d.ty = 0 ∨ 14 < d.ty) → ∃ t, exec (.datagramReorder d) s = .next t ∧
      (∃ g, t.host.grams = s.host.grams ++ [g] ∧ g.magic = 0x5A57 ∧ g.ty = 0x81 ∧ g.dir = 1 ∧ g.seq = s.host.seqOut ∧
        g.len = 0xFFFFFFFF ∧ g.correl = d.seq ∧ g.tag = gramTag s.host.session g) ∧ t.host.seqOut = (s.host.seqOut + 1) % 2 ^ 32 ∧
      s.tells t (.badType d.seq) ∧ t.host.seqNext = (d.seq + 1) % 2 ^ 32 ∧ t.cores = s.cores ∧ t.mem = s.mem)) ∧
  (∀ (d : Datagram) (s : State), s.inTurn d → s.host.stage = 3 →
    let n := d.job % 2 ^ 20
    let p := d.payload
    (∀ i, d.ty = 6 → 4 * i + 4 ≤ p.length → num p (4 * i) 2 < 4096 →
      (∀ j, i < j → 4 * j + 4 ≤ p.length → num p (4 * j) 2 ≠ num p (4 * i) 2) →
      ∃ t, exec (.route d) s = .next t ∧ s.acked t d [] ∧ t.fab.route.get 0 (num p (4 * i) 2) = b8 (num p (4 * i + 2) 1) &&& 0x8F ∧
        t.cores = s.cores ∧ t.mem = s.mem) ∧
    (∀ k, d.ty = 5 → Config.unwrapKey (p.drop 4) = some k → ∃ t, exec (.key d) s = .next t ∧ s.acked t d [] ∧
      (n ≠ 0xFFFFF → t.fab.keys.get none n = some (k, if num p 0 4 = 0 then 2000000 else num p 0 4) ∧
        (∀ m, m ≠ n → t.fab.keys.get none m = s.fab.keys.get none m)) ∧
      (n = 0xFFFFF → t.fab.groupKey = some k)) ∧
    (d.ty = 5 → Config.unwrapKey (p.drop 4) = none → ∃ t, exec (.key d) s = .next t ∧ s.acked t d [] ∧ t.fab = s.fab) ∧
    (∀ j, d.ty = 4 → s.job n = some j → let va := num p 0 8 % 2 ^ 57
      let len := num p 8 8
      ∃ t, exec (.discard d) s = .next t ∧ s.acked t d [] ∧ s.sameMem t ∧
        (∀ f, s.mem.discarded.get false f = true → t.mem.discarded.get false f = true) ∧
        ∀ x ∈ j.leaves s.mem va (va + len), ptePres x.2.2.2 = true → ∀ i < pageBytes x.2.1 / 65536,
          x.1 + 65536 * i < va + len → va < x.1 + 65536 * (i + 1) → let f := frameId (pteDie x.2.2.2) (ptePbase x.2.2.2 + i)
          unitFrame f = false → t.mem.discarded.get false f = true) ∧
    (d.ty = 9 → let a := num p 0 8
      let v := num p 8 8
      (a = 0x20 → ∃ t, exec (.pcapWrite d) s = .next t ∧ s.acked t d [] ∧ t.host.pcap = max 1000 (min 4600 (v % 65536))) ∧
      (a = 0x30 → s.settled → ∃ t, exec (.hkdutyWrite d) s = .next t ∧ s.acked t d [] ∧ t.host.hkduty.toNat = v % 256 ∧
        (t.core 128).ctx.duty.toNat = v % 256) ∧
      (∀ die < 4, a = 0x100 + 8 * die → ∃ t, exec (.cerrWrite d) s = .next t ∧ s.acked t d [] ∧
        (∀ b, (t.mem.cerr.get 0 die).getLsbD b = ((s.mem.cerr.get 0 die).getLsbD b && !v.testBit b)) ∧
        (∀ e, e ≠ die → t.mem.cerr.get 0 e = s.mem.cerr.get 0 e)) ∧
      (a = 0x08 → ∃ t, exec (.hkstatWrite d) s = .next t ∧ s.acked t d [] ∧ t.host.throt = (s.host.throt && !v.testBit 3) ∧
        t.host.elogNew = (s.host.elogNew && !v.testBit 1) ∧ t.host.stage = 3) ∧
      ((∀ r ∈ [0x08, 0x20, 0x30, 0x100, 0x108, 0x110, 0x118], a ≠ r) → ∃ t, exec (.regwr d) s = .next t ∧ s.acked t d [] ∧
        t.cores = s.cores ∧ t.mem = s.mem ∧ t.clk = s.clk))) ∧
  (∀ (d : Datagram) (s : State), s.inTurn d → d.ty = 10 → let a := num d.payload 0 8
    (∃ t, exec (.regrd d) s = .next t ∧ s.acked t d (leBytes 8 (s.hkRead a)) ∧ t.cores = s.cores ∧ t.mem = s.mem) ∧
    s.hkRead 0 = 0x6480 * 2 ^ 32 + Config.revision.toNat ∧ s.hkRead 0x20 = s.host.pcap ∧ s.hkRead 0x28 = s.clk.prot ∧
    s.hkRead 0x30 = s.host.hkduty.toNat ∧ s.hkRead 0x08 = 16 * s.host.stage + (if s.host.throt then 8 else 0) +
      (if s.outStep then 4 else 0) + (if s.host.elogNew then 2 else 0) ∧
    (∀ die < 4, s.hkRead (0x100 + 8 * die) = (s.mem.cerr.get 0 die).toNat) ∧ (∀ b, b % 8 ≠ 0 → s.hkRead b = 0))

/-- LAUNCH of a well-formed image takes the job up, with a context at the entry of every core its start vector names,
and a failed one reports its lowest reason and changes no job (12 R342 to R344); what LAUNCH carries is the model's
choice (log 14). JOBEND ends the job's contexts and gives up all that it held, its memory once its table is written back
(R473; 12 R345; 14 R399; 17 R445, R451), in one step (DEDUCED, log 38); the key of a job that is not live goes too.
START begins a context on an idle core that the start vector names, and answers with its status otherwise; KILL ends one
with cause 0x13, its acknowledgement waiting for the end (R521); it acts where the header's job holds the core (DEDUCED,
log 34). INVAL takes the translations of a range out of every cache and is then acknowledged, and a forced one kills the
contexts that hold its pages (10 R307, R308); a range in service makes it wait. -/
def Obligations.JobsAndInvalidations : Prop :=
  ∀ (d : Datagram) (s : State), s.inTurn d → s.host.stage = 3 →
    let n := d.job % 2 ^ 20
    let p := d.payload
    (d.ty = 1 → let va := num p 0 8 % 2 ^ 57
      let w := s.counted.setJob { Job.blank n with ptroot := BitVec.ofNat 64 (num p 8 8) }
      (∀ t1, w.imageRead n va 64 3 = (t1, none) → ∃ t, exec (.launch d) s = .next t ∧ s.acked t d [] ∧ t.sched = s.sched ∧
        ∃ l, t.host.out = s.host.out ++ l ++ [(s.host.port, .event t1.host.evNext 16 n [1]), (s.host.port, .ack d.seq [])]) ∧
      (∀ t1 t2 t3 h l x ks, w.imageRead n va 64 3 = (t1, some h) →
        t1.imageRead n va (num h 8 8) (spanFuel (num h 8 8)) = (t2, some l) → imageSects l = some x →
        t2.launchReasons n l x = (t3, ks) →
        (∀ k rest, ks = k :: rest → ∃ t, exec (.launch d) s = .next t ∧ s.acked t d [] ∧ t.sched = s.sched ∧
          ∃ o, t.host.out = o ++ [(s.host.port, .event t3.host.evNext 16 n [k]), (s.host.port, .ack d.seq [])]) ∧
        (ks = [] → s.job n = none →
          let j := jobOfImage n l x ((sectOf x 6).body l)
          ∃ t b, exec (.launch d) s = .next t ∧ s.acked t d [] ∧ t.job n = some b ∧ b.pword = j.pword ∧ b.tcb = j.tcb ∧
            b.ptroot = j.ptroot ∧ b.code = j.code ∧
            ∀ e ∈ started j.start, s.begins t e.1 n e.2 ∧ (t.core e.1).ctx.pword = j.pword))) ∧
    (d.ty = 2 → s.job n = none → ∃ t, exec (.jobend d) s = .next t ∧ s.acked t d [] ∧ t.fab.keys.get none n = none ∧
      t.sched = s.sched) ∧
    (∀ j, d.ty = 2 → s.job n = some j → j.num = n → j.ending = [] →
      let w := j.tcb.foldl (fun s e => s.writeBack n e.1) s.counted
      (∃ x ∈ w.sched.writes, x.job = n) → (∀ i ∈ s.sched.jobs.filterMap (·.2), i.ending = []) →
      ∃ t b, exec (.jobend d) s = .next t ∧ t.host.out = w.host.out ∧ t.sched.writes = w.sched.writes ∧ t.job n = some b ∧
        b.ending = [d.seq] ∧ t.fab.keys.get none n = none ∧ (∀ c, (t.core c).job ≠ some n)) ∧
    (∀ j, d.ty = 2 → s.job n = some j → j.num = n → j.ending = [] →
      (∀ x ∈ (j.tcb.foldl (fun s e => s.writeBack n e.1) s.counted).sched.writes, x.job ≠ n) →
      (∀ i ∈ s.sched.jobs.filterMap (·.2), i.ending = []) → ∃ t, exec (.jobend d) s = .next t ∧ s.acked t d [] ∧ t.job n = none ∧
      t.fab.keys.get none n = none ∧ (∀ h ∈ t.fab.holds, h.pkt.job ≠ n) ∧ (∀ u ∈ t.fab.unacked, u.pkt.job ≠ n) ∧
      (∀ v, (t.vatAt v).state ≠ 0 → (t.vatAt v).owner ≠ n) ∧ (∀ k, t.semOwner.get none k ≠ some n) ∧
      (∀ c, (t.core c).job ≠ some n)) ∧
    (∀ c, d.ty = 8 → p.length = 2 → num p 0 2 = c → c < 128 →
      (s.job n = none → ∃ t, exec (.start d) s = .next t ∧ s.acked t d (leBytes 8 2) ∧ t.cores = s.cores) ∧
      (∀ j, s.job n = some j → j.ending ≠ [] → ∃ t, exec (.start d) s = .next t ∧ s.acked t d (leBytes 8 2) ∧ t.cores = s.cores) ∧
      (∀ j, s.job n = some j → j.num = n → j.ending = [] →
        ((s.core c).job.isSome = true → ∃ t, exec (.start d) s = .next t ∧ s.acked t d (leBytes 8 3) ∧ t.cores = s.cores) ∧
        ((s.core c).job = none → (j.start.getD c 0).getLsbD 63 = false → ∃ t, exec (.start d) s = .next t ∧
          s.acked t d (leBytes 8 4) ∧ t.cores = s.cores) ∧
        ((s.core c).job = none → (j.start.getD c 0).getLsbD 63 = true → ∃ t, exec (.start d) s = .next t ∧
          s.acked t d (leBytes 8 0) ∧ s.begins t c n (j.start.getD c 0) ∧ (∀ e, e ≠ c → t.core e = s.core e)))) ∧
    (d.ty = 8 → (p.length ≠ 2 ∨ 128 ≤ num p 0 2) → ∃ t, exec (.start d) s = .next t ∧ s.acked t d (leBytes 8 1) ∧ t.cores = s.cores) ∧
    (∀ c, d.ty = 7 → p.length = 2 → num p 0 2 = c → c < 128 →
      ((s.core c).job ≠ some n → ∃ t, exec (.kill d) s = .next t ∧ s.acked t d [] ∧ t.cores = s.cores) ∧
      ((s.core c).job = some n → (s.core c).seq.fatal = none → (s.core c).seq.opened = false → ∃ t, exec (.kill d) s = .next t ∧ t.host.out = s.host.out ∧
        (t.core c).seq.fatal = some ⟨0x13, 6, 0, 0⟩ ∧ (t.core c).ctx = (s.core c).ctx ∧
        t.host.dues = s.host.dues ++ [⟨d.seq, c, n, (s.core c).cgen⟩])) ∧
    (d.ty = 3 → p.length = 24 → s.mem.invals = [] → s.host.dues = [] →
      let v : Inval := ⟨n, num p 0 8 % 2 ^ 57, num p 8 8, num p 16 8 % 2 = 1, d.seq⟩
      let hit := fun (x : TEntry) => v.hits x.job x.page (pageBytes x.size)
      (v.force = false → s.mem.inService n v.va v.len = false →
        (∀ x ∈ s.mem.tcache, hit x = true → s.pageHeld x.job x.page x.size x.leaf = false) →
        ∃ t, exec (.inval d) s = .next t ∧ s.acked t d [] ∧ t.mem.invals = [] ∧ (∀ x ∈ t.mem.tcache, hit x = false) ∧
          t.cores = s.cores ∧ s.sameMem t) ∧
      (v.force = false → s.mem.inService n v.va v.len = true → ∃ t, exec (.inval d) s = .next t ∧ t.host.out = s.host.out ∧
        t.mem.invals = [v] ∧ t.cores = s.cores) ∧
      (v.force = true → ∃ t, exec (.inval d) s = .next t ∧ ∀ c, (s.core c).job = some n → (s.core c).seq.fatal = none →
        (s.core c).seq.opened = false → (∃ h < 16, ((s.core c).ctx.h h).valid = true ∧
          v.page ((s.core c).ctx.h h).va.toNat (pageBytes ((s.core c).ctx.h h).size) = true) →
        (t.core c).seq.fatal = some ⟨0x13, 6, 0, 0⟩))

/-- A reply in time to an event acts on what waits for it, and its lateness is decided by HOSTTMO (R474): a page's
service ends (10 R309), an expiry gets a further window from the reply on (17 R444), a text unit's command goes on (16
R425), a frozen job goes on (12 R364); no reply in time ends the service with event 21 or refuses the command. What a
reply's first byte says is the model's choice (log 15). ATTEST answers with the signed report (R477), IMAGE takes a
part, or has the boot ROM verify the whole (R476, R482), and CLOCK runs a clock function whose answer is its
acknowledgement (R473, R478); a CLCEIL of a module that is in no group is answered with the present tick (DESIGN CHOICE,
log 16). -/
def Obligations.HostAnswersAndFirmware : Prop :=
  (∀ (d : Datagram) (s : State) (w : Waiting), s.inTurn d → s.host.stage = 3 → d.ty = 11 →
    s.host.waiting.find? (fun w => w.num = d.correl) = some w →
    let gone := fun (t : State) => t.host.waiting = s.host.waiting.filter (fun x => x.num != w.num)
    let yes := num d.payload 0 1 = 0
    ((∃ u, w.until_ = some u ∧ u ≤ s.gtick) → ∃ t, exec (.reply d) s = .next t ∧ s.acked t d [] ∧
      t.host.waiting = s.host.waiting ∧ t.fab = s.fab ∧ t.mem = s.mem) ∧
    ((∀ u, w.until_ = some u → s.gtick < u) →
      (∀ v, w.code = 1 → s.mem.services.find? (fun v => v.ev = some w.num) = some v → s.noneWait →
        (∀ x ∈ s.mem.services, x.job = v.job → x = v) → yes →
        ∃ t, exec (.reply d) s = .next t ∧ s.acked t d [] ∧ (∀ x ∈ t.mem.services, x.job ≠ v.job) ∧
          (∃ x ∈ t.mem.walks, x.die = v.die ∧ x.job = v.job) ∧ s.sameMem t) ∧
      (∀ u, w.code = 4 → s.fab.unacked.find? (fun u => u.ev = some w.num) = some u → yes → ∃ t, exec (.reply d) s = .next t ∧
        s.acked t d [] ∧ gone t ∧
        t.fab.unacked = s.fab.unacked.map (fun v =>
          if v = u then { u with ev := none, ext := u.ext + 1, first := s.gtick } else v)) ∧
      (∀ h, w.code = 4 → (∀ u ∈ s.fab.unacked, u.ev ≠ some w.num) → s.fab.holds.find? (fun h => h.ev = some w.num) = some h →
        yes → ∃ t, exec (.reply d) s = .next t ∧ s.acked t d [] ∧ gone t ∧ t.fab.holds = s.fab.holds.map (fun x =>
          if x.arr = h.arr then { h with ev := none, ext := h.ext + 1, tick := s.gtick } else x)) ∧
      (∀ e, w.code = 4 → (∀ u ∈ s.fab.unacked, u.ev ≠ some w.num) → (∀ h ∈ s.fab.holds, h.ev ≠ some w.num) →
        s.fab.origins.find? (fun e => e.2.ev = some w.num) = some e → yes → ∃ t, exec (.reply d) s = .next t ∧
        s.acked t d [] ∧ gone t ∧
        t.fab.origins.get Origin.empty e.1 = { e.2 with ev := none, ext := e.2.ext + 1, win := s.gtick }) ∧
      (∀ m, w.code = 5 → (s.text.get TextUnit.empty w.x).miss = some m → m.ev = some w.num → ∃ t, exec (.reply d) s = .next t ∧
        s.acked t d [] ∧ gone t ∧ (t.text.get TextUnit.empty w.x).miss = some { m with ok := some (decide yes) }) ∧
      (∀ j, w.code = 7 → s.job w.job = some j → j.num = w.job → j.stampEv = some w.num → j.stamps = [] →
        ∃ t b, exec (.reply d) s = .next t ∧ s.acked t d [] ∧ gone t ∧ t.job w.job = some b ∧ b.frozen = false ∧ b.stampEv = none))) ∧
  (∀ (d : Datagram) (s : State), s.inTurn d → s.host.stage = 3 → d.ty = 11 →
    s.host.waiting.find? (fun w => w.num = d.correl) = none → ∃ t, exec (.reply d) s = .next t ∧ s.acked t d [] ∧
      t.host.waiting = s.host.waiting ∧ t.cores = s.cores ∧ t.mem = s.mem) ∧
  (∀ (s : State) (w : Waiting), s.host.held = [] →
    s.host.waiting.find? (fun w => match w.until_ with | some u => decide (u ≤ s.gtick) | none => false) = some w →
    (∀ v, w.code = 1 → s.mem.services.find? (fun v => v.ev = some w.num) = some v → s.noneWait → ∃ t,
      exec .hostReplyTimeout s = .next t ∧ s.tells t (.event s.host.evNext 21 w.job [v.page]) ∧
      t.host.svcTimeouts = s.host.svcTimeouts + 1 ∧ (∀ x ∈ t.mem.services, ¬(x.job = v.job ∧ x.page = v.page)) ∧ s.sameMem t) ∧
    (∀ m, w.code = 5 → (s.text.get TextUnit.empty w.x).miss = some m → m.ev = some w.num → ∃ t,
      exec .hostReplyTimeout s = .next t ∧ (t.text.get TextUnit.empty w.x).miss = some { m with ok := some false })) ∧
  (∀ (d : Datagram) (s : State), s.inTurn d → s.host.stage = 3 → d.ty = 12 →
    let report := slice d.payload 0 32 ++ leBytes 64 (Config.shake256 s.host.flash) ++ s.liveJobs.flatMap (fun j => leBytes 64 j.measure)
    (s.host.sigs < 2 ^ 20 → ∃ t, exec (.attest d) s = .next t ∧ s.acked t d (report ++ Config.xmssSign s.host.sigs report) ∧
      t.host.sigs = s.host.sigs + 1) ∧
    (2 ^ 20 ≤ s.host.sigs → ∃ t, exec (.attest d) s = .next t ∧ s.acked t d [] ∧ t.host.sigs = s.host.sigs)) ∧
  (∀ (d : Datagram) (s : State), s.inTurn d → d.ty = 13 → let off := num d.payload 0 4
    let n := num d.payload 4 4
    let img := s.host.incoming.read 0 0 s.host.incomingLen
    (0 < n → d.payload.length = 8 + n → ∃ t, exec (.image d) s = .next t ∧ s.acked t d [] ∧
      (∀ i < n, t.host.incoming.get 0 (off + i) = d.payload.getD (8 + i) 0) ∧ t.host.flash = s.host.flash ∧ t.cores = s.cores) ∧
    (n = 0 → ∃ t, exec (.image d) s = .next t ∧ t.host.out = s.host.out ∧ t.host.stage = 1 ∧ t.host.checking = some d.seq ∧
      t.host.flash = s.host.flash ∧ t.cores = s.cores ∧ ∀ v, exec .powerOn t = .next v → s.host.powered = true →
      (imageVerifies s.host.rollback img = true → s.acked v d [] ∧ v.host.flash = img ∧ v.host.stage = 0 ∧ v.cores = s.cores) ∧
      (imageVerifies s.host.rollback img = false → s.acked v d [] ∧ v.host.flash = s.host.flash ∧ v.host.incomingLen = 0 ∧
        v.host.stage = (if (s.core 128).job.isSome then 3 else 2) ∧ v.cores = s.cores))) ∧
  (∀ (d : Datagram) (s : State), s.inTurn d → s.host.stage = 3 → d.ty = 14 → s.settled →
    let fn := num d.payload 0 1
    let a := num d.payload 8 8
    (fn ≠ 0x40 → fn ≠ 0x41 → fn ≠ 0x43 → ∃ t, exec (.clock d) s = .next t ∧ s.acked t d (leBytes 8 (2 ^ 63 + 1)) ∧ t.clk = s.clk) ∧
    (fn = 0x43 → a ≤ 36 → s.host.hkduty.getLsbD 4 = false → ∃ t, exec (.clock d) s = .next t ∧
      s.acked t d (leBytes 8 (2 ^ 63 + 10)) ∧ t.clk = s.clk) ∧
    (fn = 0x43 → a ≤ 36 → s.host.hkduty.getLsbD 4 = true → s.clk.isMember = false → ∃ t, exec (.clock d) s = .next t ∧
      s.acked t d (leBytes 8 (s.gtick % 2 ^ 63)) ∧ t.clk.clceil = a ∧ t.clk.local_ = min s.clk.prot a))

/-! ### Encoding, steps and the invariant (03_bundle_encoding.md R85 to R115; 00_scope.md R2) -/

/-- Words of the manual's worked examples decode to the operations that the examples give, field by field (R96 to R113).
-/
def Obligations.WorkedExampleWordsDecode : Prop :=
  decodeWord .s 0x0201020840000000#64 = some (.add ⟨0, 0, 1, 0, 1, 1, 2, 0⟩) ∧
  decodeWord .s 0x4E01020012345678#64 = some (.ldi ⟨0, 0, 1, 0, 1, 0, 0, 0x12345678⟩) ∧
  decodeWord .s 0x8A010A0000000003#64 = some (.loopx ⟨0, 0, 1, 0, 5, 0, 0, 3⟩) ∧
  decodeWord .s 0xA0010C2818A30010#64 = some (.ld ⟨0, 0, 1, 0, 6, 5, 0, 0x18A30010⟩) ∧
  decodeWord .s 0xE00112106A80280C#64 = some (.grmask ⟨0, 0, 1, 9, 2, 3, 0x280C⟩) ∧
  decodeWord .v0 0x020100302A0001E0#64 = some (.vadd ⟨false, 0, 0, 1, 0, 0, 1, 32, 21, 0, 0, 1, 7, 0⟩) ∧
  decodeWord .m 0x0801000000202200#64 = some (.mrun ⟨false, 0, 0, 1, 0, 0, 0, 0, 0, 0x202200⟩) ∧
  decodeWord .c0 0x1401000008C00040#64 = some (.cwait ⟨false, 0, 0, 1, 0, 0, 0, 0, 0, 0x8C00040⟩) ∧
  Branch.ofWord 0x110000FF40000000#64 = ⟨false, 1, [2, 0, 0, 0], [0x3FD, 0, 0, 0]⟩ ∧
  decodeTableWord 96 (0x0201020840000000 * 2 ^ 32 + 0x40000000) = some (.add ⟨0, 0, 1, 0, 1, 1, 2, 0⟩)

/-- The word of every well-formed operation decodes to that operation, with every field at every value the encoding admits
(R96 to R113). -/
def Obligations.EncodedWordsDecodeBack : Prop :=
  ∀ (i : Instr) (sl : Slot) (w : Word), i.wf = true → i.slotWord = some (sl, w) → decodeWord sl w = some i

/-- A word that decodes is the word of the operation it decodes to, which is well-formed: no two words are one
operation, and no bit is dropped (R96 to R115). -/
def Obligations.DecodedWordsEncodeBack : Prop :=
  ∀ (sl : Slot) (w : Word) (i : Instr), decodeWord sl w = some i → i.wf = true ∧ i.slotWord = some (sl, w)

/-- A bundle that holds one operation alone, always issued, decodes to it on a main core: header and word, least
significant byte first (R4, R85, R86, R96). A loop whose end lies below the bundle's own is none (R141). -/
def Obligations.SingleBundlesDecode : Prop :=
  ∀ (i : Instr) (sl : Slot) (w : Word), i.wf = true → i.slotWord = some (sl, w) → i.onKind .main = true → wordPath w = 0 →
    ((∀ e, i.loopEnd = some e → 12 ≤ e) → decodeTableWord 96 (2 ^ (30 - sl.code) + w.toNat * 2 ^ 32) = some i ∧
      ∃ l, encode i = some l ∧ ∃ b, decodeBundle .main l = .ok b ∧ b.len = 12 ∧ b.rep = 0 ∧ b.branch = none ∧ b.ops = [(sl, i)]) ∧
    ((∃ e, i.loopEnd = some e ∧ e < 12) → decodeTableWord 96 (2 ^ (30 - sl.code) + w.toNat * 2 ^ 32) = none)

/-- A step runs the next unit of the issue under way, else the next input after its ticks, else what the core in hand
does by itself, a bundle issue running its first unit in the same step (R88, R89; the order of events is the model's
choice, log 1); a module whose boot ROM is under way goes on with it (19 R475, R482). Where the bytes at a core's
program counter decode to a bundle of one operation that nothing holds back, the step is that operation's meaning, with
the core's registers and memory as they stood and the end of the issue cycle to follow. A bundle that is illegal ends
the context with cause 0x01 and its report code (R114). -/
def Obligations.StepsRunTheDecodedOperation : Prop :=
  (∀ (s : State) (x : UnitCtx × Instr) (rest : List (UnitCtx × Instr)), s.agenda = x :: rest →
    step s = exec x.2 { s with agenda := rest, unit := x.1 }) ∧
  (∀ (s : State) (x : Stim) (rest : List Stim), s.agenda = [] → s.inputs = x :: rest →
    step s = exec x.what { s.passed x.dt with inputs := rest } ∧
    (s.clk.slew = 0 → (s.passed x.dt).gtick = s.gtick + x.dt)) ∧
  (∀ s : State, s.agenda = [] → s.inputs = [] → s.host.powered = true → s.host.stage < 2 → step s = exec .powerOn s) ∧
  (∀ (c : Nat) (s v : State) (b : Bundle) (p : Plan) (leaf : Nat), let k := s.core c
    kindOf c ≠ .lookup → k.seq.opened = false → k.seq.phase = .run → k.seq.fatal = none → k.seq.xfer ≠ some .tend →
    k.saveDue = false →
    (s.examine c = (v, .issue b p leaf) → v.mem.sramBad = [] → v.mem.sramSoft = [] → ∃ t u, exec (.bundleIssue c) s = .next t ∧ t.agenda = p.units ++ [u] ∧
      u.2 = .lockstepResultLand c ∧ u.1.core = c ∧ (t.core c).seq.opened = true ∧ (t.core c).seq.pc = (v.core c).seq.pc ∧
      (t.core c).seq.issue = (v.core c).seq.issue + 1 ∧ (∀ r, (t.core c).ctx.reg r = (v.core c).ctx.reg r) ∧ t.mem = v.mem ∧
      ∀ d, d ≠ c → t.core d = v.core d) ∧
    (∀ r, s.examine c = (v, .illegal r) → ∃ t, exec (.bundleIssue c) s = .next t ∧
      (t.core c).seq.fatal = some ⟨0x01, r, 0, (v.core c).seq.pc⟩ ∧ (t.core c).seq.phase = .fatal ∧
      (t.core c).ctx = (v.core c).ctx)) ∧
  (∀ (s v : State) (b : Bundle) (p : Plan) (leaf : Nat) (sl : Slot) (i : Instr) (w : Word), let c := s.cur
    let k := s.core c
    s.agenda = [] → s.inputs = [] → s.host.powered = true → 2 ≤ s.host.stage → s.idle = .bundleIssue c →
    kindOf c ≠ .lookup → k.seq.opened = false → k.seq.phase = .run → k.seq.fatal = none → k.seq.xfer ≠ some .tend →
    k.saveDue = false → k.seq.rep = 0 → k.seq.resume = 0 → k.seq.pipes = [] → s.turn.examine c = (v, .issue b p leaf) → v.mem.sramBad = [] → v.mem.sramSoft = [] →
    b.ops = [(sl, i)] → i.slotWord = some (sl, w) → decodeWord sl w = some i → wordPath w = 0 →
    ∃ t u, step s = exec i t ∧ t.unit.core = c ∧ t.unit.word = w ∧ t.unit.bundle = k.seq.pc ∧ t.agenda = [u] ∧
      u.2 = .lockstepResultLand c ∧ (∀ r, t.regs.reg r = (v.core c).ctx.reg r) ∧ t.mem = v.mem) ∧
  (∀ (s : State) (nbits w : Nat), let t := s.withFetchWord nbits w
    t.agenda = [] ∧ t.inputs = [] ∧ t.mem = s.mem ∧ (t.core 0).ctx = (s.core 0).ctx ∧ (t.core 0).seq.pc = (s.core 0).seq.pc)

/-- Right after reset: memory lists nothing and holds its form, no job and no context is live, every register of every
core is zero but for p0, whose V is 1, with W = 1 on every predicate (01 R15 to R17); HKDUTY, HKSTAT and the error logs
are at their reset values (19 R481, R482; 10 R520). That memory reads as zero, that the cores hold no context, PCAP's
value and that CERR is zero are the model's choices (logs 3 and 4). -/
def Obligations.ResetHoldsTheInvariant : Prop :=
  Inv State.reset ∧ (∀ a, State.reset.mem.hbm.get 0 a = 0) ∧ State.reset.sched.jobs = [] ∧
  (∀ c, (State.reset.core c).job = none ∧ (State.reset.core c).seq.phase = .off ∧ (∀ r, (State.reset.core c).ctx.reg r = 0) ∧
    (State.reset.core c).ctx.pv 0 = true ∧ ∀ p, 0 < p → p < 16 → (State.reset.core c).ctx.pv p = false ∧
      (State.reset.core c).ctx.pw p = true) ∧
  State.reset.hkRead 0x30 = 0 ∧ State.reset.hkRead 0x08 = 0 ∧ State.reset.hkRead 0x20 = 4600 ∧ State.reset.mem.elog = [] ∧
  (∀ d, State.reset.mem.cerr.get 0 d = 0) ∧ ∃ t, step State.reset = .next t ∧ t.host.stage = 1

/-- From every state whose memory is in canonical form, a step that answers a next state leaves it so, and so does
every run. -/
def Obligations.EveryStepKeepsTheInvariant : Prop :=
  (∀ s t : State, Inv s → StepsTo s t → Inv t) ∧ (∀ s t : State, Inv s → Reaches s t → Inv t)

/-- Every instruction, in every state and with every operand, answers a next state, and a step stops only where there is
no power and nothing is left to bring it (19 R479): no step is refused. -/
def Obligations.NothingIsRefused : Prop :=
  (∀ (i : Instr) (s : State), ∃ t, exec i s = .next t) ∧
  (∀ (s : State) (r : Refusal), step s ≠ .refused r) ∧
  (∀ (s : State) (f : Fault), step s = .fault f → f = .poweredOff ∧ s.host.powered = false ∧ s.agenda = [] ∧ s.inputs = [])
end
end

