-- ==== Sys2Proof/Laws/Tbl.lean ====
section
/-! SUPPORT. What reading, writing and unlisting a sparse table do, once. -/
namespace Sys2Proof.Machine
variable {α : Type}

theorem Tbl.get_del_ne (d : α) (t : Tbl α) {k j : Nat} (h : j ≠ k) : (t.del k).get d j = t.get d j := by
  induction t with
  | nil => rfl
  | cons e r ih =>
    by_cases hk : e.1 = k
    · have hj : ¬ e.1 = j := fun h' => h (h'.symm.trans hk)
      simpa [Tbl.del, Tbl.get, hk, hj, Ne.symm h] using ih
    · by_cases hj : e.1 = j
      · simp [Tbl.del, Tbl.get, hj, h]
      · simpa [Tbl.del, Tbl.get, hk, hj] using ih

theorem Tbl.get_del_same (d : α) (t : Tbl α) (k : Nat) : (t.del k).get d k = d := by
  induction t with
  | nil => rfl
  | cons e r ih => by_cases hk : e.1 = k <;> simpa [Tbl.del, Tbl.get, hk] using ih

theorem Tbl.get_ins_ne (d : α) (t : Tbl α) {k j : Nat} (v : α) (h : j ≠ k) : (t.ins k v).get d j = t.get d j := by
  induction t with
  | nil => simp [Tbl.ins, Tbl.get, Ne.symm h]
  | cons e r ih =>
    by_cases hk : k < e.1
    · simp [Tbl.ins, Tbl.get, hk, Ne.symm h]
    · rw [Tbl.ins, if_neg hk]
      simp only [Tbl.get, ih]

theorem Tbl.get_ins_same (d : α) (t : Tbl α) (k : Nat) (v : α) (h : ∀ e ∈ t, e.1 ≠ k) :
    (t.ins k v).get d k = v := by
  induction t with
  | nil => simp [Tbl.ins, Tbl.get]
  | cons e r ih =>
    have he := h e (by simp)
    by_cases hk : k < e.1
    · simp [Tbl.ins, Tbl.get, hk]
    · simpa [Tbl.ins, Tbl.get, hk, he] using ih (fun x hx => h x (by simp [hx]))

theorem Tbl.mem_del {t : Tbl α} {k : Nat} {e : Nat × α} : e ∈ t.del k ↔ e ∈ t ∧ e.1 ≠ k := by
  simp [Tbl.del]

theorem Tbl.mem_ins {t : Tbl α} {k : Nat} {v : α} {e : Nat × α} : e ∈ t.ins k v ↔ e = (k, v) ∨ e ∈ t := by
  induction t with
  | nil => simp [Tbl.ins]
  | cons a r ih => by_cases hk : k < a.1 <;> simp [Tbl.ins, hk, ih, or_left_comm]

theorem Tbl.del_ins (t : Tbl α) (k : Nat) (v : α) : (t.ins k v).del k = t.del k := by
  induction t with
  | nil => simp [Tbl.ins, Tbl.del]
  | cons e r ih =>
    unfold Tbl.ins
    split
    · simp [Tbl.del]
    · simp only [Tbl.del, List.filter_cons] at ih ⊢
      split <;> simp [ih]
theorem Tbl.del_del (t : Tbl α) (k : Nat) : (t.del k).del k = t.del k := by simp [Tbl.del]

variable [DecidableEq α]

/-- The later of two writes to one place stands. -/
@[simp] theorem Tbl.set_set (d : α) (t : Tbl α) (k : Nat) (v w : α) : (t.set d k v).set d k w = t.set d k w := by
  have e : (t.set d k v).del k = t.del k := by unfold Tbl.set; split <;> simp [Tbl.del_ins, Tbl.del_del]
  unfold Tbl.set at e ⊢
  rw [e]

/-- Reading back what was written. -/
@[simp] theorem Tbl.get_set_same (d : α) (t : Tbl α) (k : Nat) (v : α) : (t.set d k v).get d k = v := by
  unfold Tbl.set
  split
  · next h => rw [Tbl.get_del_same, h]
  · exact Tbl.get_ins_same _ _ _ _ (fun e he => (Tbl.mem_del.1 he).2)

/-- A write leaves every other index alone. -/
@[simp] theorem Tbl.get_set_ne (d : α) (t : Tbl α) {k j : Nat} (v : α) (h : j ≠ k) :
    (t.set d k v).get d j = t.get d j := by
  unfold Tbl.set
  split
  · rw [Tbl.get_del_ne _ _ h]
  · rw [Tbl.get_ins_ne _ _ _ h, Tbl.get_del_ne _ _ h]

theorem Tbl.wf_del {d : α} {t : Tbl α} (k : Nat) (h : t.wf d) : (t.del k).wf d :=
  ⟨h.1.sublist List.filter_sublist, fun e he => h.2 e (Tbl.mem_del.1 he).1⟩

theorem Tbl.wf_ins {d : α} {t : Tbl α} {k : Nat} {v : α} (h : t.wf d) (hk : ∀ e ∈ t, e.1 ≠ k) (hv : v ≠ d) :
    (t.ins k v).wf d := by
  refine ⟨?_, fun e he => ?_⟩
  · induction t with
    | nil => simp [Tbl.ins]
    | cons a r ih =>
      obtain ⟨ha, hr⟩ := List.pairwise_cons.1 h.1
      have hak : a.1 ≠ k := hk a (by simp)
      by_cases hlt : k < a.1
      · simp only [Tbl.ins, hlt, ite_true]
        refine List.pairwise_cons.2 ⟨fun b hb => ?_, h.1⟩
        rcases List.mem_cons.1 hb with rfl | hb
        · exact hlt
        · exact Nat.lt_trans hlt (ha b hb)
      · simp only [Tbl.ins, hlt, ite_false]
        refine List.pairwise_cons.2 ⟨fun b hb => ?_, ih ⟨hr, fun e he => h.2 e (by simp [he])⟩ (fun e he => hk e (by simp [he]))⟩
        rcases Tbl.mem_ins.1 hb with rfl | hb
        · show a.1 < k; omega
        · exact ha b hb
  · rcases Tbl.mem_ins.1 he with rfl | he
    · exact hv
    · exact h.2 e he

/-- A write keeps the canonical form. -/
theorem Tbl.wf_set {d : α} {t : Tbl α} (k : Nat) (v : α) (h : t.wf d) : (t.set d k v).wf d := by
  unfold Tbl.set
  split
  · exact Tbl.wf_del k h
  · exact Tbl.wf_ins (Tbl.wf_del k h) (fun e he => (Tbl.mem_del.1 he).2) ‹_›

/-- A run of values written over a table keeps the canonical form. -/
theorem Tbl.wf_setRange {d : α} {t : Tbl α} (k : Nat) (l : List α) (h : t.wf d) : (t.setRange d k l).wf d := by
  have hz : ∀ (l : List α) (k : Nat), ((l.zipIdx k).map (fun e => (e.2, e.1))).Pairwise (fun a b => a.1 < b.1) ∧
      ∀ e ∈ (l.zipIdx k).map (fun e => (e.2, e.1)), k ≤ e.1 ∧ e.1 < k + l.length := by
    intro l
    induction l with
    | nil => intro k; simp
    | cons a r ih =>
      intro k
      obtain ⟨h1, h2⟩ := ih (k + 1)
      simp only [List.zipIdx_cons, List.map_cons, List.length_cons]
      refine ⟨List.pairwise_cons.2 ⟨fun b hb => ?_, h1⟩, fun e he => ?_⟩
      · have := h2 b hb; show k < b.1; omega
      · rcases List.mem_cons.1 he with rfl | he
        · constructor
          · exact Nat.le_refl k
          · show k < k + (r.length + 1); omega
        · have := h2 e he; omega
  obtain ⟨h1, h2⟩ := hz l k
  refine ⟨?_, fun e he => ?_⟩
  · refine List.pairwise_append.2 ⟨List.pairwise_append.2 ⟨h.1.sublist List.filter_sublist,
      h1.sublist List.filter_sublist, fun a ha b hb => ?_⟩, h.1.sublist List.filter_sublist, fun a ha b hb => ?_⟩
    · have ha := (List.mem_filter.1 ha).2
      have hb := h2 b (List.mem_filter.1 hb).1
      have : a.1 < k := by simpa using ha
      omega
    · have hb : k + l.length ≤ b.1 := by simpa using (List.mem_filter.1 hb).2
      rcases List.mem_append.1 ha with ha | ha
      · have : a.1 < k := by simpa using (List.mem_filter.1 ha).2
        omega
      · have := h2 a (List.mem_filter.1 ha).1
        omega
  · rcases List.mem_append.1 he with he | he
    · rcases List.mem_append.1 he with he | he
      · exact h.2 e (List.mem_filter.1 he).1
      · simpa using (List.mem_filter.1 he).2
    · exact h.2 e (List.mem_filter.1 he).1

end Sys2Proof.Machine
end

