-- ==== Sys2Proof/Laws/Canon1.lean ====
section
/-! SUPPORT. Every operation keeps the canonical form of the memory, part 1 of 4: one lemma for each definition that answers a
state, in the order in which the definitions build on each other. -/
set_option Elab.async false
namespace Sys2Proof.Machine

/-- A byte memory in its canonical form, kept closed to automation. -/
def Canon (t : Tbl Byte) : Prop := t.wf 0
theorem Canon.putBytes {l : List Byte} : ∀ {t : Tbl Byte} {a : Nat}, Canon t → Canon (t.putBytes a l) := by
  induction l with
  | nil => intro t a h; exact h
  | cons b r ih => intro t a h; exact ih (Tbl.wf_set a b h)
theorem Canon.filter {t : Tbl Byte} (p : Nat × Byte → Bool) (h : Canon t) : Canon (t.filter p) :=
  ⟨h.1.sublist List.filter_sublist, fun e he => h.2 e (List.mem_filter.1 he).1⟩
theorem Canon.fold {α} {g : State → α → State} (hg : ∀ s x, Canon s.mem.hbm → Canon (g s x).mem.hbm) (l : List α) :
    ∀ {s : State}, Canon s.mem.hbm → Canon (l.foldl g s).mem.hbm := by
  induction l with
  | nil => intro s h; exact h
  | cons x r ih => intro s h; exact ih (hg s x h)
theorem Canon.fold2 {α β} {g : State × β → α → State × β} (hg : ∀ s x, Canon s.1.mem.hbm → Canon (g s x).1.mem.hbm) (l : List α) :
    ∀ {s : State × β}, Canon s.1.mem.hbm → Canon (l.foldl g s).1.mem.hbm := by
  induction l with
  | nil => intro s h; exact h
  | cons x r ih => intro s h; exact ih (hg s x h)
theorem Canon.pair {β} {s : State} {b : β} (h : Canon s.mem.hbm) : Canon (s, b).1.mem.hbm := h
theorem Canon.fst {β} {r : State × β} {s : State} {b : β} (e : r = (s, b)) (h : Canon r.1.mem.hbm) : Canon s.mem.hbm := by
  rw [e] at h; exact h
theorem canon_onCore (s : State) (c : Nat) (f : Core → Core) (h : Canon s.mem.hbm) : Canon (s.onCore c f).mem.hbm := h
theorem canon_onCtx (s : State) (c : Nat) (f : Ctx → Ctx) (h : Canon s.mem.hbm) : Canon (s.onCtx c f).mem.hbm := h
theorem canon_onSeq (s : State) (c : Nat) (f : Seqr → Seqr) (h : Canon s.mem.hbm) : Canon (s.onSeq c f).mem.hbm := h
theorem canon_onSched (s : State) (f : Sched → Sched) (h : Canon s.mem.hbm) : Canon (s.onSched f).mem.hbm := h
/-- Whatever an outcome is, its memory is canonical. -/
def OutCanon (o : Host.Outcome State Fault Refusal) : Prop := ∀ t, o = .next t → Canon t.mem.hbm
theorem OutCanon.next {s : State} (h : Canon s.mem.hbm) : OutCanon (.next s) := by
  intro t e; cases e; exact h
/-- Work that keeps the memory canonical. -/
def TmCanon {α : Type} (x : TM α) : Prop := ∀ s, Canon s.mem.hbm → Canon (x s).1.mem.hbm
theorem TmCanon.bind {α β : Type} {x : TM α} {f : α → TM β} (hx : TmCanon x) (hf : ∀ a, TmCanon (f a)) : TmCanon (tmBind x f) := by
  intro s hs0
  have h1 := hx s hs0
  unfold tmBind
  split
  all_goals next e => rw [e] at h1; first | exact h1 | exact hf _ _ h1
theorem TmCanon.ok {α : Type} {v : α} : TmCanon (tmOk v) := fun _ h => h
theorem TmCanon.err {α : Type} {r : Nat} : TmCanon (tmErr (α := α) r) := fun _ h => h
theorem TmCanon.miss {α : Type} {a b : Nat} : TmCanon (tmMiss (α := α) a b) := fun _ h => h
theorem TmCanon.get {α : Type} {f : State → α} : TmCanon (tmGet f) := fun _ h => h
theorem TmCanon.map {α β : Type} {f : α → TM β} (hf : ∀ a, TmCanon (f a)) (l : List α) : TmCanon (tmMap f l) := by
  induction l with
  | nil => exact TmCanon.ok
  | cons a r ih => exact TmCanon.bind (hf a) (fun _ => TmCanon.bind ih (fun _ => TmCanon.ok))
theorem canon_setJob (s : State) (j : Job) (hs0 : Canon s.mem.hbm) : Canon (State.setJob s j).mem.hbm := by
  exact hs0
theorem canon_onJob (s : State) (j : Nat) (f : Job → Job) (hs0 : Canon s.mem.hbm) : Canon (State.onJob s j f).mem.hbm := by
  unfold State.onJob; grind [canon_setJob]
theorem canon_sendHost (s : State) (m : HostMsg) (hs0 : Canon s.mem.hbm) : Canon (State.sendHost s m).mem.hbm := by
  exact hs0
theorem canon_event (s : State) (code : Nat) (job : Nat) (args : List Nat) (hs0 : Canon s.mem.hbm) : Canon (State.event s code job args).mem.hbm := by
  unfold State.event; grind [State.onHost, canon_sendHost]
theorem canon_askWith (s : State) (code : Nat) (job : Nat) (args : List Nat) (x : Nat) (y : Nat) (z : Nat) (timed : Bool) (hs0 : Canon s.mem.hbm) : Canon (State.askWith s code job args x y z timed).mem.hbm := by
  unfold State.askWith; grind [State.onHost, canon_event]
theorem canon_ask (s : State) (code : Nat) (job : Nat) (x : Nat) (y : Nat) (z : Nat) (timed : Bool) (hs0 : Canon s.mem.hbm) : Canon (State.ask s code job x y z timed).mem.hbm := by
  unfold State.ask; grind [canon_askWith]
theorem canon_unask (s : State) (n : Nat) (hs0 : Canon s.mem.hbm) : Canon (State.unask s n).mem.hbm := by
  exact hs0
theorem canon_Mem_wr (m : Mem) (key : Nat) (l : List Byte) (hs0 : Canon m.hbm) : Canon (Mem.wr m key l).hbm := by
  unfold Mem.wr; exact Canon.putBytes hs0
theorem canon_Mem_wr64 (m : Mem) (key : Nat) (v : BitVec 64) (hs0 : Canon m.hbm) : Canon (Mem.wr64 m key v).hbm := by
  unfold Mem.wr64; grind [canon_Mem_wr]
theorem canon_logErr (s : State) (die : Nat) (reader : Nat) (addr : Nat) (ctxid : BitVec 64) (hs0 : Canon s.mem.hbm) : Canon (State.logErr s die reader addr ctxid).mem.hbm := by
  unfold State.logErr; grind [State.onMem, State.onHost, canon_event]
theorem canon_eccBlock (s : State) (reader : Nat) (ctxid : BitVec 64) (b : Nat) (hs0 : Canon s.mem.hbm) : Canon (State.eccBlock s reader ctxid b).1.mem.hbm := by
  unfold State.eccBlock; grind [State.onMem, canon_logErr]
theorem canon_ecc (s : State) (reader : Nat) (ctxid : BitVec 64) (bs : List Nat) (hs0 : Canon s.mem.hbm) : Canon (State.ecc s reader ctxid bs).1.mem.hbm := by
  unfold State.ecc; grind [canon_eccBlock, Canon.fold, Canon.fold2]
theorem canon_readHbm (s : State) (reader : Nat) (ctxid : BitVec 64) (key : Nat) (n : Nat) (hs0 : Canon s.mem.hbm) : Canon (State.readHbm s reader ctxid key n).1.mem.hbm := by
  unfold State.readHbm; grind [canon_ecc]
theorem canon_writeBlock (s : State) (reader : Nat) (ctxid : BitVec 64) (key : Nat) (l : List Byte) (b : Nat) (hs0 : Canon s.mem.hbm) : Canon (State.writeBlock s reader ctxid key l b).1.mem.hbm := by
  unfold State.writeBlock; grind [State.onMem, canon_logErr, canon_Mem_wr]
theorem canon_writeHbm (s : State) (job : Nat) (ctxid : BitVec 64) (key : Nat) (l : List Byte) (reader : Nat) (hs0 : Canon s.mem.hbm) : Canon (State.writeHbm s job ctxid key l reader).1.mem.hbm := by
  unfold State.writeHbm; grind [canon_onJob, canon_writeBlock, Canon.fold, Canon.fold2]
theorem canon_ptError (s : State) (job : Nat) (va : Nat) (hs0 : Canon s.mem.hbm) : Canon (State.ptError s job va).mem.hbm := by
  unfold State.ptError; grind [canon_event]
theorem canon_found (s : State) (job : Nat) (va : Nat) (w : WalkRes) (hs0 : Canon s.mem.hbm) : Canon (State.found s job va w).1.mem.hbm := by
  unfold State.found; grind [canon_ptError]
theorem canon_walked (s : State) (j : Job) (job : Nat) (va : Nat) (hs0 : Canon s.mem.hbm) : Canon (State.walked s j job va).1.mem.hbm := by
  exact canon_found _ _ _ _ (canon_ecc _ _ _ _ hs0)
theorem canon_translate (s : State) (job : Nat) (va : Nat) (hs0 : Canon s.mem.hbm) : Canon (State.translate s job va).1.mem.hbm := by
  unfold State.translate; grind [canon_walked]
theorem canon_ringEcc (s : State) (j : Job) (die : Nat) (hs0 : Canon s.mem.hbm) : Canon (State.ringEcc s j die).1.mem.hbm := by
  unfold State.ringEcc; grind [canon_ecc]
theorem canon_fromReleased (s : State) (job : Nat) (die : Nat) (hs0 : Canon s.mem.hbm) : Canon (State.fromReleased s job die).1.mem.hbm := by
  unfold State.fromReleased; grind [State.onMem]
theorem canon_ringNow (s : State) (j : Job) (die : Nat) (hs0 : Canon s.mem.hbm) : Canon (State.ringNow s j die).1.mem.hbm := by
  unfold State.ringNow; grind [canon_ptError, canon_ringEcc]
theorem canon_takeFrame (s : State) (j : Job) (die : Nat) (hs0 : Canon s.mem.hbm) : Canon (State.takeFrame s j die).1.mem.hbm := by
  unfold State.takeFrame
  have h0 := canon_ringNow s j die hs0
  split
  · next e =>
    have h1 := Canon.fst e h0
    dsimp only
    have h2 := canon_fromReleased _ j.num die h1
    have h3 := canon_ptError _ j.num die h2
    have h4 := fun a b => canon_Mem_wr _ a b h1
    split
    · exact h2
    · split
      · exact h3
      · exact h4 _ _
  · next e => exact canon_fromReleased _ _ _ (Canon.fst e h0)
theorem canon_Mem_clean (m : Mem) (key : Nat) (n : Nat) (hs0 : Canon m.hbm) : Canon (Mem.clean m key n).hbm := by
  unfold Mem.clean; grind
theorem canon_Mem_zero (m : Mem) (key : Nat) (n : Nat) (hs0 : Canon m.hbm) : Canon (Mem.zero m key n).hbm := by
  exact Canon.filter _ hs0
theorem canon_serveHw (s : State) (j : Job) (die : Nat) (pte : Nat) (e : BitVec 64) (hs0 : Canon s.mem.hbm) : Canon (State.serveHw s j die pte e).1.mem.hbm := by
  unfold State.serveHw; grind [State.onMem, canon_Mem_zero, canon_takeFrame, canon_Mem_wr64]
theorem canon_startService (s : State) (job : Nat) (die : Nat) (va : Nat) (pte : Nat) (size : Nat) (e : BitVec 64) (hs0 : Canon s.mem.hbm) : Canon (State.startService s job die va pte size e).mem.hbm := by
  unfold State.startService; grind [State.onMem, canon_ask]
theorem canon_Mem_awaited (m : Mem) (job : Nat) (page : Nat) (who : Nat) (hs0 : Canon m.hbm) : Canon (Mem.awaited m job page who).hbm := by
  exact hs0
theorem canon_Mem_told (m : Mem) (job : Nat) (page : Nat) (who : Nat) (hs0 : Canon m.hbm) : Canon (Mem.told m job page who).hbm := by
  unfold Mem.told; grind
theorem canon_Mem_dropBad (m : Mem) (die : Nat) (job : Nat) (va : Nat) (hs0 : Canon m.hbm) : Canon (Mem.dropBad m die job va).hbm := by
  unfold Mem.dropBad; grind
theorem canon_Mem_dropPage (m : Mem) (job : Nat) (page : Nat) (n : Nat) (hs0 : Canon m.hbm) : Canon (Mem.dropPage m job page n).hbm := by
  exact hs0
theorem canon_Mem_fill (m : Mem) (t : TEntry) (hs0 : Canon m.hbm) : Canon (Mem.fill m t).hbm := by
  exact hs0
theorem canon_Mem_remember (m : Mem) (job : Nat) (page : Nat) (size : Nat) (e : BitVec 64) (hs0 : Canon m.hbm) : Canon (Mem.remember m job page size e).hbm := by
  unfold Mem.remember; grind
theorem canon_Mem_leave (m : Mem) (t : TEntry) (hs0 : Canon m.hbm) : Canon (Mem.leave m t).hbm := by
  unfold Mem.leave; grind
theorem canon_fillCache (s : State) (t : TEntry) (hs0 : Canon s.mem.hbm) : Canon (State.fillCache s t).mem.hbm := by
  unfold State.fillCache; grind [State.onMem, canon_Mem_leave, canon_Mem_fill]
theorem canon_Mem_pin (m : Mem) (f : Nat) (hs0 : Canon m.hbm) : Canon (Mem.pin m f).hbm := by
  exact hs0
theorem canon_Mem_unpin (m : Mem) (f : Nat) (hs0 : Canon m.hbm) : Canon (Mem.unpin m f).hbm := by
  exact hs0
theorem canon_countAcc (s : State) (job : Nat) (key : Nat) (die : Nat) (n : Nat) (hs0 : Canon s.mem.hbm) : Canon (State.countAcc s job key die n).mem.hbm := by
  unfold State.countAcc; grind [State.onMem]
theorem canon_quarantine (s : State) (job : Nat) (die : Nat) (pb : Nat) (hs0 : Canon s.mem.hbm) : Canon (State.quarantine s job die pb).mem.hbm := by
  unfold State.quarantine
  split <;> exact hs0
theorem canon_quarantinePage (s : State) (job : Nat) (size : Nat) (e : BitVec 64) (hs0 : Canon s.mem.hbm) : Canon (State.quarantinePage s job size e).mem.hbm := by
  unfold State.quarantinePage
  generalize List.range _ = l
  induction l generalizing s with
  | nil => exact hs0
  | cons x r ih => rw [List.foldl_cons]; exact ih _ (canon_quarantine _ _ _ _ hs0)
theorem canon_rememberLeaves (s : State) (was : Mem) (hs0 : Canon s.mem.hbm) (hs0 : Canon was.hbm) : Canon (State.rememberLeaves s was).mem.hbm := by
  unfold State.rememberLeaves; grind [State.onMem, canon_Mem_remember, Canon.fold, Canon.fold2]
theorem canon_deliver (s : State) (c : Nat) (cause : Nat) (detail : Nat) (hs0 : Canon s.mem.hbm) : Canon (State.deliver s c cause detail).mem.hbm := by
  unfold State.deliver; grind [State.onCore, State.setCore]
theorem canon_commitCore (s : State) (f : Core → Core) (hs0 : Canon s.mem.hbm) : OutCanon (commitCore s f) := by
  unfold commitCore; grind [State.onCore, State.setCore, OutCanon.next]
theorem canon_commitState (s : State) (f : State → State) (hf : Canon (f s).mem.hbm) (hs0 : Canon s.mem.hbm) : OutCanon (commitState s f) := by
  apply OutCanon.next
  split
  · exact hs0
  · split
    · exact hf
    · exact hf
theorem canon_accessWalk (s : State) (job : Nat) (rq : Req) (va : Nat) (n : Nat) (wr : Bool) (hs0 : Canon s.mem.hbm) : Canon (State.accessWalk s job rq va n wr).1.mem.hbm := by
  unfold State.accessWalk
  have h1 := canon_translate s job va hs0
  split
  · next e => exact canon_fillCache _ _ (Canon.fst e h1)
  · next e => exact canon_fillCache _ _ (Canon.fst e h1)
  · next e => exact Canon.fst e h1
  · next e =>
    have h1 := Canon.fst e h1
    dsimp only
    split
    · exact h1
    · split
      · exact h1
      · split
        · exact canon_startService _ _ _ _ _ _ _ h1
        · split
          · exact h1
          · split
            · next e2 => exact Canon.fst e2 (canon_serveHw _ _ _ _ _ h1)
            · next e2 =>
              have h2 := Canon.fst e2 (canon_serveHw _ _ _ _ _ h1)
              split
              · next e3 => exact canon_fillCache _ _ (Canon.fst e3 (canon_translate _ _ _ h2))
              · next e3 => exact Canon.fst e3 (canon_translate _ _ _ h2)
theorem canon_access (s : State) (job : Nat) (rq : Req) (va : Nat) (n : Nat) (wr : Bool) (hs0 : Canon s.mem.hbm) : Canon (State.access s job rq va n wr).1.mem.hbm := by
  unfold State.access; grind [State.onMem, canon_Mem_dropBad, canon_accessWalk]
theorem canon_sram (s : State) (c : Nat) (reader : Nat) (lo : Nat) (n : Nat) (hs0 : Canon s.mem.hbm) : Canon (State.sram s c reader lo n).1.mem.hbm := by
  unfold State.sram; grind [State.onMem, canon_logErr, Canon.fold, Canon.fold2]
theorem canon_coreEcc (s : State) (c : Nat) (reader : Nat) (ws : List Nat) (hs0 : Canon s.mem.hbm) : Canon (State.coreEcc s c reader ws).1.mem.hbm := by
  unfold State.coreEcc; grind [State.onMem, canon_logErr]
theorem canon_sramAll (s : State) (c : Nat) (reader : Nat) (l : List (Nat × Nat)) (hs0 : Canon s.mem.hbm) : Canon (State.sramAll s c reader l).1.mem.hbm := by
  unfold State.sramAll; grind [canon_sram, Canon.fold, Canon.fold2]
theorem canon_semPut (s : State) (c : Nat) (k : Nat) (v : Nat) (hs0 : Canon s.mem.hbm) : Canon (State.semPut s c k v).mem.hbm := by
  unfold State.semPut; grind [State.onCtx, State.onCore, State.setCore]
theorem canon_semAdd (s : State) (c : Nat) (k : Nat) (n : Nat) (hs0 : Canon s.mem.hbm) : ∀ t0, State.semAdd s c k n = some t0 → Canon t0.mem.hbm := by
  unfold State.semAdd; grind [canon_semPut]
theorem canon_writeHandle (s : State) (c : Nat) (n : Nat) (h : Handle) (hs0 : Canon s.mem.hbm) : Canon (State.writeHandle s c n h).mem.hbm := by
  unfold State.writeHandle; grind [State.onMem, State.onCtx, State.onCore, State.setCore, canon_Mem_pin, canon_Mem_unpin]
theorem canon_releaseHandle (s : State) (c : Nat) (n : Nat) (hs0 : Canon s.mem.hbm) : Canon (State.releaseHandle s c n).mem.hbm := by
  unfold State.releaseHandle; grind [State.onMem, State.onCtx, State.onCore, State.setCore, canon_Mem_unpin]
theorem canon_releaseHandles (s : State) (c : Nat) (mask : BitVec 16) (hs0 : Canon s.mem.hbm) : Canon (State.releaseHandles s c mask).mem.hbm := by
  unfold State.releaseHandles; grind [canon_releaseHandle, Canon.fold, Canon.fold2]
theorem canon_ackHost (s : State) (seq : Nat) (payload : List Byte) (hs0 : Canon s.mem.hbm) : Canon (State.ackHost s seq payload).mem.hbm := by
  unfold State.ackHost; grind [canon_sendHost]
theorem canon_leaveFrame (s : State) (t : TEntry) (e : BitVec 64) (w : WalkRes) (hs0 : Canon s.mem.hbm) : Canon (State.leaveFrame s t e w).mem.hbm := by
  unfold State.leaveFrame; grind [canon_quarantinePage]
theorem canon_dropEntry (s : State) (t : TEntry) (hs0 : Canon s.mem.hbm) : Canon (State.dropEntry s t).mem.hbm := by
  unfold State.dropEntry; grind [State.onMem, canon_Mem_dropPage, canon_leaveFrame]
theorem canon_unmapLeaf (s : State) (job : Nat) (x : Nat × Nat × Nat × Word) (hs0 : Canon s.mem.hbm) : Canon (State.unmapLeaf s job x).mem.hbm := by
  unfold State.unmapLeaf; grind [State.onMem, canon_quarantinePage, canon_Mem_dropPage, canon_Mem_wr64]
theorem canon_invalTry (s : State) (v : Inval) (hs0 : Canon s.mem.hbm) : Canon (State.invalTry s v).mem.hbm := by
  unfold State.invalTry; grind [State.onMem, canon_dropEntry, canon_ackHost, canon_unmapLeaf, Canon.fold, Canon.fold2]
theorem canon_hostGo (s : State) (hs0 : Canon s.mem.hbm) : Canon (State.hostGo s).mem.hbm := by
  unfold State.hostGo; grind [State.onHost, canon_ackHost, canon_invalTry, Canon.fold, Canon.fold2]
theorem canon_startWalk (s : State) (die : Nat) (job : Nat) (va : Nat) (hs0 : Canon s.mem.hbm) : Canon (State.startWalk s die job va).mem.hbm := by
  unfold State.startWalk; grind [State.onMem]
theorem canon_seeCache (s : State) (c : Nat) (va : Nat) (hs0 : Canon s.mem.hbm) : Canon (State.seeCache s c va).mem.hbm := by
  unfold State.seeCache; grind [State.onMem, canon_Mem_dropBad]
theorem canon_landTrn (s : State) (c : Nat) (p : Pending) (hn : Nat) (pd : Nat) (wr : Bool) (va : BitVec 57) (dst : Option Nat) (latch : Option Nat) (hs0 : Canon s.mem.hbm) : Canon (State.landTrn s c p hn pd wr va dst latch).mem.hbm := by
  unfold State.landTrn; grind [State.onCore, State.setCore, canon_seeCache, canon_writeHandle, canon_startWalk]
theorem canon_landOne (s : State) (c : Nat) (p : Pending) (hs0 : Canon s.mem.hbm) : Canon (State.landOne s c p).mem.hbm := by
  unfold State.landOne; grind [State.onCore, State.setCore, canon_semAdd, canon_landTrn, canon_semPut, canon_releaseHandles]
theorem canon_landCycle (s : State) (c : Nat) (hs0 : Canon s.mem.hbm) : Canon (State.landCycle s c).mem.hbm := by
  unfold State.landCycle; grind [State.onCore, State.onSeq, State.setCore, canon_landOne, Canon.fold, Canon.fold2]
theorem canon_rasSpill (s : State) (c : Nat) (n : Nat) (v : Nat) (hs0 : Canon s.mem.hbm) : Canon (State.rasSpill s c n v).1.mem.hbm := by
  unfold State.rasSpill
  split
  · exact Canon.pair (canon_onCtx _ _ _ hs0)
  · dsimp only
    split
    · next e => exact Canon.pair (canon_writeHbm _ _ _ _ _ _ (Canon.fst e (canon_access _ _ _ _ _ _ hs0)))
    · next e => exact Canon.pair (Canon.fst e (canon_access _ _ _ _ _ _ hs0))
theorem canon_rasPush (s : State) (u : UnitCtx) (v : Nat) (hs0 : Canon s.mem.hbm) : Canon (State.rasPush s u v).mem.hbm := by
  unfold State.rasPush; grind [State.onCore, State.onCtx, State.setCore, canon_rasSpill]
theorem canon_unpinCmd (s : State) (d : Cmd) (hs0 : Canon s.mem.hbm) : Canon (State.unpinCmd s d).mem.hbm := by
  unfold State.unpinCmd; grind [State.onMem, canon_Mem_unpin]
theorem canon_dropFlights (s : State) (c : Nat) (hs0 : Canon s.mem.hbm) : Canon (State.dropFlights s c).mem.hbm := by
  unfold State.dropFlights; grind [State.onCore, State.setCore, canon_unpinCmd, Canon.fold, Canon.fold2]
theorem canon_suspend (s : State) (c : Nat) (n : Nat) (hs0 : Canon s.mem.hbm) : Canon (State.suspend s c n).mem.hbm := by
  unfold State.suspend; grind [State.onCore, State.setCore, canon_unpinCmd, Canon.fold, Canon.fold2]
theorem canon_takeTrap (s : State) (c : Nat) (hs0 : Canon s.mem.hbm) : Canon (State.takeTrap s c).mem.hbm := by
  unfold State.takeTrap; grind [State.onCore, State.onCtx, State.setCore, canon_rasPush, canon_suspend]
theorem canon_resumeFrom (s : State) (c : Nat) (n : Nat) (l : List Byte) (hs0 : Canon s.mem.hbm) : Canon (State.resumeFrom s c n l).mem.hbm := by
  unfold State.resumeFrom
  have h1 : ∀ l : List Cmd, Canon (l.foldl (fun s d => s.unpinCmd d) s).mem.hbm := fun l => Canon.fold (fun _ _ h => canon_unpinCmd _ _ h) l hs0
  exact h1 _
theorem canon_trapReturn (s : State) (c : Nat) (hs0 : Canon s.mem.hbm) : Canon (State.trapReturn s c).mem.hbm := by
  unfold State.trapReturn; grind [State.onCore, State.onCtx, State.setCore, canon_sram, canon_resumeFrom]
theorem canon_issueCmd (s : State) (hs0 : Canon s.mem.hbm) : OutCanon (issueCmd s) := by
  unfold issueCmd; grind [canon_commitCore, OutCanon.next]
theorem canon_execMmould (x0 : DF) (s : State) (hs0 : Canon s.mem.hbm) : OutCanon (execMmould x0 s) := by
  unfold execMmould; grind [canon_issueCmd, OutCanon.next]
theorem canon_execMflow (x0 : DF) (s : State) (hs0 : Canon s.mem.hbm) : OutCanon (execMflow x0 s) := by
  unfold execMflow; grind [canon_issueCmd, OutCanon.next]
theorem canon_execMinit (x0 : DF) (s : State) (hs0 : Canon s.mem.hbm) : OutCanon (execMinit x0 s) := by
  unfold execMinit; grind [canon_issueCmd, OutCanon.next]
theorem canon_execMrun (x0 : DF) (s : State) (hs0 : Canon s.mem.hbm) : OutCanon (execMrun x0 s) := by
  unfold execMrun; grind [canon_issueCmd, OutCanon.next]
theorem canon_execMruns (x0 : DF) (s : State) (hs0 : Canon s.mem.hbm) : OutCanon (execMruns x0 s) := by
  unfold execMruns; grind [canon_issueCmd, OutCanon.next]
theorem canon_execMdrain (f : DF) (s : State) (hs0 : Canon s.mem.hbm) : OutCanon (execMdrain f s) := by
  unfold execMdrain; grind [canon_commitCore, OutCanon.next]
theorem canon_execMsave (x0 : DF) (s : State) (hs0 : Canon s.mem.hbm) : OutCanon (execMsave x0 s) := by
  unfold execMsave; grind [canon_issueCmd, OutCanon.next]
theorem canon_execMrest (x0 : DF) (s : State) (hs0 : Canon s.mem.hbm) : OutCanon (execMrest x0 s) := by
  unfold execMrest; grind [canon_issueCmd, OutCanon.next]
theorem canon_execMpop (x0 : DF) (s : State) (hs0 : Canon s.mem.hbm) : OutCanon (execMpop x0 s) := by
  unfold execMpop; grind [canon_issueCmd, OutCanon.next]
theorem canon_execMwait (x0 : DF) (s : State) (hs0 : Canon s.mem.hbm) : OutCanon (execMwait x0 s) := by
  unfold execMwait; grind [canon_issueCmd, OutCanon.next]
theorem canon_engStore (s : State) (c : Nat) (a : Nat) (l : List Byte) (hs0 : Canon s.mem.hbm) : Canon (State.engStore s c a l).mem.hbm := by
  unfold State.engStore; grind [State.onCore, State.setCore]
theorem canon_matStart_start (s : State) (c : Nat) (k : Ctx) (d : Cmd) (hs0 : Canon s.mem.hbm) : ∀ t0, State.matStart.start s c k d = .ok t0 → Canon t0.1.mem.hbm := by
  unfold State.matStart.start; grind [State.onCtx, State.onCore, State.setCore]
theorem canon_matStart (s : State) (c : Nat) (d : Cmd) (hs0 : Canon s.mem.hbm) : ∀ t0, State.matStart s c d = .ok t0 → Canon t0.1.mem.hbm := by
  intro t0 e
  unfold State.matStart at e
  grind [State.onCtx, State.onCore, State.setCore, canon_matStart_start]
theorem canon_runPanel (s : State) (c : Nat) (d : Cmd) (n : Nat) (hs0 : Canon s.mem.hbm) : ∀ t0, State.runPanel s c d n = some t0 → Canon t0.1.mem.hbm := by
  unfold State.runPanel; grind [State.onCtx, State.onCore, State.setCore, canon_sramAll]
theorem canon_matMove (s : State) (c : Nat) (d : Cmd) (hs0 : Canon s.mem.hbm) : ∀ t0, State.matMove s c d = some t0 → Canon t0.1.mem.hbm := by
  unfold State.matMove; grind [State.onCtx, State.onCore, State.setCore, canon_engStore]
theorem canon_matStep (s : State) (c : Nat) (d : Cmd) (hs0 : Canon s.mem.hbm) : ∀ t0, State.matStep s c d = some t0 → Canon t0.1.mem.hbm := by
  intro t0 e
  unfold State.matStep at e
  have h1 := canon_sramAll s c 3 (d.stepReads c (s.core c).ctx) hs0
  dsimp only at e
  split at e
  · cases e; exact h1
  · split at e
    · cases e; exact h1
    · obtain ⟨x, e1, rfl⟩ := Option.map_eq_some_iff.1 e
      exact canon_matMove _ _ _ h1 _ e1
theorem canon_scalarOp (f : SF) (l : Nat) (g : Ctx → Word) (s : State) (hs0 : Canon s.mem.hbm) : OutCanon (scalarOp f l g s) := by
  unfold scalarOp; grind [canon_commitCore, OutCanon.next]
theorem canon_predOp (pd : Nat) (g : Ctx → Bool) (s : State) (hs0 : Canon s.mem.hbm) : OutCanon (predOp pd g s) := by
  unfold predOp; grind [canon_commitCore, OutCanon.next]
theorem canon_binOp (f : SF) (l : Nat) (g : Word → Word → Word) (s : State) (hs0 : Canon s.mem.hbm) : OutCanon (binOp f l g s) := by
  unfold binOp; grind [canon_scalarOp, OutCanon.next]
theorem canon_unOp (f : SF) (l : Nat) (g : Word → Word) (s : State) (hs0 : Canon s.mem.hbm) : OutCanon (unOp f l g s) := by
  unfold unOp; grind [canon_scalarOp, OutCanon.next]
theorem canon_execAdd (f : SF) (s : State) (hs0 : Canon s.mem.hbm) : OutCanon (execAdd f s) := by
  unfold execAdd; grind [canon_binOp, OutCanon.next]
theorem canon_execSub (f : SF) (s : State) (hs0 : Canon s.mem.hbm) : OutCanon (execSub f s) := by
  unfold execSub; grind [canon_binOp, OutCanon.next]
theorem canon_execAnd (f : SF) (s : State) (hs0 : Canon s.mem.hbm) : OutCanon (execAnd f s) := by
  unfold execAnd; grind [canon_binOp, OutCanon.next]
theorem canon_execOr (f : SF) (s : State) (hs0 : Canon s.mem.hbm) : OutCanon (execOr f s) := by
  unfold execOr; grind [canon_binOp, OutCanon.next]
theorem canon_execXor (f : SF) (s : State) (hs0 : Canon s.mem.hbm) : OutCanon (execXor f s) := by
  unfold execXor; grind [canon_binOp, OutCanon.next]
theorem canon_execAndn (f : SF) (s : State) (hs0 : Canon s.mem.hbm) : OutCanon (execAndn f s) := by
  unfold execAndn; grind [canon_binOp, OutCanon.next]
theorem canon_execShl (f : SF) (s : State) (hs0 : Canon s.mem.hbm) : OutCanon (execShl f s) := by
  unfold execShl; grind [canon_binOp, OutCanon.next]
theorem canon_execShr (f : SF) (s : State) (hs0 : Canon s.mem.hbm) : OutCanon (execShr f s) := by
  unfold execShr; grind [canon_binOp, OutCanon.next]
theorem canon_execSar (f : SF) (s : State) (hs0 : Canon s.mem.hbm) : OutCanon (execSar f s) := by
  unfold execSar; grind [canon_binOp, OutCanon.next]
theorem canon_execRol (f : SF) (s : State) (hs0 : Canon s.mem.hbm) : OutCanon (execRol f s) := by
  unfold execRol; grind [canon_binOp, OutCanon.next]
theorem canon_execMul (f : SF) (s : State) (hs0 : Canon s.mem.hbm) : OutCanon (execMul f s) := by
  unfold execMul; grind [canon_binOp, OutCanon.next]
theorem canon_execMulh (f : SF) (s : State) (hs0 : Canon s.mem.hbm) : OutCanon (execMulh f s) := by
  unfold execMulh; grind [canon_binOp, OutCanon.next]
theorem canon_execMulhu (f : SF) (s : State) (hs0 : Canon s.mem.hbm) : OutCanon (execMulhu f s) := by
  unfold execMulhu; grind [canon_binOp, OutCanon.next]
theorem canon_execDiv (f : SF) (s : State) (hs0 : Canon s.mem.hbm) : OutCanon (execDiv f s) := by
  unfold execDiv; grind [canon_binOp, OutCanon.next]
theorem canon_execDivu (f : SF) (s : State) (hs0 : Canon s.mem.hbm) : OutCanon (execDivu f s) := by
  unfold execDivu; grind [canon_binOp, OutCanon.next]
theorem canon_execRem (f : SF) (s : State) (hs0 : Canon s.mem.hbm) : OutCanon (execRem f s) := by
  unfold execRem; grind [canon_binOp, OutCanon.next]
theorem canon_execRemu (f : SF) (s : State) (hs0 : Canon s.mem.hbm) : OutCanon (execRemu f s) := by
  unfold execRemu; grind [canon_binOp, OutCanon.next]
theorem canon_execMin (f : SF) (s : State) (hs0 : Canon s.mem.hbm) : OutCanon (execMin f s) := by
  unfold execMin; grind [canon_binOp, OutCanon.next]
theorem canon_execMax (f : SF) (s : State) (hs0 : Canon s.mem.hbm) : OutCanon (execMax f s) := by
  unfold execMax; grind [canon_binOp, OutCanon.next]
theorem canon_execMinu (f : SF) (s : State) (hs0 : Canon s.mem.hbm) : OutCanon (execMinu f s) := by
  unfold execMinu; grind [canon_binOp, OutCanon.next]
theorem canon_execMaxu (f : SF) (s : State) (hs0 : Canon s.mem.hbm) : OutCanon (execMaxu f s) := by
  unfold execMaxu; grind [canon_binOp, OutCanon.next]
theorem canon_execClz (f : SF) (s : State) (hs0 : Canon s.mem.hbm) : OutCanon (execClz f s) := by
  unfold execClz; grind [canon_unOp, OutCanon.next]
theorem canon_execCtz (f : SF) (s : State) (hs0 : Canon s.mem.hbm) : OutCanon (execCtz f s) := by
  unfold execCtz; grind [canon_unOp, OutCanon.next]
theorem canon_execPopc (f : SF) (s : State) (hs0 : Canon s.mem.hbm) : OutCanon (execPopc f s) := by
  unfold execPopc; grind [canon_unOp, OutCanon.next]
theorem canon_execSext (f : SF) (s : State) (hs0 : Canon s.mem.hbm) : OutCanon (execSext f s) := by
  unfold execSext; grind [canon_unOp, OutCanon.next]
theorem canon_execZext (f : SF) (s : State) (hs0 : Canon s.mem.hbm) : OutCanon (execZext f s) := by
  unfold execZext; grind [canon_unOp, OutCanon.next]
theorem canon_execSel (f : SF) (s : State) (hs0 : Canon s.mem.hbm) : OutCanon (execSel f s) := by
  unfold execSel; grind [canon_scalarOp, OutCanon.next]
theorem canon_execAddi (f : SF) (s : State) (hs0 : Canon s.mem.hbm) : OutCanon (execAddi f s) := by
  unfold execAddi; grind [canon_unOp, OutCanon.next]
theorem canon_execAndi (f : SF) (s : State) (hs0 : Canon s.mem.hbm) : OutCanon (execAndi f s) := by
  unfold execAndi; grind [canon_unOp, OutCanon.next]
theorem canon_execOri (f : SF) (s : State) (hs0 : Canon s.mem.hbm) : OutCanon (execOri f s) := by
  unfold execOri; grind [canon_unOp, OutCanon.next]
theorem canon_execXori (f : SF) (s : State) (hs0 : Canon s.mem.hbm) : OutCanon (execXori f s) := by
  unfold execXori; grind [canon_unOp, OutCanon.next]
theorem canon_execShli (f : SF) (s : State) (hs0 : Canon s.mem.hbm) : OutCanon (execShli f s) := by
  unfold execShli; grind [canon_unOp, OutCanon.next]
theorem canon_execShri (f : SF) (s : State) (hs0 : Canon s.mem.hbm) : OutCanon (execShri f s) := by
  unfold execShri; grind [canon_unOp, OutCanon.next]
theorem canon_execSari (f : SF) (s : State) (hs0 : Canon s.mem.hbm) : OutCanon (execSari f s) := by
  unfold execSari; grind [canon_unOp, OutCanon.next]
theorem canon_execLdi (f : SF) (s : State) (hs0 : Canon s.mem.hbm) : OutCanon (execLdi f s) := by
  unfold execLdi; grind [canon_scalarOp, OutCanon.next]
theorem canon_execLdih (f : SF) (s : State) (hs0 : Canon s.mem.hbm) : OutCanon (execLdih f s) := by
  unfold execLdih; grind [canon_unOp, OutCanon.next]
theorem canon_execCmp (f : SF) (s : State) (hs0 : Canon s.mem.hbm) : OutCanon (execCmp f s) := by
  unfold execCmp; grind [canon_predOp, OutCanon.next]
theorem canon_execCmpi (f : SF) (s : State) (hs0 : Canon s.mem.hbm) : OutCanon (execCmpi f s) := by
  unfold execCmpi; grind [canon_predOp, OutCanon.next]
theorem canon_execPand (f : SF) (s : State) (hs0 : Canon s.mem.hbm) : OutCanon (execPand f s) := by
  unfold execPand; grind [canon_predOp, OutCanon.next]
theorem canon_execPor (f : SF) (s : State) (hs0 : Canon s.mem.hbm) : OutCanon (execPor f s) := by
  unfold execPor; grind [canon_predOp, OutCanon.next]
theorem canon_execPxor (f : SF) (s : State) (hs0 : Canon s.mem.hbm) : OutCanon (execPxor f s) := by
  unfold execPxor; grind [canon_predOp, OutCanon.next]
theorem canon_execPnot (f : SF) (s : State) (hs0 : Canon s.mem.hbm) : OutCanon (execPnot f s) := by
  unfold execPnot; grind [canon_predOp, OutCanon.next]
theorem canon_execPset (f : SF) (s : State) (hs0 : Canon s.mem.hbm) : OutCanon (execPset f s) := by
  unfold execPset; grind [canon_predOp, OutCanon.next]
theorem canon_execPinv (f : SF) (s : State) (hs0 : Canon s.mem.hbm) : OutCanon (execPinv f s) := by
  unfold execPinv; grind [canon_commitCore, OutCanon.next]
theorem canon_badAuth (s : State) (port : Nat) (hs0 : Canon s.mem.hbm) : Canon (State.badAuth s port).mem.hbm := by
  unfold State.badAuth; grind [State.onFab]
theorem canon_logKind (s : State) (kind : Nat) (hs0 : Canon s.mem.hbm) : Canon (State.logKind s kind).mem.hbm := by
  exact hs0
theorem canon_flush (s : State) (port : Nat) (hs0 : Canon s.mem.hbm) : Canon (State.flush s port).mem.hbm := by
  unfold State.flush; grind [State.onFab, State.onClk]
theorem canon_pump (s : State) (hs0 : Canon s.mem.hbm) : Canon (State.pump s).mem.hbm := by
  unfold State.pump; grind [canon_flush, Canon.fold, Canon.fold2]
theorem canon_toPort (s : State) (port : Nat) (p : Packet) (hs0 : Canon s.mem.hbm) : Canon (State.toPort s port p).mem.hbm := by
  unfold State.toPort; grind [State.onFab, canon_flush]
theorem canon_hopLimit (s : State) (p : Packet) (hs0 : Canon s.mem.hbm) : Canon (State.hopLimit s p).mem.hbm := by
  unfold State.hopLimit; grind [State.onFab, canon_toPort, canon_logKind]
theorem canon_routePkt (s : State) (p : Packet) (hs0 : Canon s.mem.hbm) : Canon (State.routePkt s p).mem.hbm := by
  unfold State.routePkt; grind [canon_hopLimit, canon_toPort]
theorem canon_forwardPkt (s : State) (p : Packet) (hs0 : Canon s.mem.hbm) : Canon (State.forwardPkt s p).mem.hbm := by
  unfold State.forwardPkt; grind [canon_routePkt, canon_hopLimit]
theorem canon_sendPkt (s : State) (p : Packet) (hs0 : Canon s.mem.hbm) : Canon (State.sendPkt s p).mem.hbm := by
  unfold State.sendPkt; grind [State.onFab, canon_routePkt]
theorem canon_askWm (s : State) (wm : Nat) (job : Nat) (hs0 : Canon s.mem.hbm) : Canon (State.askWm s wm job).mem.hbm := by
  unfold State.askWm; grind [State.onFab, canon_sendPkt]
theorem canon_allocWm (s : State) (c : Nat) (job : Nat) (tcb : Nat) (hs0 : Canon s.mem.hbm) : Canon (State.allocWm s c job tcb).1.mem.hbm := by
  unfold State.allocWm
  dsimp only
  split <;> exact hs0
theorem canon_settleSlot (s : State) (n : Nat) (landed : Bool) (hs0 : Canon s.mem.hbm) : Canon (State.settleSlot s n landed).mem.hbm := by
  unfold State.settleSlot; grind [State.onFab, canon_unask, canon_sendPkt, Canon.fold, Canon.fold2]
theorem canon_settleWm (s : State) (wm : Nat) (landed : Bool) (hs0 : Canon s.mem.hbm) : Canon (State.settleWm s wm landed).mem.hbm := by
  unfold State.settleWm; grind [canon_settleSlot]
theorem canon_probeStatus_wait (s : State) (c : Nat) (va : Nat) (hs0 : Canon s.mem.hbm) : Canon (State.probeStatus.wait s c va).mem.hbm := by
  unfold State.probeStatus.wait; grind [State.onSeq, State.onCore, State.setCore, canon_startWalk]
theorem canon_probeStatus (s : State) (c : Nat) (wr : Bool) (va : Nat) (hs0 : Canon s.mem.hbm) : Canon (State.probeStatus s c wr va).1.mem.hbm := by
  unfold State.probeStatus; grind [canon_seeCache, canon_probeStatus_wait]
theorem canon_pushWaits (s : State) (c : Nat) (hs0 : Canon s.mem.hbm) : Canon (State.pushWaits s c).1.mem.hbm := by
  unfold State.pushWaits; grind [canon_access]
theorem canon_waits (s : State) (u : UnitCtx) (i : Instr) (hs0 : Canon s.mem.hbm) : Canon (State.waits s u i).1.mem.hbm := by
  unfold State.waits; grind [State.onSeq, State.onCore, State.setCore, canon_probeStatus, canon_pushWaits, canon_askWm]
theorem canon_unitStall (s : State) (u : UnitCtx) (before : List (UnitCtx × Instr)) (i : Instr) (hs0 : Canon s.mem.hbm) : Canon (State.unitStall s u before i).1.mem.hbm := by
  unfold State.unitStall; grind [canon_waits]
theorem canon_firstStall (s : State) (x1 : List (UnitCtx × Instr)) (x2 : List (UnitCtx × Instr)) (hs0 : Canon s.mem.hbm) : Canon (State.firstStall s x1 x2).1.mem.hbm := by
  induction x2 generalizing s x1 with
  | nil => exact hs0
  | cons x r ih =>
    have h1 := canon_unitStall s x.1 x1 x.2 hs0
    unfold State.firstStall
    split
    · next e => rw [e] at h1; exact h1
    · next e => rw [e] at h1; exact ih _ _ h1
theorem canon_examine (s : State) (c : Nat) (hs0 : Canon s.mem.hbm) : Canon (State.examine s c).1.mem.hbm := by
  unfold State.examine; grind [canon_pushWaits, canon_firstStall]
theorem canon_readable (s : State) (c : Nat) (x2 : List (UnitCtx × Instr)) (hs0 : Canon s.mem.hbm) : Canon (State.readable s c x2).1.mem.hbm := by
  induction x2 generalizing s with
  | nil => exact hs0
  | cons x r ih =>
    have h1 := canon_coreEcc s c (if x.1.unit ≤ 2 then 1 else if x.1.unit ≤ 6 then 2 else if x.1.unit ≤ 8 then 3 else 4) (issueWords (s.core c).ctx x) hs0
    unfold State.readable
    split
    · next e => rw [e] at h1; exact h1
    · next e => rw [e] at h1; exact ih _ h1
theorem canon_launch (s : State) (c : Nat) (units : List (UnitCtx × Instr)) (hs0 : Canon s.mem.hbm) : Canon (State.launch s c units).mem.hbm := by
  unfold State.launch; grind [State.onSeq, State.onCore, State.setCore, canon_readable]
theorem canon_toFatal (s : State) (c : Nat) (hs0 : Canon s.mem.hbm) : Canon (State.toFatal s c).mem.hbm := by
  exact hs0
theorem canon_stopAt (s : State) (c : Nat) (cause : Nat) (slot : Nat) (hs0 : Canon s.mem.hbm) : Canon (State.stopAt s c cause slot).mem.hbm := by
  exact hs0
theorem canon_replayCycle (s : State) (c : Nat) (hs0 : Canon s.mem.hbm) : Canon (State.replayCycle s c).mem.hbm := by
  unfold State.replayCycle; grind [State.onCore, State.setCore]
theorem canon_drainAt (s : State) (c : Nat) (u : Nat) (hs0 : Canon s.mem.hbm) : Canon (State.drainAt s c u).mem.hbm := by
  unfold State.drainAt; grind [State.onCore, State.setCore]
theorem canon_splitIssue (s : State) (c : Nat) (u : Nat) (p : Plan) (leaf : Nat) (hs0 : Canon s.mem.hbm) : Canon (State.splitIssue s c u p leaf).mem.hbm := by
  unfold State.splitIssue; grind [State.onSeq, State.onCore, State.setCore, canon_stopAt, canon_launch, canon_drainAt]
theorem canon_strikeSave (s : State) (c : Nat) (hs0 : Canon s.mem.hbm) : Canon (State.strikeSave s c).mem.hbm := by
  unfold State.strikeSave; grind [State.onSeq, State.onCore, State.setCore, canon_stopAt, canon_splitIssue, canon_drainAt, canon_examine]
theorem canon_ldAdd (s : State) (c : Nat) (i : Nat) (hs0 : Canon s.mem.hbm) : Canon (State.ldAdd s c i).mem.hbm := by
  unfold State.ldAdd; grind [State.onCore, State.setCore]
theorem canon_countCycle (s : State) (c : Nat) (hs0 : Canon s.mem.hbm) : Canon (State.countCycle s c).mem.hbm := by
  unfold State.countCycle; grind [canon_ldAdd, Canon.fold, Canon.fold2]
theorem canon_issueCycle (s : State) (c : Nat) (hs0 : Canon s.mem.hbm) : Canon (State.issueCycle s c).mem.hbm := by
  unfold State.issueCycle; grind [State.onCore, State.onSeq, State.setCore, canon_stopAt, canon_launch, canon_strikeSave, canon_ldAdd, canon_landCycle, canon_replayCycle, canon_toFatal, canon_examine]
theorem canon_beginIssue (s : State) (c : Nat) (hs0 : Canon s.mem.hbm) : Canon (State.beginIssue s c).mem.hbm := by
  unfold State.beginIssue; grind [canon_issueCycle, canon_countCycle]
theorem canon_beginTask (s : State) (c : Nat) (hs0 : Canon s.mem.hbm) : Canon (State.beginTask s c).mem.hbm := by
  unfold State.beginTask; grind [State.onCore, State.setCore]
theorem canon_seqNext (s : State) (c : Nat) (len : Nat) (hs0 : Canon s.mem.hbm) : Canon (State.seqNext s c len).mem.hbm := by
  unfold State.seqNext; grind [State.onCore, State.setCore]
theorem canon_afterBundle (s : State) (c : Nat) (hs0 : Canon s.mem.hbm) : Canon (State.afterBundle s c).mem.hbm := by
  unfold State.afterBundle; grind [State.onSeq, State.onCore, State.setCore, canon_seqNext, canon_rasPush, canon_beginTask]
theorem canon_splitAt (s : State) (c : Nat) (u : Nat) (ph : Phase) (hs0 : Canon s.mem.hbm) : Canon (State.splitAt s c u ph).mem.hbm := by
  exact hs0
theorem canon_advance (s : State) (c : Nat) (hs0 : Canon s.mem.hbm) : Canon (State.advance s c).mem.hbm := by
  unfold State.advance; grind [State.onCore, State.onSeq, State.setCore, canon_afterBundle]
theorem canon_stopAfter (s : State) (c : Nat) (hs0 : Canon s.mem.hbm) : Canon (State.stopAfter s c).mem.hbm := by
  unfold State.stopAfter; grind [canon_drainAt]
theorem canon_endIssue (s : State) (c : Nat) (hs0 : Canon s.mem.hbm) : Canon (State.endIssue s c).mem.hbm := by
  unfold State.endIssue; grind [State.onCore, State.setCore, canon_hostGo, canon_stopAfter, canon_splitAt, canon_landCycle, canon_toFatal, canon_advance]
theorem canon_passed (s : State) (dt : Nat) (hs0 : Canon s.mem.hbm) : Canon (State.passed s dt).mem.hbm := by
  unfold State.passed; grind
theorem canon_enter (s : State) (p : Place) (g : Core → Core) (hs0 : Canon s.mem.hbm) : Canon (State.enter s p g).mem.hbm := by
  unfold State.enter
  exact canon_onCore _ _ _ (canon_countAcc _ _ _ _ _ hs0)
theorem canon_execLd (f : SF) (s : State) (hs0 : Canon s.mem.hbm) : OutCanon (execLd f s) := by
  unfold execLd; grind [State.onCore, State.setCore, canon_commitState, canon_enter, OutCanon.next]
theorem canon_execSt (f : SF) (s : State) (hs0 : Canon s.mem.hbm) : OutCanon (execSt f s) := by
  unfold execSt; grind [State.onCore, State.setCore, canon_commitState, canon_enter, OutCanon.next]

end Sys2Proof.Machine
end

