-- ==== Sys2Proof/Laws/Canon2.lean ====
section
/-! SUPPORT. Every operation keeps the canonical form of the memory, part 2 of 4: one lemma for each definition that answers a
state, in the order in which the definitions build on each other. -/
set_option Elab.async false
namespace Sys2Proof.Machine

theorem canon_execAtom (f : SF) (s : State) (hs0 : Canon s.mem.hbm) : OutCanon (execAtom f s) := by
  unfold execAtom; grind [State.onCore, State.setCore, canon_commitState, canon_enter, OutCanon.next]
theorem canon_execLds (f : SF) (s : State) (hs0 : Canon s.mem.hbm) : OutCanon (execLds f s) := by
  unfold execLds; grind [canon_commitCore, canon_sram, OutCanon.next]
theorem canon_execSts (f : SF) (s : State) (hs0 : Canon s.mem.hbm) : OutCanon (execSts f s) := by
  unfold execSts; grind [canon_commitCore, OutCanon.next]
theorem canon_execFence (x0 : SF) (s : State) (hs0 : Canon s.mem.hbm) : OutCanon (execFence x0 s) := by
  unfold execFence; grind [canon_commitCore, OutCanon.next]
theorem canon_execTrn (f : SF) (s : State) (hs0 : Canon s.mem.hbm) : OutCanon (execTrn f s) := by
  unfold execTrn; grind [canon_commitCore, OutCanon.next]
theorem canon_execHrel (f : SF) (s : State) (hs0 : Canon s.mem.hbm) : OutCanon (execHrel f s) := by
  unfold execHrel; grind [canon_commitCore, OutCanon.next]
theorem canon_execHinfo (f : SF) (s : State) (hs0 : Canon s.mem.hbm) : OutCanon (execHinfo f s) := by
  unfold execHinfo; grind [canon_scalarOp, OutCanon.next]
theorem canon_execProbe (f : SF) (s : State) (hs0 : Canon s.mem.hbm) : OutCanon (execProbe f s) := by
  unfold execProbe; grind [canon_probeStatus, canon_commitCore, OutCanon.next]
theorem canon_execRand (f : SF) (s : State) (hs0 : Canon s.mem.hbm) : OutCanon (execRand f s) := by
  unfold execRand; grind [canon_scalarOp, OutCanon.next]
theorem canon_semOp (f : SF) (s : State) (g : Core → Core) (hs0 : Canon s.mem.hbm) : OutCanon (semOp f s g) := by
  unfold semOp; grind [canon_commitCore, OutCanon.next]
theorem canon_execSemsig (f : SF) (s : State) (hs0 : Canon s.mem.hbm) : OutCanon (execSemsig f s) := by
  unfold execSemsig; grind [canon_semOp, OutCanon.next]
theorem canon_execSemset (f : SF) (s : State) (hs0 : Canon s.mem.hbm) : OutCanon (execSemset f s) := by
  unfold execSemset; grind [canon_semOp, OutCanon.next]
theorem canon_execSemwait (f : SF) (s : State) (hs0 : Canon s.mem.hbm) : OutCanon (execSemwait f s) := by
  unfold execSemwait; grind [State.onCore, State.setCore, canon_semPut, canon_commitState, OutCanon.next]
theorem canon_execTwait (x0 : SF) (s : State) (hs0 : Canon s.mem.hbm) : OutCanon (execTwait x0 s) := by
  unfold execTwait; grind [canon_commitCore, OutCanon.next]
theorem canon_execBlock (f : SF) (s : State) (hs0 : Canon s.mem.hbm) : OutCanon (execBlock f s) := by
  unfold execBlock; grind [State.onCore, State.setCore, canon_commitState, canon_logKind, OutCanon.next, Canon.fold, Canon.fold2]
theorem canon_signal (s : State) (c : Nat) (sem : Option Nat) (slot : Nat) (addr : Nat) (hs0 : Canon s.mem.hbm) : Canon (State.signal s c sem slot addr).mem.hbm := by
  unfold State.signal; grind [State.onCore, State.setCore, canon_semAdd]
theorem canon_execLoadLand (c : Nat) (i : Nat) (s : State) (hs0 : Canon s.mem.hbm) : OutCanon (execLoadLand c i s) := by
  unfold execLoadLand; grind [State.onCore, State.onCtx, State.onSeq, State.setCore, canon_readHbm, canon_writeHbm, canon_signal, OutCanon.next]
theorem canon_execStorePerformed (c : Nat) (i : Nat) (s : State) (hs0 : Canon s.mem.hbm) : OutCanon (execStorePerformed c i s) := by
  unfold execStorePerformed; grind [State.onCore, State.onSeq, State.setCore, canon_writeHbm, canon_signal, OutCanon.next]
theorem canon_refill (s : State) (c : Nat) (hs0 : Canon s.mem.hbm) : Canon (State.refill s c).mem.hbm := by
  unfold State.refill
  dsimp only
  split
  · exact hs0
  · split
    · split
      · exact canon_onCore _ _ _ (canon_sram _ _ _ _ _ hs0)
      · exact canon_onCtx _ _ _ (canon_sram _ _ _ _ _ hs0)
    · split
      · next e => exact Canon.fst e (canon_access _ _ _ _ _ _ hs0)
      · next e =>
        have h1 := Canon.fst e (canon_access _ _ _ _ _ _ hs0)
        have h2 : ∀ (t : State) x ctxid (p : Place), Canon t.mem.hbm → Canon (if (t.readHbm 1 ctxid p.key 8).2.2.2 = true
            then (t.readHbm 1 ctxid p.key 8).1.onCtx c x else (t.readHbm 1 ctxid p.key 8).1).mem.hbm := by
          intro t x ctxid p h
          split
          · exact canon_onCtx _ _ _ (canon_readHbm _ _ _ _ _ h)
          · exact canon_readHbm _ _ _ _ _ h
        split
        · exact canon_onCore _ _ _ (h2 _ _ _ _ h1)
        · exact canon_onCtx _ _ _ (h2 _ _ _ _ h1)
      · next e => exact canon_onCore _ _ _ (Canon.fst e (canon_access _ _ _ _ _ _ hs0))
theorem canon_refills (s : State) (c : Nat) (x2 : Nat) (hs0 : Canon s.mem.hbm) : Canon (State.refills s c x2).mem.hbm := by
  induction x2 generalizing s with
  | zero => exact hs0
  | succ n ih => exact ih _ (canon_refill _ _ hs0)
theorem canon_execRasRefill (c : Nat) (s : State) (hs0 : Canon s.mem.hbm) : OutCanon (execRasRefill c s) := by
  unfold execRasRefill; grind [canon_refill, OutCanon.next]
theorem canon_markDisc (s : State) (c : Option Nat) (hs0 : Canon s.mem.hbm) : Canon (State.markDisc s c).mem.hbm := by
  unfold State.markDisc; grind [State.onCtx, State.onCore, State.setCore]
theorem canon_jobRead (s : State) (job : Nat) (rq : Req) (reader : Nat) (by_ : Option Nat) (ctxid : BitVec 64) (va : Nat) (n : Nat) (x8 : Nat) (hs0 : Canon s.mem.hbm) : Canon (State.jobRead s job rq reader by_ ctxid va n x8).1.mem.hbm := by
  induction x8 generalizing s va n with
  | zero => exact hs0
  | succ f ih => unfold State.jobRead; grind [canon_access, canon_readHbm, canon_markDisc]
theorem canon_jobCheck (s : State) (job : Nat) (rq : Req) (wr : Bool) (va : Nat) (n : Nat) (x6 : Nat) (hs0 : Canon s.mem.hbm) : Canon (State.jobCheck s job rq wr va n x6).1.mem.hbm := by
  induction x6 generalizing s va n with
  | zero => exact hs0
  | succ f ih => unfold State.jobCheck; grind [canon_access]
theorem canon_jobSettled (s : State) (job : Nat) (rq : Req) (wr : Bool) (va : Nat) (n : Nat) (x6 : Nat) (hs0 : Canon s.mem.hbm) : Canon (State.jobSettled s job rq wr va n x6).1.mem.hbm := by
  induction x6 generalizing s va n with
  | zero => exact hs0
  | succ f ih =>
    unfold State.jobSettled
    split
    · exact hs0
    · exact ih _ _ _ (canon_access _ _ _ _ _ _ hs0)
theorem canon_pageMapped (s : State) (job : Nat) (die : Nat) (va : Nat) (n : Nat) (wr : Bool) (hs0 : Canon s.mem.hbm) : Canon (State.pageMapped s job die va n wr).1.mem.hbm := by
  unfold State.pageMapped
  dsimp only
  have h1 := canon_translate s job va hs0
  split
  · exact hs0
  · exact h1
theorem canon_jobMapped (s : State) (job : Nat) (die : Nat) (va : Nat) (n : Nat) (wr : Bool) (x6 : Nat) (hs0 : Canon s.mem.hbm) : Canon (State.jobMapped s job die va n wr x6).1.mem.hbm := by
  induction x6 generalizing s va n with
  | zero => exact hs0
  | succ f ih =>
    unfold State.jobMapped
    generalize min n (65536 - va % 65536) = m
    generalize va % 2 ^ 57 = v
    dsimp only
    have hr := fun a b => canon_pageMapped s job die a b wr hs0
    split
    · exact hs0
    · split
      · exact ih _ _ _ (hr v m)
      · exact hr v m
theorem canon_jobWrite (s : State) (job : Nat) (rq : Req) (ctxid : BitVec 64) (wr : Bool) (va : Nat) (l : List Byte) (x7 : Nat) (hs0 : Canon s.mem.hbm) : Canon (State.jobWrite s job rq ctxid wr va l x7).1.mem.hbm := by
  induction x7 generalizing s va l with
  | zero => exact hs0
  | succ f ih => unfold State.jobWrite; grind [canon_access, canon_writeHbm]
theorem canon_schedWrite (s : State) (w : SchedWrite) (hs0 : Canon s.mem.hbm) : Canon (State.schedWrite s w).1.mem.hbm := by
  unfold State.schedWrite; grind [canon_jobWrite]
theorem canon_schedGo (s : State) (hs0 : Canon s.mem.hbm) : Canon (State.schedGo s).mem.hbm := by
  unfold State.schedGo; grind [State.onSched, canon_ptError, canon_schedWrite, Canon.fold, Canon.fold2]
theorem canon_schedPut (s : State) (job : Nat) (va : Nat) (l : List Byte) (table : Bool) (hs0 : Canon s.mem.hbm) : Canon (State.schedPut s job va l table).mem.hbm := by
  unfold State.schedPut; grind [State.onSched, canon_schedGo]
theorem canon_answer (s : State) (d : UnitCmd) (v : BitVec 64) (rows : List Row) (tile : Nat) (row0 : Nat) (pred : Option (Nat × Bool)) (hs0 : Canon s.mem.hbm) : Canon (State.answer s d v rows tile row0 pred).mem.hbm := by
  unfold State.answer; grind [State.onSeq, State.onCore, State.setCore, canon_deliver]
theorem canon_refuse (s : State) (d : UnitCmd) (reason : Nat) (hs0 : Canon s.mem.hbm) : Canon (State.refuse s d reason).mem.hbm := by
  unfold State.refuse; grind [canon_answer]
theorem canon_copIssue (s : State) (f : CF) (allowed : CoreKind → Bool) (op : Instr) (data : List Byte) (unit : State → UnitCmd → State) (hu : ∀ s d, Canon s.mem.hbm → Canon (unit s d).mem.hbm) (ok : Canon s.mem.hbm) : Canon (State.copIssue s f allowed op data unit).mem.hbm := by
  simp only [State.copIssue]
  split
  · exact ok
  · exact hu _ _ ok
theorem canon_commitCop (s : State) (f : State → State) (hf : Canon (f s).mem.hbm) (hs0 : Canon s.mem.hbm) : OutCanon (commitCop s f) := by
  apply OutCanon.next
  split
  · exact hs0
  · exact hf
theorem canon_landReply (s : State) (c : Nat) (i : Nat) (hs0 : Canon s.mem.hbm) : Canon (State.landReply s c i).mem.hbm := by
  unfold State.landReply; grind [State.onCore, State.setCore, canon_deliver]
theorem canon_takeSeq (s : State) (hs0 : Canon s.mem.hbm) : Canon (State.takeSeq s).1.mem.hbm := by
  exact hs0
theorem canon_postStamp (s : State) (job : Nat) (x : Stamp) (node : Option Nat) (hs0 : Canon s.mem.hbm) : Canon (State.postStamp s job x node).mem.hbm := by
  unfold State.postStamp; grind [canon_onJob]
theorem canon_deliverTo (s : State) (c : Nat) (cgen : BitVec 8) (job : Nat) (tcb : Nat) (cause : Nat) (detail : Nat) (late : Bool) (hs0 : Canon s.mem.hbm) : Canon (State.deliverTo s c cgen job tcb cause detail late).mem.hbm := by
  unfold State.deliverTo; grind [State.onSeq, State.onCore, State.setCore, canon_deliver, canon_postStamp]
theorem canon_setWindow (s : State) (n : Nat) (w : Window) (hs0 : Canon s.mem.hbm) : Canon (State.setWindow s n w).mem.hbm := by
  exact hs0
theorem canon_poisonWindow (s : State) (n : Nat) (hs0 : Canon s.mem.hbm) : Canon (State.poisonWindow s n).mem.hbm := by
  unfold State.poisonWindow; grind [canon_deliverTo, canon_setWindow]
theorem canon_poisonJob (s : State) (job : Nat) (hs0 : Canon s.mem.hbm) : Canon (State.poisonJob s job).mem.hbm := by
  unfold State.poisonJob; grind [canon_poisonWindow, Canon.fold, Canon.fold2]
theorem canon_voidSlots (s : State) (p : Origin → Bool) (hs0 : Canon s.mem.hbm) : Canon (State.voidSlots s p).mem.hbm := by
  unfold State.voidSlots; grind [canon_settleSlot, Canon.fold, Canon.fold2]
theorem canon_completeWindow (s : State) (n : Nat) (hs0 : Canon s.mem.hbm) : Canon (State.completeWindow s n).1.mem.hbm := by
  unfold State.completeWindow; grind [canon_poisonWindow, canon_jobCheck, canon_semAdd, canon_setWindow, canon_deliver, canon_jobWrite]
theorem canon_fwin (s : State) (d : UnitCmd) (hs0 : Canon s.mem.hbm) : Canon (State.fwin s d).1.mem.hbm := by
  unfold State.fwin; grind [canon_answer, canon_jobMapped, canon_refuse, canon_setWindow]
theorem canon_fwstat (s : State) (d : UnitCmd) (hs0 : Canon s.mem.hbm) : Canon (State.fwstat s d).mem.hbm := by
  unfold State.fwstat; grind [canon_answer, canon_refuse]
theorem canon_fwclose (s : State) (d : UnitCmd) (hs0 : Canon s.mem.hbm) : Canon (State.fwclose s d).mem.hbm := by
  unfold State.fwclose; grind [canon_poisonWindow, canon_answer, canon_refuse, canon_setWindow]
theorem canon_winTry (s : State) (d : UnitCmd) (hs0 : Canon s.mem.hbm) : Canon (State.winTry s d).1.mem.hbm := by
  unfold State.winTry; grind [canon_fwin, canon_fwclose, canon_fwstat]
theorem canon_winGo (s : State) (x1 : Nat) (hs0 : Canon s.mem.hbm) : Canon (State.winGo s x1).mem.hbm := by
  induction x1 generalizing s with
  | zero => exact hs0
  | succ n ih => unfold State.winGo; grind [canon_winTry, State.onFab]
theorem canon_winCmd (s : State) (d : UnitCmd) (hs0 : Canon s.mem.hbm) : Canon (State.winCmd s d).mem.hbm := by
  unfold State.winCmd; grind [State.onFab, canon_winGo]
theorem canon_execFwin (f : CF) (s : State) (hs0 : Canon s.mem.hbm) : OutCanon (execFwin f s) := by
  unfold execFwin; grind [State.onCore, State.setCore, canon_sram, canon_winCmd, canon_commitCop, canon_copIssue, OutCanon.next]
theorem canon_execFwstat (f : CF) (s : State) (hs0 : Canon s.mem.hbm) : OutCanon (execFwstat f s) := by
  unfold execFwstat; grind [canon_winCmd, canon_commitCop, canon_copIssue, OutCanon.next]
theorem canon_execFwclose (f : CF) (s : State) (hs0 : Canon s.mem.hbm) : OutCanon (execFwclose f s) := by
  unfold execFwclose; grind [canon_winCmd, canon_commitCop, canon_copIssue, OutCanon.next]
theorem canon_takeSeqNo (s : State) (key : Nat) (hs0 : Canon s.mem.hbm) : Canon (State.takeSeqNo s key).1.mem.hbm := by
  exact hs0
theorem canon_fabIssue (s : State) (ty : Nat) (f : SF) (hs0 : Canon s.mem.hbm) : Canon (State.fabIssue s ty f).mem.hbm := by
  unfold State.fabIssue; grind [State.onCore, State.onFab, State.setCore, canon_allocWm, canon_takeSeqNo, canon_sram]
theorem canon_execFst (f : SF) (s : State) (hs0 : Canon s.mem.hbm) : OutCanon (execFst f s) := by
  unfold execFst; grind [canon_commitState, canon_fabIssue, OutCanon.next]
theorem canon_execFatom (f : SF) (s : State) (hs0 : Canon s.mem.hbm) : OutCanon (execFatom f s) := by
  unfold execFatom; grind [canon_commitState, canon_fabIssue, OutCanon.next]
theorem canon_execFred (f : SF) (s : State) (hs0 : Canon s.mem.hbm) : OutCanon (execFred f s) := by
  unfold execFred; grind [canon_commitState, canon_fabIssue, OutCanon.next]
theorem canon_launchPkt (s : State) (h : Handoff) (p : Packet) (hs0 : Canon s.mem.hbm) : Canon (State.launchPkt s h p).mem.hbm := by
  unfold State.launchPkt; grind [State.onFab, canon_sendPkt]
theorem canon_launchHandoff (s : State) (h : Handoff) (p : Packet) (hs0 : Canon s.mem.hbm) : Canon (State.launchHandoff s h p).mem.hbm := by
  unfold State.launchHandoff; grind [State.onCtx, State.onFab, State.onCore, State.setCore, canon_launchPkt]
theorem canon_execFabricPayloadRead (c : Nat) (k : Nat) (s : State) (hs0 : Canon s.mem.hbm) : OutCanon (execFabricPayloadRead c k s) := by
  unfold execFabricPayloadRead; grind [State.onFab, canon_deliverTo, canon_semAdd, canon_sram, canon_settleWm, canon_launchHandoff, canon_deliver, OutCanon.next]
theorem canon_execFredLaunchTick (c : Nat) (s : State) (hs0 : Canon s.mem.hbm) : OutCanon (execFredLaunchTick c s) := by
  unfold execFredLaunchTick; grind [canon_launchHandoff, OutCanon.next]
theorem canon_execWmwait (f : SF) (s : State) (hs0 : Canon s.mem.hbm) : OutCanon (execWmwait f s) := by
  unfold execWmwait; grind [canon_commitCore, OutCanon.next]
theorem canon_execWmtest (f : SF) (s : State) (hs0 : Canon s.mem.hbm) : OutCanon (execWmtest f s) := by
  unfold execWmtest; grind [State.onCore, State.setCore, canon_commitState, canon_sendPkt, OutCanon.next]
theorem canon_execWmwaitExpiry (s : State) (hs0 : Canon s.mem.hbm) : OutCanon (execWmwaitExpiry s) := by
  unfold execWmwaitExpiry; grind [State.onSeq, State.onCore, State.setCore, canon_deliver, OutCanon.next]
theorem canon_tellOrigin (s : State) (p : Packet) (ty : Nat) (a : Nat) (b : Nat) (c : Nat) (hs0 : Canon s.mem.hbm) : Canon (State.tellOrigin s p ty a b c).mem.hbm := by
  unfold State.tellOrigin; grind [canon_sendPkt]
theorem canon_ackPkt (s : State) (p : Packet) (hs0 : Canon s.mem.hbm) : Canon (State.ackPkt s p).mem.hbm := by
  unfold State.ackPkt; grind [canon_tellOrigin]
theorem canon_nackPkt (s : State) (p : Packet) (reason : Nat) (hs0 : Canon s.mem.hbm) : Canon (State.nackPkt s p reason).mem.hbm := by
  unfold State.nackPkt; grind [canon_tellOrigin]
theorem canon_noticePkt (s : State) (p : Packet) (reason : Nat) (hs0 : Canon s.mem.hbm) : Canon (State.noticePkt s p reason).mem.hbm := by
  unfold State.noticePkt; grind [canon_tellOrigin]
theorem canon_holdPkt (s : State) (port : Nat) (p : Packet) (hs0 : Canon s.mem.hbm) : Canon (State.holdPkt s port p).mem.hbm := by
  unfold State.holdPkt; grind [State.onFab, canon_askWm, Canon.fold, Canon.fold2]
theorem canon_acceptPkt (s : State) (port : Nat) (p : Packet) (hs0 : Canon s.mem.hbm) : Canon (State.acceptPkt s port p).mem.hbm := by
  unfold State.acceptPkt; grind [State.onFab, canon_badAuth, canon_nackPkt, canon_poisonWindow, canon_ackPkt, canon_setWindow, canon_holdPkt]
theorem canon_execPacketAccept (port : Nat) (p : Packet) (s : State) (hs0 : Canon s.mem.hbm) : OutCanon (execPacketAccept port p s) := by
  unfold execPacketAccept; grind [canon_forwardPkt, canon_acceptPkt, OutCanon.next]
theorem canon_execPacketForward (x0 : Nat) (p : Packet) (s : State) (hs0 : Canon s.mem.hbm) : OutCanon (execPacketForward x0 p s) := by
  unfold execPacketForward; grind [canon_forwardPkt, OutCanon.next]
theorem canon_unhold (s : State) (h : Hold) (hs0 : Canon s.mem.hbm) : Canon (State.unhold s h).mem.hbm := by
  unfold State.unhold; grind [State.onFab, canon_unask]
theorem canon_setHold (s : State) (h : Hold) (hs0 : Canon s.mem.hbm) : Canon (State.setHold s h).mem.hbm := by
  exact hs0
theorem canon_dropHold (s : State) (h : Hold) (reason : Nat) (hs0 : Canon s.mem.hbm) : Canon (State.dropHold s h reason).mem.hbm := by
  unfold State.dropHold; grind [canon_noticePkt, canon_unhold]
theorem canon_execHoldRelease (s : State) (hs0 : Canon s.mem.hbm) : OutCanon (execHoldRelease s) := by
  unfold execHoldRelease; grind [canon_unask, canon_setHold, OutCanon.next, Canon.fold, Canon.fold2]
theorem canon_execHoldDropVoid (s : State) (hs0 : Canon s.mem.hbm) : OutCanon (execHoldDropVoid s) := by
  unfold execHoldDropVoid; grind [canon_dropHold, OutCanon.next]
theorem canon_commitPart (s : State) (p : Packet) (q : Place) (l : List Byte) (hs0 : Canon s.mem.hbm) : Canon (State.commitPart s p q l).1.mem.hbm := by
  have h1 := fun b => canon_ecc s 11 0 b hs0
  have h2 := fun l rd => canon_writeHbm s p.job 0 q.key l rd hs0
  unfold State.commitPart
  extract_lets n bad m
  split
  · exact hs0
  · split
    · exact h1 bad
    · split
      · exact h2 _ _
      · exact h2 _ _
theorem canon_commitDone (s : State) (h : Hold) (hs0 : Canon s.mem.hbm) : Canon (State.commitDone s h).mem.hbm := by
  unfold State.commitDone; grind [State.onVat, canon_unhold, canon_settleWm, canon_sendPkt]
theorem canon_partDone (s : State) (h : Hold) (m : Nat) (bad : Option Nat) (parts : List Part) (hs0 : Canon s.mem.hbm) : Canon (State.partDone s h m bad parts).mem.hbm := by
  unfold State.partDone; grind [canon_noticePkt, canon_commitDone, canon_setHold]
theorem canon_commitNext (s : State) (h : Hold) (hs0 : Canon s.mem.hbm) : Canon (State.commitNext s h).mem.hbm := by
  unfold State.commitNext
  dsimp only
  split
  · next e => exact Canon.fst e (canon_access _ _ _ _ _ _ hs0)
  · next e => exact canon_partDone _ _ _ _ _ (Canon.fst e (canon_access _ _ _ _ _ _ hs0))
  · next e => exact canon_partDone _ _ _ _ _ (Canon.fst e (canon_access _ _ _ _ _ _ hs0))
  · next e => exact canon_partDone _ _ _ _ _ (Canon.fst e (canon_access _ _ _ _ _ _ hs0))
  · next e =>
    have h1 := Canon.fst e (canon_access _ _ _ _ _ _ hs0)
    split
    · exact h1
    · exact canon_partDone _ _ _ _ _ (canon_commitPart _ _ _ _ h1)
theorem canon_commitFred (s : State) (h : Hold) (hs0 : Canon s.mem.hbm) : Canon (State.commitFred s h).mem.hbm := by
  unfold State.commitFred; grind [canon_setWindow, canon_unhold, canon_commitDone, canon_completeWindow]
theorem canon_execPacketCommit (k : Nat) (s : State) (hs0 : Canon s.mem.hbm) : OutCanon (execPacketCommit k s) := by
  unfold execPacketCommit; grind [canon_commitNext, canon_commitFred, OutCanon.next]
theorem canon_execAck (p : Packet) (s : State) (hs0 : Canon s.mem.hbm) : OutCanon (execAck p s) := by
  unfold execAck; grind [State.onFab, canon_unask, canon_badAuth, OutCanon.next, Canon.fold, Canon.fold2]
theorem canon_execNack (p : Packet) (s : State) (hs0 : Canon s.mem.hbm) : OutCanon (execNack p s) := by
  unfold execNack; grind [State.onFab, canon_badAuth, OutCanon.next]
theorem canon_execLanded (p : Packet) (s : State) (hs0 : Canon s.mem.hbm) : OutCanon (execLanded p s) := by
  unfold execLanded; grind [State.onFab, canon_badAuth, canon_settleWm, canon_sendPkt, OutCanon.next]
theorem canon_execQuery (p : Packet) (s : State) (hs0 : Canon s.mem.hbm) : OutCanon (execQuery p s) := by
  unfold execQuery; grind [State.onFab, canon_badAuth, canon_sendPkt, OutCanon.next]
theorem canon_execRelease (p : Packet) (s : State) (hs0 : Canon s.mem.hbm) : OutCanon (execRelease p s) := by
  unfold execRelease; grind [State.onFab, canon_badAuth, OutCanon.next]
theorem canon_settleNumber (s : State) (p : Packet) (hs0 : Canon s.mem.hbm) : Canon (State.settleNumber s p).mem.hbm := by
  unfold State.settleNumber; grind [State.onFab, canon_ackPkt]
theorem canon_execNotice (p : Packet) (s : State) (hs0 : Canon s.mem.hbm) : OutCanon (execNotice p s) := by
  unfold execNotice; grind [State.onFab, canon_deliverTo, canon_badAuth, canon_settleNumber, canon_settleWm, canon_logKind, OutCanon.next]
theorem canon_execRetransmitTimeout (s : State) (hs0 : Canon s.mem.hbm) : OutCanon (execRetransmitTimeout s) := by
  unfold execRetransmitTimeout; grind [State.onFab, canon_pump, canon_sendPkt, OutCanon.next]
theorem canon_abandon (s : State) (u : Unacked) (hs0 : Canon s.mem.hbm) : Canon (State.abandon s u).mem.hbm := by
  unfold State.abandon; grind [State.onFab, canon_deliverTo, canon_settleWm, canon_sendPkt]
theorem canon_execPacketAbandon (s : State) (hs0 : Canon s.mem.hbm) : OutCanon (execPacketAbandon s) := by
  unfold execPacketAbandon; grind [State.onFab, canon_abandon, canon_askWith, OutCanon.next]
theorem canon_execHoldExpiry (s : State) (hs0 : Canon s.mem.hbm) : OutCanon (execHoldExpiry s) := by
  unfold execHoldExpiry; grind [canon_dropHold, canon_setHold, canon_askWith, OutCanon.next]
theorem canon_expireSlot (s : State) (n : Nat) (hs0 : Canon s.mem.hbm) : Canon (State.expireSlot s n).mem.hbm := by
  unfold State.expireSlot; grind [canon_deliverTo, canon_settleSlot]
theorem canon_execOriginSlotExpiry (s : State) (hs0 : Canon s.mem.hbm) : OutCanon (execOriginSlotExpiry s) := by
  unfold execOriginSlotExpiry; grind [State.onFab, canon_expireSlot, canon_askWith, OutCanon.next]
theorem canon_expiryReply (s : State) (ev : Nat) (extend : Bool) (hs0 : Canon s.mem.hbm) : Canon (State.expiryReply s ev extend).mem.hbm := by
  unfold State.expiryReply; grind [State.onFab, canon_dropHold, canon_expireSlot, canon_abandon, canon_setHold]
theorem canon_execWatermarkSlotFree (s : State) (hs0 : Canon s.mem.hbm) : OutCanon (execWatermarkSlotFree s) := by
  unfold execWatermarkSlotFree
  split <;> exact OutCanon.next hs0
theorem canon_execQueryResend (s : State) (hs0 : Canon s.mem.hbm) : OutCanon (execQueryResend s) := by
  unfold execQueryResend; grind [State.onFab, canon_sendPkt, OutCanon.next]
theorem canon_execSettledCacheExpiry (s : State) (hs0 : Canon s.mem.hbm) : OutCanon (execSettledCacheExpiry s) := by
  exact OutCanon.next hs0
theorem canon_execAbandonNoticeResend (s : State) (hs0 : Canon s.mem.hbm) : OutCanon (execAbandonNoticeResend s) := by
  unfold execAbandonNoticeResend
  split
  · exact OutCanon.next hs0
  · split
    · exact OutCanon.next hs0
    · exact OutCanon.next (canon_sendPkt _ _ hs0)
theorem canon_execStreamIdleExpiry (s : State) (hs0 : Canon s.mem.hbm) : OutCanon (execStreamIdleExpiry s) := by
  exact OutCanon.next hs0
theorem canon_setLink (s : State) (port : Nat) (l : Link) (hs0 : Canon s.mem.hbm) : Canon (State.setLink s port l).mem.hbm := by
  exact hs0
theorem canon_trainGo (s : State) (hs0 : Canon s.mem.hbm) : Canon (State.trainGo s).mem.hbm := by
  unfold State.trainGo; grind [State.onFab, canon_setLink, Canon.fold, Canon.fold2]
theorem canon_execFecUncorrectable (port : Nat) (s : State) (hs0 : Canon s.mem.hbm) : OutCanon (execFecUncorrectable port s) := by
  unfold execFecUncorrectable; grind [canon_setLink, OutCanon.next]
theorem canon_execLinkDown (port : Nat) (s : State) (hs0 : Canon s.mem.hbm) : OutCanon (execLinkDown port s) := by
  unfold execLinkDown; grind [canon_setLink, OutCanon.next]
theorem canon_execTrainingRecord (port : Nat) (r : TrainRec) (s : State) (hs0 : Canon s.mem.hbm) : OutCanon (execTrainingRecord port r s) := by
  unfold execTrainingRecord; grind [State.onClk, canon_setLink, canon_flush, OutCanon.next]
theorem canon_remeasure (s : State) (port : Nat) (hs0 : Canon s.mem.hbm) : Canon (State.remeasure s port).mem.hbm := by
  unfold State.remeasure; grind [canon_setLink]
theorem canon_execRetrainTimer (s : State) (hs0 : Canon s.mem.hbm) : OutCanon (execRetrainTimer s) := by
  unfold execRetrainTimer; grind [canon_pump, canon_setLink, canon_trainGo, canon_askWith, canon_remeasure, OutCanon.next]
theorem canon_retrainReply (s : State) (ev : Nat) (view : Option LinkView) (hs0 : Canon s.mem.hbm) : Canon (State.retrainReply s ev view).mem.hbm := by
  unfold State.retrainReply; grind [canon_setLink, canon_remeasure]
theorem canon_killedElsewhere (s : State) (hs0 : Canon s.mem.hbm) : Canon (State.killedElsewhere s).mem.hbm := by
  unfold State.killedElsewhere; grind [State.onFab, canon_poisonJob, Canon.fold, Canon.fold2]
theorem canon_execWindowTimeout (s : State) (hs0 : Canon s.mem.hbm) : OutCanon (execWindowTimeout s) := by
  unfold execWindowTimeout; grind [canon_killedElsewhere, canon_poisonWindow, OutCanon.next]
theorem canon_colOut (s : State) (m : ColMsg) (hs0 : Canon s.mem.hbm) : Canon (State.colOut s m).mem.hbm := by
  unfold State.colOut; grind [canon_setLink, canon_flush]
theorem canon_seal (s : State) (m : ColMsg) (hs0 : Canon s.mem.hbm) : Canon (State.seal s m).1.mem.hbm := by
  unfold State.seal; grind [State.onFab]
theorem canon_flood (s : State) (ty : Nat) (code : Nat) (subj : Nat) (tick : Nat) (hs0 : Canon s.mem.hbm) : Canon (State.flood s ty code subj tick).mem.hbm := by
  unfold State.flood; grind [State.onClk, canon_colOut, canon_seal, Canon.fold, Canon.fold2]
theorem canon_colVia (s : State) (port : Nat) (m : ColMsg) (hs0 : Canon s.mem.hbm) : Canon (State.colVia s port m).mem.hbm := by
  unfold State.colVia; grind [canon_colOut, canon_seal]
theorem canon_colTo (s : State) (dest : Nat) (m : ColMsg) (hs0 : Canon s.mem.hbm) : Canon (State.colTo s dest m).mem.hbm := by
  unfold State.colTo; grind [canon_colVia]
theorem canon_forwardCol (s : State) (m : ColMsg) (hs0 : Canon s.mem.hbm) : Canon (State.forwardCol s m).mem.hbm := by
  unfold State.forwardCol; grind [canon_colOut, Canon.fold, Canon.fold2]
theorem canon_takeNotice (s : State) (m : ColMsg) (hs0 : Canon s.mem.hbm) : Canon (State.takeNotice s m).1.mem.hbm := by
  unfold State.takeNotice; grind [State.onClk, canon_badAuth, canon_forwardCol]
theorem canon_clkAnswer (s : State) (d : UnitCmd) (v : BitVec 64) (hs0 : Canon s.mem.hbm) : Canon (State.clkAnswer s d v).mem.hbm := by
  unfold State.clkAnswer; grind [State.onHost, canon_answer, canon_sendHost]
theorem canon_clkAnswers (s : State) (l : List UnitCmd) (v : BitVec 64) (hs0 : Canon s.mem.hbm) : Canon (State.clkAnswers s l v).mem.hbm := by
  unfold State.clkAnswers; grind [canon_clkAnswer, Canon.fold, Canon.fold2]
theorem canon_closeRound (s : State) (r : Round) (hs0 : Canon s.mem.hbm) : Canon (State.closeRound s r).mem.hbm := by
  unfold State.closeRound; grind [State.onClk, canon_flood, canon_clkAnswers]
theorem canon_startRound (s : State) (ty : Nat) (subj : Nat) (r : Round) (hs0 : Canon s.mem.hbm) : Canon (State.startRound s ty subj r).mem.hbm := by
  unfold State.startRound; grind [State.onClk, canon_flood]
theorem canon_tryRound (s : State) (hs0 : Canon s.mem.hbm) : Canon (State.tryRound s).mem.hbm := by
  unfold State.tryRound; grind [canon_closeRound]
theorem canon_openRound (s : State) (ty : Nat) (subj : Nat) (r : Round) (hs0 : Canon s.mem.hbm) : Canon (State.openRound s ty subj r).mem.hbm := by
  unfold State.openRound; grind [canon_tryRound, canon_startRound]
theorem canon_riseNext (s : State) (hs0 : Canon s.mem.hbm) : Canon (State.riseNext s).mem.hbm := by
  unfold State.riseNext; grind [State.onClk, canon_openRound]
theorem canon_evictNext (s : State) (hs0 : Canon s.mem.hbm) : Canon (State.evictNext s).mem.hbm := by
  unfold State.evictNext; grind [canon_openRound]
theorem canon_startLeave (s : State) (d : UnitCmd) (t : Nat) (hs0 : Canon s.mem.hbm) : Canon (State.startLeave s d t).mem.hbm := by
  unfold State.startLeave; grind [State.onClk, canon_openRound]
theorem canon_leaveNext (s : State) (hs0 : Canon s.mem.hbm) : Canon (State.leaveNext s).mem.hbm := by
  unfold State.leaveNext; grind [canon_startLeave]
theorem canon_roundsGo (s : State) (hs0 : Canon s.mem.hbm) : Canon (State.roundsGo s).mem.hbm := by
  unfold State.roundsGo; grind [canon_tryRound, canon_evictNext, canon_leaveNext, canon_riseNext]
theorem canon_dropRound (s : State) (t : Nat) (hs0 : Canon s.mem.hbm) : Canon (State.dropRound s t).mem.hbm := by
  unfold State.dropRound; grind [State.onClk, canon_clkAnswers]
theorem canon_fall (s : State) (code : Nat) (hs0 : Canon s.mem.hbm) : Canon (State.fall s code).1.mem.hbm := by
  unfold State.fall; grind [State.onClk, canon_flood, canon_leaveNext, canon_dropRound]
theorem canon_joinCeil (s : State) (cmd : List UnitCmd) (hs0 : Canon s.mem.hbm) : Canon (State.joinCeil s cmd).mem.hbm := by
  unfold State.joinCeil; grind [State.onClk, canon_clkAnswers]
theorem canon_localChange (s : State) (cmd : List UnitCmd) (hs0 : Canon s.mem.hbm) : Canon (State.localChange s cmd).mem.hbm := by
  unfold State.localChange; grind [State.onClk, canon_fall, canon_openRound, canon_joinCeil, canon_clkAnswers]
theorem canon_clkSettle (s : State) (hs0 : Canon s.mem.hbm) : Canon (State.clkSettle s).mem.hbm := by
  unfold State.clkSettle; grind [State.onClk, canon_clkAnswer, canon_roundsGo, canon_clkAnswers]
theorem canon_outOfGroup (s : State) (hs0 : Canon s.mem.hbm) : Canon (State.outOfGroup s).mem.hbm := by
  unfold State.outOfGroup; grind [State.onClk, canon_clkAnswer, canon_clkAnswers]
theorem canon_cljoin (s : State) (d : UnitCmd) (hs0 : Canon s.mem.hbm) : Canon (State.cljoin s d).mem.hbm := by
  unfold State.cljoin; grind [State.onClk, canon_clkSettle, canon_clkAnswer, canon_colTo]
theorem canon_clleave (s : State) (d : UnitCmd) (hs0 : Canon s.mem.hbm) : Canon (State.clleave s d).mem.hbm := by
  unfold State.clleave; grind [canon_clkSettle, canon_clkAnswer, canon_startLeave]
theorem canon_clstat (s : State) (d : UnitCmd) (hs0 : Canon s.mem.hbm) : Canon (State.clstat s d).mem.hbm := by
  unfold State.clstat; grind [canon_clkSettle, canon_clkAnswer]
theorem canon_clceil (s : State) (d : UnitCmd) (hs0 : Canon s.mem.hbm) : Canon (State.clceil s d).mem.hbm := by
  unfold State.clceil; grind [State.onClk, canon_clkSettle, canon_clkAnswer, canon_localChange]
theorem canon_clockRun (s : State) (d : Datagram) (hs0 : Canon s.mem.hbm) : Canon (State.clockRun s d).mem.hbm := by
  unfold State.clockRun; grind [canon_clkAnswer, canon_clleave, canon_cljoin, canon_clceil]
theorem canon_clockNext (s : State) (x1 : Nat) (hs0 : Canon s.mem.hbm) : Canon (State.clockNext s x1).mem.hbm := by
  induction x1 generalizing s with
  | zero => exact hs0
  | succ n ih => unfold State.clockNext; grind [canon_clockRun, State.onHost]
theorem canon_clockGo (s : State) (hs0 : Canon s.mem.hbm) : Canon (State.clockGo s).mem.hbm := by
  unfold State.clockGo; grind [canon_clockNext]
theorem canon_execCljoin (f : CF) (s : State) (hs0 : Canon s.mem.hbm) : OutCanon (execCljoin f s) := by
  unfold execCljoin; grind [canon_commitCop, canon_copIssue, canon_cljoin, OutCanon.next]
theorem canon_execClleave (f : CF) (s : State) (hs0 : Canon s.mem.hbm) : OutCanon (execClleave f s) := by
  unfold execClleave; grind [canon_clleave, canon_commitCop, canon_copIssue, OutCanon.next]
theorem canon_execClstat (f : CF) (s : State) (hs0 : Canon s.mem.hbm) : OutCanon (execClstat f s) := by
  unfold execClstat; grind [canon_clstat, canon_commitCop, canon_copIssue, OutCanon.next]
theorem canon_execClceil (f : CF) (s : State) (hs0 : Canon s.mem.hbm) : OutCanon (execClceil f s) := by
  unfold execClceil; grind [canon_commitCop, canon_copIssue, canon_clceil, OutCanon.next]
theorem canon_clkDone (s : State) (hs0 : Canon s.mem.hbm) : OutCanon (clkDone s) := by
  unfold clkDone; grind [canon_clockGo, OutCanon.next]
theorem canon_syncGo (s : State) (hs0 : Canon s.mem.hbm) : Canon (State.syncGo s).mem.hbm := by
  unfold State.syncGo; grind [canon_colVia, canon_setLink, Canon.fold, Canon.fold2]
theorem canon_syncJoin (s : State) (j : Joining) (off : Int) (hs0 : Canon s.mem.hbm) : Canon (State.syncJoin s j off).mem.hbm := by
  unfold State.syncJoin; grind [State.onClk, canon_flood]
theorem canon_execSync (m : ColMsg) (s : State) (hs0 : Canon s.mem.hbm) : OutCanon (execSync m s) := by
  unfold execSync; grind [State.onClk, canon_clkSettle, canon_badAuth, canon_colVia, canon_clkDone, canon_syncJoin, OutCanon.next]
theorem canon_execOutOfStepTimeout (s : State) (hs0 : Canon s.mem.hbm) : OutCanon (execOutOfStepTimeout s) := by
  unfold execOutOfStepTimeout; grind [State.onClk, canon_clkSettle, canon_syncGo, canon_clkDone, OutCanon.next]
theorem canon_execCeil (m : ColMsg) (s : State) (hs0 : Canon s.mem.hbm) : OutCanon (execCeil m s) := by
  unfold execCeil; grind [State.onClk, canon_clkSettle, canon_clkDone, canon_takeNotice, OutCanon.next]
theorem canon_confirmRound (s : State) (m : ColMsg) (hs0 : Canon s.mem.hbm) : Canon (State.confirmRound s m).mem.hbm := by
  unfold State.confirmRound; grind [State.onClk, canon_flood]
theorem canon_execRaise (m : ColMsg) (s : State) (hs0 : Canon s.mem.hbm) : OutCanon (execRaise m s) := by
  unfold execRaise; grind [canon_clkSettle, canon_clkDone, canon_confirmRound, canon_takeNotice, OutCanon.next]
theorem canon_execConfirm (m : ColMsg) (s : State) (hs0 : Canon s.mem.hbm) : OutCanon (execConfirm m s) := by
  unfold execConfirm; grind [State.onClk, canon_clkSettle, canon_roundsGo, canon_clkDone, canon_takeNotice, OutCanon.next]
theorem canon_execLeave (m : ColMsg) (s : State) (hs0 : Canon s.mem.hbm) : OutCanon (execLeave m s) := by
  unfold execLeave; grind [State.onClk, canon_clkSettle, canon_clkDone, canon_confirmRound, canon_takeNotice, OutCanon.next]
theorem canon_execSilent (m : ColMsg) (s : State) (hs0 : Canon s.mem.hbm) : OutCanon (execSilent m s) := by
  unfold execSilent; grind [State.onClk, canon_clkSettle, canon_clkDone, canon_takeNotice, OutCanon.next]
theorem canon_execEvict (m : ColMsg) (s : State) (hs0 : Canon s.mem.hbm) : OutCanon (execEvict m s) := by
  unfold execEvict; grind [State.onClk, canon_clkSettle, canon_roundsGo, canon_clkDone, canon_outOfGroup, canon_confirmRound, canon_takeNotice, OutCanon.next]
theorem canon_execHeartbeatTimer (s : State) (hs0 : Canon s.mem.hbm) : OutCanon (execHeartbeatTimer s) := by
  unfold execHeartbeatTimer; grind [State.onClk, canon_clkSettle, canon_pump, canon_flood, canon_syncGo, canon_clkDone, OutCanon.next]
theorem canon_execSilenceTimeout (s : State) (hs0 : Canon s.mem.hbm) : OutCanon (execSilenceTimeout s) := by
  unfold execSilenceTimeout; grind [State.onClk, canon_clkSettle, canon_flood, canon_clkDone, canon_event, OutCanon.next]
theorem canon_evictRound (s : State) (subj : Nat) (hs0 : Canon s.mem.hbm) : Canon (State.evictRound s subj).mem.hbm := by
  unfold State.evictRound; grind [canon_openRound]
theorem canon_execEvictionTimeout (s : State) (hs0 : Canon s.mem.hbm) : OutCanon (execEvictionTimeout s) := by
  unfold execEvictionTimeout; grind [State.onClk, canon_clkSettle, canon_evictRound, canon_clkDone, OutCanon.next]
theorem canon_execConfirmationRetry (s : State) (hs0 : Canon s.mem.hbm) : OutCanon (execConfirmationRetry s) := by
  unfold execConfirmationRetry; grind [State.onClk, canon_clkSettle, canon_flood, canon_clkDone, OutCanon.next]
theorem canon_answerJoin (s : State) (hs0 : Canon s.mem.hbm) : Canon (State.answerJoin s).mem.hbm := by
  unfold State.answerJoin; grind [canon_flood, canon_colTo, Canon.fold, Canon.fold2]
theorem canon_nextJoin (s : State) (hs0 : Canon s.mem.hbm) : Canon (State.nextJoin s).mem.hbm := by
  unfold State.nextJoin; grind [State.onClk, canon_answerJoin]
theorem canon_joinRequest (s : State) (m : ColMsg) (hs0 : Canon s.mem.hbm) : Canon (State.joinRequest s m).mem.hbm := by
  unfold State.joinRequest; grind [State.onClk, canon_answerJoin, canon_badAuth, canon_colOut]
theorem canon_joinAnswer (s : State) (m : ColMsg) (hs0 : Canon s.mem.hbm) : Canon (State.joinAnswer s m).mem.hbm := by
  unfold State.joinAnswer; grind [State.onClk]
theorem canon_admitJoin (s : State) (m : ColMsg) (hs0 : Canon s.mem.hbm) : Canon (State.admitJoin s m).mem.hbm := by
  unfold State.admitJoin; grind [State.onClk, canon_flood, canon_nextJoin]
theorem canon_takeJoin (s : State) (m : ColMsg) (hs0 : Canon s.mem.hbm) : Canon (State.takeJoin s m).1.mem.hbm := by
  unfold State.takeJoin; grind [State.onClk, canon_badAuth, canon_forwardCol]
theorem canon_execJoin (m : ColMsg) (s : State) (hs0 : Canon s.mem.hbm) : OutCanon (execJoin m s) := by
  unfold execJoin; grind [canon_clkSettle, canon_joinAnswer, canon_admitJoin, canon_takeJoin, canon_joinRequest, canon_clkDone, canon_takeNotice, OutCanon.next]
theorem canon_execAdmit (m : ColMsg) (s : State) (hs0 : Canon s.mem.hbm) : OutCanon (execAdmit m s) := by
  unfold execAdmit; grind [State.onClk, canon_clkSettle, canon_clkDone, canon_takeNotice, OutCanon.next]
theorem canon_joinServed (s : State) (hs0 : Canon s.mem.hbm) : Canon (State.joinServed s).mem.hbm := by
  unfold State.joinServed
  split
  · split
    · exact canon_nextJoin _ hs0
    · exact hs0
  · exact hs0
theorem canon_execJoinTimeout (s : State) (hs0 : Canon s.mem.hbm) : OutCanon (execJoinTimeout s) := by
  unfold execJoinTimeout; grind [State.onClk, canon_clkSettle, canon_clkAnswer, canon_clkDone, canon_joinServed, OutCanon.next]
theorem canon_execCeilingEffective (s : State) (hs0 : Canon s.mem.hbm) : OutCanon (execCeilingEffective s) := by
  unfold execCeilingEffective; grind [canon_clkSettle, canon_clkDone, OutCanon.next]
theorem canon_setSlot (s : State) (c : Nat) (x : Slot46) (hs0 : Canon s.mem.hbm) : Canon (State.setSlot s c x).mem.hbm := by
  exact hs0
theorem canon_cbset (s : State) (d : UnitCmd) (hs0 : Canon s.mem.hbm) : Canon (State.cbset s d).1.mem.hbm := by
  unfold State.cbset; grind [canon_answer, canon_allocWm, canon_jobMapped, canon_refuse, canon_setSlot]
theorem canon_combTarget (s : State) (x : Slot46) (done : Bool) (hs0 : Canon s.mem.hbm) : Canon (State.combTarget s x done).mem.hbm := by
  unfold State.combTarget; grind [canon_semAdd, canon_settleWm, canon_deliver]
theorem canon_combine (s : State) (n : Nat) (x : Slot46) (by_ : Option Nat) (hs0 : Canon s.mem.hbm) : Canon (State.combine s n x by_).mem.hbm := by
  unfold State.combine; grind [canon_combTarget, canon_setSlot, canon_deliver, canon_jobWrite, canon_event]
theorem canon_put (s : State) (job : Nat) (va : Nat) (n : Nat) (r : Nat) (by_ : Option Nat) (ctxid : BitVec 64) (hs0 : Canon s.mem.hbm) : Canon (State.put s job va n r by_ ctxid).1.mem.hbm := by
  unfold State.put; grind [canon_combine, canon_jobSettled, canon_setSlot, canon_jobRead]
theorem canon_cbput (s : State) (d : UnitCmd) (hs0 : Canon s.mem.hbm) : Canon (State.cbput s d).1.mem.hbm := by
  unfold State.cbput; grind [canon_answer, canon_refuse, canon_put]

end Sys2Proof.Machine
end

