-- ==== Sys2Proof/Laws/Canon3.lean ====
section
/-! SUPPORT. Every operation keeps the canonical form of the memory, part 3 of 4: one lemma for each definition that answers a
state, in the order in which the definitions build on each other. -/
set_option Elab.async false
namespace Sys2Proof.Machine

theorem canon_cbstat (s : State) (d : UnitCmd) (hs0 : Canon s.mem.hbm) : Canon (State.cbstat s d).mem.hbm := by
  unfold State.cbstat; grind [canon_answer, canon_refuse]
theorem canon_combTry (s : State) (d : UnitCmd) (hs0 : Canon s.mem.hbm) : Canon (State.combTry s d).1.mem.hbm := by
  unfold State.combTry; grind [canon_cbput, canon_cbstat, canon_cbset]
theorem canon_combGo (s : State) (x1 : Nat) (hs0 : Canon s.mem.hbm) : Canon (State.combGo s x1).mem.hbm := by
  induction x1 generalizing s with
  | zero => exact hs0
  | succ n ih => unfold State.combGo; grind [canon_combTry, State.onComb]
theorem canon_combCmd (s : State) (d : UnitCmd) (hs0 : Canon s.mem.hbm) : Canon (State.combCmd s d).mem.hbm := by
  unfold State.combCmd; grind [State.onComb, canon_combGo]
theorem canon_execCbset (f : CF) (s : State) (hs0 : Canon s.mem.hbm) : OutCanon (execCbset f s) := by
  unfold execCbset; grind [canon_combCmd, canon_commitCop, canon_copIssue, OutCanon.next]
theorem canon_execCbput (f : CF) (s : State) (hs0 : Canon s.mem.hbm) : OutCanon (execCbput f s) := by
  unfold execCbput; grind [canon_combCmd, canon_commitCop, canon_copIssue, OutCanon.next]
theorem canon_execCbstat (f : CF) (s : State) (hs0 : Canon s.mem.hbm) : OutCanon (execCbstat f s) := by
  unfold execCbstat; grind [canon_combCmd, canon_commitCop, canon_copIssue, OutCanon.next]
theorem canon_remotePutOne (s : State) (job : Nat) (l : List Byte) (hs0 : Canon s.mem.hbm) : Canon (State.remotePutOne s job l).1.mem.hbm := by
  unfold State.remotePutOne; grind [canon_put, canon_event]
theorem canon_execRemotePut (s : State) (hs0 : Canon s.mem.hbm) : OutCanon (execRemotePut s) := by
  unfold execRemotePut; grind [State.onVat, State.onComb, canon_combGo, canon_remotePutOne, OutCanon.next]
theorem canon_setVat (s : State) (v : Nat) (x : Vat) (hs0 : Canon s.mem.hbm) : Canon (State.setVat s v x).mem.hbm := by
  exact hs0
theorem canon_poolFell (s : State) (fell : Bool) (hs0 : Canon s.mem.hbm) : Canon (State.poolFell s fell).mem.hbm := by
  unfold State.poolFell; grind [State.onVat]
theorem canon_spillTo (s : State) (x1 : Nat) (hs0 : Canon s.mem.hbm) : Canon (State.spillTo s x1).1.mem.hbm := by
  induction x1 generalizing s with
  | zero => exact hs0
  | succ n ih =>
    have h1 := ih s hs0
    unfold State.spillTo
    extract_lets r x e t
    split
    · exact canon_eccBlock t _ _ _ h1
    · exact h1
theorem canon_spillRead (s : State) (x1 : List (BitVec 256)) (x2 : List Nat) (hs0 : Canon s.mem.hbm) : Canon (State.spillRead s x1 x2).1.mem.hbm := by
  induction x1 generalizing s x2 with
  | nil => exact hs0
  | cons x l ih =>
    have h1 := canon_eccBlock s 7 0 (entryBlock (x2.headD 0)) hs0
    unfold State.spillRead
    refine ih (if (s.eccBlock 7 0 (entryBlock (x2.headD 0))).2 = true then
      { (s.eccBlock 7 0 (entryBlock (x2.headD 0))).1 with free := (s.eccBlock 7 0 (entryBlock (x2.headD 0))).1.free + 1 }
      else (s.eccBlock 7 0 (entryBlock (x2.headD 0))).1) x2.tail ?_
    split
    · exact h1
    · exact h1
theorem canon_vatAccept (s : State) (v : Nat) (r : BitVec 256) (remote : Bool) (hs0 : Canon s.mem.hbm) : ∀ t0, State.vatAccept s v r remote = some t0 → Canon t0.mem.hbm := by
  unfold State.vatAccept; grind [canon_poolFell, canon_setVat, canon_spillTo]
theorem canon_vatShut (s : State) (v : Nat) (hs0 : Canon s.mem.hbm) : Canon (State.vatShut s v).mem.hbm := by
  unfold State.vatShut; grind [canon_answer, canon_setVat, Canon.fold, Canon.fold2]
theorem canon_vatDrained (s : State) (v : Nat) (hs0 : Canon s.mem.hbm) : Canon (State.vatDrained s v).mem.hbm := by
  unfold State.vatDrained; grind [canon_answer, canon_vatShut]
theorem canon_vatHold (s : State) (v : Nat) (d : UnitCmd) (arr : Nat) (hs0 : Canon s.mem.hbm) : Canon (State.vatHold s v d arr).mem.hbm := by
  unfold State.vatHold; grind [canon_setVat]
theorem canon_vtcfg (s : State) (d : UnitCmd) (arr : Nat) (hs0 : Canon s.mem.hbm) : Canon (State.vtcfg s d arr).mem.hbm := by
  unfold State.vtcfg; grind [canon_answer, canon_setVat, canon_refuse, canon_vatHold]
theorem canon_vtenq (s : State) (d : UnitCmd) (hs0 : Canon s.mem.hbm) : Canon (State.vtenq s d).mem.hbm := by
  unfold State.vtenq; grind [canon_answer, canon_refuse, canon_vatAccept]
theorem canon_vtfire (s : State) (d : UnitCmd) (arr : Nat) (hs0 : Canon s.mem.hbm) : Canon (State.vtfire s d arr).mem.hbm := by
  unfold State.vtfire; grind [canon_answer, canon_setVat, canon_refuse, canon_vatHold]
theorem canon_vtstat (s : State) (d : UnitCmd) (hs0 : Canon s.mem.hbm) : Canon (State.vtstat s d).mem.hbm := by
  unfold State.vtstat; grind [canon_answer, canon_refuse]
theorem canon_vtclose (s : State) (d : UnitCmd) (arr : Nat) (drain : Bool) (hs0 : Canon s.mem.hbm) : Canon (State.vtclose s d arr drain).mem.hbm := by
  unfold State.vtclose; grind [canon_answer, canon_setVat, canon_vatShut, canon_refuse, canon_vatHold, canon_vatDrained]
theorem canon_vatApply (s : State) (d : UnitCmd) (arr : Nat) (hs0 : Canon s.mem.hbm) : Canon (State.vatApply s d arr).mem.hbm := by
  unfold State.vatApply; grind [canon_vtstat, canon_vtcfg, canon_vtclose, canon_vtenq, canon_vtfire]
theorem canon_vatCmd (s : State) (d : UnitCmd) (hs0 : Canon s.mem.hbm) : Canon (State.vatCmd s d).mem.hbm := by
  unfold State.vatCmd; grind [State.onVat, canon_vatApply]
theorem canon_vatReopen (s : State) (v : Nat) (hs0 : Canon s.mem.hbm) : Canon (State.vatReopen s v).mem.hbm := by
  unfold State.vatReopen; grind [canon_answer, canon_setVat, canon_vatApply, canon_vatDrained, Canon.fold, Canon.fold2]
theorem canon_execVtcfg (f : CF) (s : State) (hs0 : Canon s.mem.hbm) : OutCanon (execVtcfg f s) := by
  unfold execVtcfg; grind [canon_commitCop, canon_copIssue, canon_vatCmd, OutCanon.next]
theorem canon_execVtenq (f : CF) (s : State) (hs0 : Canon s.mem.hbm) : OutCanon (execVtenq f s) := by
  unfold execVtenq; grind [State.onCore, State.setCore, canon_sram, canon_commitCop, canon_copIssue, canon_vatCmd, OutCanon.next]
theorem canon_execVtfire (f : CF) (s : State) (hs0 : Canon s.mem.hbm) : OutCanon (execVtfire f s) := by
  unfold execVtfire; grind [canon_commitCop, canon_copIssue, canon_vatCmd, OutCanon.next]
theorem canon_execVtstat (f : CF) (s : State) (hs0 : Canon s.mem.hbm) : OutCanon (execVtstat f s) := by
  unfold execVtstat; grind [canon_commitCop, canon_copIssue, canon_vatCmd, OutCanon.next]
theorem canon_execVtclose (f : CF) (s : State) (hs0 : Canon s.mem.hbm) : OutCanon (execVtclose f s) := by
  unfold execVtclose; grind [canon_commitCop, canon_copIssue, canon_vatCmd, OutCanon.next]
theorem canon_Mem_fireList (m : Mem) (v : Nat) (l : List (BitVec 256)) (hs0 : Canon m.hbm) : Canon (Mem.fireList m v l).hbm := by
  unfold Mem.fireList; grind [canon_Mem_zero, canon_Mem_wr, Canon.fold, Canon.fold2]
theorem canon_fireVat (s : State) (v : Nat) (hs0 : Canon s.mem.hbm) : Canon (State.fireVat s v).mem.hbm := by
  unfold State.fireVat; grind [State.onMem, State.onVat, canon_Mem_fireList, canon_onJob, canon_answer, canon_spillRead, canon_setVat, canon_takeSeq]
theorem canon_execFiringDecision (s : State) (hs0 : Canon s.mem.hbm) : OutCanon (execFiringDecision s) := by
  unfold execFiringDecision; grind [canon_fireVat, OutCanon.next]
theorem canon_spillFrom (s : State) (v : Nat) (n : Nat) (hs0 : Canon s.mem.hbm) : Canon (State.spillFrom s v n).mem.hbm := by
  unfold State.spillFrom; grind [canon_setVat, canon_spillTo]
theorem canon_orderStep (s : State) (o : Nat × Nat × Nat) (rest : List (Nat × Nat × Nat)) (hs0 : Canon s.mem.hbm) : Canon (State.orderStep s o rest).mem.hbm := by
  unfold State.orderStep; grind [State.onVat, canon_spillFrom]
theorem canon_execVatSpillStep (s : State) (hs0 : Canon s.mem.hbm) : OutCanon (execVatSpillStep s) := by
  unfold execVatSpillStep; grind [State.onVat, canon_spillFrom, canon_orderStep, OutCanon.next]
theorem canon_execVatRefill (v : Nat) (s : State) (hs0 : Canon s.mem.hbm) : OutCanon (execVatRefill v s) := by
  unfold execVatRefill; grind [canon_spillRead, canon_setVat, OutCanon.next]
theorem canon_execSpillRequest (job : Nat) (s : State) (hs0 : Canon s.mem.hbm) : OutCanon (execSpillRequest job s) := by
  unfold execSpillRequest; grind [State.onVat, canon_askWith, OutCanon.next]
theorem canon_spillReply (s : State) (ev : Nat) (pairs : List (Nat × Nat)) (hs0 : Canon s.mem.hbm) : Canon (State.spillReply s ev pairs).mem.hbm := by
  unfold State.spillReply; grind [State.onVat]
theorem canon_remoteRecord (s : State) (v : Nat) (job : Nat) (r : BitVec 256) (hs0 : Canon s.mem.hbm) : Canon (State.remoteRecord s v job r).mem.hbm := by
  unfold State.remoteRecord; grind [canon_vatAccept, canon_postStamp, canon_event]
theorem canon_execRemoteEnqueue (s : State) (hs0 : Canon s.mem.hbm) : OutCanon (execRemoteEnqueue s) := by
  unfold execRemoteEnqueue; grind [State.onVat, canon_remoteRecord, OutCanon.next, Canon.fold, Canon.fold2]
theorem canon_onNode (s : State) (job : Nat) (n : Nat) (f : Node → Node) (hs0 : Canon s.mem.hbm) : Canon (State.onNode s job n f).mem.hbm := by
  unfold State.onNode; grind [canon_onJob]
theorem canon_writeBack (s : State) (job : Nat) (n : Nat) (hs0 : Canon s.mem.hbm) : Canon (State.writeBack s job n).mem.hbm := by
  unfold State.writeBack; grind [canon_schedPut]
theorem canon_makeReady (s : State) (job : Nat) (n : Nat) (hs0 : Canon s.mem.hbm) : Canon (State.makeReady s job n).mem.hbm := by
  unfold State.makeReady; grind [canon_onJob, canon_takeSeq]
theorem canon_decrAll (s : State) (job : Nat) (x2 : Nat) (x3 : List (Nat × Bool)) (hs0 : Canon s.mem.hbm) : Canon (State.decrAll s job x2 x3).mem.hbm := by
  induction x2 generalizing s x3 with
  | zero => exact hs0
  | succ f ih =>
    cases x3 with
    | nil => exact hs0
    | cons a rest => unfold State.decrAll; grind [canon_setJob, canon_makeReady, canon_onNode, canon_writeBack]
theorem canon_decr (s : State) (job : Nat) (l : List (Nat × Bool)) (hs0 : Canon s.mem.hbm) : Canon (State.decr s job l).mem.hbm := by
  unfold State.decr; grind [canon_decrAll]
theorem canon_recState (s : State) (job : Nat) (place : Nat) (state : Nat) (hs0 : Canon s.mem.hbm) : Canon (State.recState s job place state).mem.hbm := by
  unfold State.recState; grind [canon_schedPut]
theorem canon_handOver (s : State) (c : Nat) (x : Item) (hs0 : Canon s.mem.hbm) : Canon (State.handOver s c x).mem.hbm := by
  unfold State.handOver; grind [State.onCore, State.setCore, canon_recState, canon_setJob]
theorem canon_loopAgain (s : State) (j : Job) (n : Nat) (hs0 : Canon s.mem.hbm) : Canon (State.loopAgain s j n).mem.hbm := by
  unfold State.loopAgain; grind [canon_decr, canon_setJob, canon_onNode, canon_postStamp, Canon.fold, Canon.fold2]
theorem canon_finishNode (s : State) (job : Nat) (n : Nat) (hs0 : Canon s.mem.hbm) : Canon (State.finishNode s job n).mem.hbm := by
  unfold State.finishNode; grind [canon_decr, canon_onNode, canon_writeBack, canon_loopAgain]
theorem canon_execNodeRetire (job : Nat) (n : Nat) (s : State) (hs0 : Canon s.mem.hbm) : OutCanon (execNodeRetire job n s) := by
  unfold execNodeRetire; grind [canon_finishNode, OutCanon.next]
theorem canon_execBranchNodeDecide (job : Nat) (n : Nat) (s : State) (hs0 : Canon s.mem.hbm) : OutCanon (execBranchNodeDecide job n s) := by
  unfold execBranchNodeDecide; grind [canon_onNode, canon_finishNode, canon_jobRead, canon_postStamp, OutCanon.next]
theorem canon_execHostSignalNode (job : Nat) (n : Nat) (s : State) (hs0 : Canon s.mem.hbm) : OutCanon (execHostSignalNode job n s) := by
  unfold execHostSignalNode; grind [canon_onNode, canon_askWith, OutCanon.next]
theorem canon_signalReply (s : State) (job : Nat) (n : Nat) (ev : Nat) (retire : Bool) (hs0 : Canon s.mem.hbm) : Canon (State.signalReply s job n ev retire).mem.hbm := by
  unfold State.signalReply; grind [canon_onNode, canon_postStamp]
theorem canon_cancelEnds (s : State) (job : Nat) (hs0 : Canon s.mem.hbm) : Canon (State.cancelEnds s job).mem.hbm := by
  unfold State.cancelEnds; grind [canon_onNode, canon_writeBack, Canon.fold, Canon.fold2]
theorem canon_recDone (s : State) (job : Nat) (num : Nat) (hs0 : Canon s.mem.hbm) : Canon (State.recDone s job num).mem.hbm := by
  unfold State.recDone; grind [canon_decr, canon_recState, canon_setJob]
theorem canon_retireDone (s : State) (job : Nat) (hs0 : Canon s.mem.hbm) : Canon (State.retireDone s job).mem.hbm := by
  unfold State.retireDone; grind [canon_finishNode, Canon.fold, Canon.fold2]
theorem canon_taskEnds (s : State) (c : Nat) (t : Task) (hs0 : Canon s.mem.hbm) : Canon (State.taskEnds s c t).mem.hbm := by
  unfold State.taskEnds; grind [canon_onJob, canon_recDone, canon_cancelEnds, canon_retireDone, canon_vatReopen]
theorem canon_tellStamp (s : State) (job : Nat) (x : Stamp) (hs0 : Canon s.mem.hbm) : Canon (State.tellStamp s job x).mem.hbm := by
  unfold State.tellStamp; grind [canon_onJob, canon_event]
theorem canon_killWork (s : State) (c : Nat) (job : Nat) (x : Stamp) (t : Option Task) (hs0 : Canon s.mem.hbm) : Canon (State.killWork s c job x t).mem.hbm := by
  unfold State.killWork; grind [canon_cancelEnds, canon_recState, canon_setJob, canon_tellStamp, canon_writeBack, canon_postStamp, Canon.fold, Canon.fold2]
theorem canon_endWork (s : State) (c : Nat) (job : Nat) (x : Stamp) (t : Option Task) (other : Option Nat) (hs0 : Canon s.mem.hbm) : Canon (State.endWork s c job x t other).mem.hbm := by
  unfold State.endWork; grind [canon_onJob, canon_vatReopen, canon_postStamp]
theorem canon_cancelAt (s : State) (job : Nat) (n : Nat) (x : Stamp) (origin : Bool) (hs0 : Canon s.mem.hbm) : Canon (State.cancelAt s job n x origin).1.mem.hbm := by
  unfold State.cancelAt; grind [canon_unask, canon_recState, canon_setJob, canon_onNode, canon_vatReopen, canon_writeBack, Canon.fold, Canon.fold2]
theorem canon_spread (s : State) (job : Nat) (x : Stamp) (x3 : Nat) (x4 : List Nat) (x5 : List Nat) (hs0 : Canon s.mem.hbm) : Canon (State.spread s job x x3 x4 x5).mem.hbm := by
  induction x3 generalizing s x4 x5 with
  | zero => exact hs0
  | succ f ih =>
    cases x5 with
    | nil => exact hs0
    | cons a rest => unfold State.spread; grind [canon_cancelAt]
theorem canon_stampJob (s : State) (j : Job) (hs0 : Canon s.mem.hbm) : Canon (State.stampJob s j).mem.hbm := by
  unfold State.stampJob; grind [canon_onJob, canon_spread, canon_cancelAt, canon_setJob, canon_askWith, canon_event]
theorem canon_stampAcked (s : State) (job : Nat) (ev : Nat) (hs0 : Canon s.mem.hbm) : Canon (State.stampAcked s job ev).mem.hbm := by
  unfold State.stampAcked; grind [canon_onJob]
theorem canon_execFaultStampSpread (s : State) (hs0 : Canon s.mem.hbm) : OutCanon (execFaultStampSpread s) := by
  unfold execFaultStampSpread; grind [canon_stampJob, OutCanon.next]
theorem canon_execJobComplete (s : State) (hs0 : Canon s.mem.hbm) : OutCanon (execJobComplete s) := by
  unfold execJobComplete; grind [canon_onJob, canon_writeBack, canon_event, OutCanon.next, Canon.fold, Canon.fold2]
theorem canon_execPreemptionRequest (c : Nat) (slot : Nat) (s : State) (hs0 : Canon s.mem.hbm) : OutCanon (execPreemptionRequest c slot s) := by
  unfold execPreemptionRequest; grind [State.onCore, State.setCore, canon_setJob, OutCanon.next]
theorem canon_endRequest (s : State) (c : Nat) (hs0 : Canon s.mem.hbm) : Canon (State.endRequest s c).mem.hbm := by
  unfold State.endRequest; grind [State.onCore, State.setCore, canon_onJob]
theorem canon_enqueueTask (s : State) (j : Job) (n : Nat) (cls : Nat) (args : List Word) (b : BitVec 64) (hs0 : Canon s.mem.hbm) : Canon (State.enqueueTask s j n cls args b).1.mem.hbm := by
  unfold State.enqueueTask; grind [canon_schedPut, canon_takeSeq, canon_setJob]
theorem canon_execTaskq (f : SF) (s : State) (hs0 : Canon s.mem.hbm) : OutCanon (execTaskq f s) := by
  unfold execTaskq; grind [State.onCore, State.setCore, canon_enqueueTask, canon_sram, canon_commitState, OutCanon.next]
theorem canon_execTclaim (f : SF) (s : State) (hs0 : Canon s.mem.hbm) : OutCanon (execTclaim f s) := by
  unfold execTclaim; grind [State.onCore, State.setCore, canon_cancelEnds, canon_setJob, canon_commitState, OutCanon.next]
theorem canon_execJmpr (f : SF) (s : State) (hs0 : Canon s.mem.hbm) : OutCanon (execJmpr f s) := by
  unfold execJmpr; grind [canon_commitCore, OutCanon.next]
theorem canon_callTo (t : Nat) (s : State) (hs0 : Canon s.mem.hbm) : OutCanon (callTo t s) := by
  unfold callTo; grind [State.onCore, State.setCore, canon_rasPush, canon_commitState, OutCanon.next]
theorem canon_execCall (f : SF) (s : State) (hs0 : Canon s.mem.hbm) : OutCanon (execCall f s) := by
  unfold execCall; grind [canon_callTo, OutCanon.next]
theorem canon_execCallr (f : SF) (s : State) (hs0 : Canon s.mem.hbm) : OutCanon (execCallr f s) := by
  unfold execCallr; grind [canon_commitCore, canon_callTo, OutCanon.next]
theorem canon_execRet (x0 : SF) (s : State) (hs0 : Canon s.mem.hbm) : OutCanon (execRet x0 s) := by
  unfold execRet; grind [canon_commitCore, OutCanon.next]
theorem canon_execLoop (f : SF) (s : State) (hs0 : Canon s.mem.hbm) : OutCanon (execLoop f s) := by
  unfold execLoop; grind [canon_commitCore, OutCanon.next]
theorem canon_execLoopx (f : SF) (s : State) (hs0 : Canon s.mem.hbm) : OutCanon (execLoopx f s) := by
  unfold execLoopx; grind [canon_commitCore, OutCanon.next]
theorem canon_execTrap (f : SF) (s : State) (hs0 : Canon s.mem.hbm) : OutCanon (execTrap f s) := by
  unfold execTrap; grind [canon_commitCore, OutCanon.next]
theorem canon_execYield (x0 : SF) (s : State) (hs0 : Canon s.mem.hbm) : OutCanon (execYield x0 s) := by
  unfold execYield; grind [canon_commitCore, OutCanon.next]
theorem canon_execTend (x0 : SF) (s : State) (hs0 : Canon s.mem.hbm) : OutCanon (execTend x0 s) := by
  unfold execTend; grind [canon_commitCore, OutCanon.next]
theorem canon_execWaittask (x0 : SF) (s : State) (hs0 : Canon s.mem.hbm) : OutCanon (execWaittask x0 s) := by
  unfold execWaittask; grind [canon_commitCore, OutCanon.next]
theorem canon_execGets (f : SF) (s : State) (hs0 : Canon s.mem.hbm) : OutCanon (execGets f s) := by
  unfold execGets; grind [canon_scalarOp, OutCanon.next]
theorem canon_execSets (f : SF) (s : State) (hs0 : Canon s.mem.hbm) : OutCanon (execSets f s) := by
  unfold execSets; grind [canon_commitCore, OutCanon.next]
theorem canon_execBlend (f : SF) (s : State) (hs0 : Canon s.mem.hbm) : OutCanon (execBlend f s) := by
  unfold execBlend; grind [canon_commitCore, OutCanon.next]
theorem canon_execTmirror (f : SF) (s : State) (hs0 : Canon s.mem.hbm) : OutCanon (execTmirror f s) := by
  unfold execTmirror; grind [canon_commitCore, OutCanon.next]
theorem canon_execPortcfg (f : SF) (s : State) (hs0 : Canon s.mem.hbm) : OutCanon (execPortcfg f s) := by
  unfold execPortcfg; grind [canon_commitCore, OutCanon.next]
theorem canon_execRingcfg (f : SF) (s : State) (hs0 : Canon s.mem.hbm) : OutCanon (execRingcfg f s) := by
  unfold execRingcfg; grind [canon_commitCore, OutCanon.next]
theorem canon_operandEcc (s : State) (f : VF) (ws : Nat × Nat × Nat) (hs0 : Canon s.mem.hbm) : Canon (State.operandEcc s f ws).1.mem.hbm := by
  unfold State.operandEcc; grind [canon_sramAll]
theorem canon_vecOp (f : VF) (l : Nat) (w : Nat) (ws : Nat × Nat × Nat) (g : Ctx → UnitCtx → Srcs → Row × Flags) (s : State) (hs0 : Canon s.mem.hbm) : OutCanon (vecOp f l w ws g s) := by
  unfold vecOp; grind [canon_commitCore, canon_operandEcc, OutCanon.next]
theorem canon_laneOp (f : VF) (l : Nat) (n : Nat) (g : Ctx → UnitCtx → Nat → Nat → Nat → Nat → Nat × Flags) (s : State) (hs0 : Canon s.mem.hbm) : OutCanon (laneOp f l n g s) := by
  unfold laneOp; grind [canon_vecOp, OutCanon.next]
theorem canon_arith (f : VF) (l : Nat) (n : Nat) (fl : Rm →   FVal →     FVal → FVal → FVal × Flags) (int : Int → Int → Int → Int) (s : State) (hs0 : Canon s.mem.hbm) : OutCanon (arith f l n fl int s) := by
  unfold arith; grind [canon_laneOp, OutCanon.next]
theorem canon_execVadd (f : VF) (s : State) (hs0 : Canon s.mem.hbm) : OutCanon (execVadd f s) := by
  unfold execVadd; grind [canon_arith, OutCanon.next]
theorem canon_execVsub (f : VF) (s : State) (hs0 : Canon s.mem.hbm) : OutCanon (execVsub f s) := by
  unfold execVsub; grind [canon_arith, OutCanon.next]
theorem canon_execVmul (f : VF) (s : State) (hs0 : Canon s.mem.hbm) : OutCanon (execVmul f s) := by
  unfold execVmul; grind [canon_arith, OutCanon.next]
theorem canon_execVfma (f : VF) (s : State) (hs0 : Canon s.mem.hbm) : OutCanon (execVfma f s) := by
  unfold execVfma; grind [canon_arith, OutCanon.next]
theorem canon_execVfms (f : VF) (s : State) (hs0 : Canon s.mem.hbm) : OutCanon (execVfms f s) := by
  unfold execVfms; grind [canon_arith, OutCanon.next]
theorem canon_execVmax (f : VF) (s : State) (hs0 : Canon s.mem.hbm) : OutCanon (execVmax f s) := by
  unfold execVmax; grind [canon_laneOp, OutCanon.next]
theorem canon_execVmin (f : VF) (s : State) (hs0 : Canon s.mem.hbm) : OutCanon (execVmin f s) := by
  unfold execVmin; grind [canon_laneOp, OutCanon.next]
theorem canon_execVabs (f : VF) (s : State) (hs0 : Canon s.mem.hbm) : OutCanon (execVabs f s) := by
  unfold execVabs; grind [canon_laneOp, OutCanon.next]
theorem canon_execVneg (f : VF) (s : State) (hs0 : Canon s.mem.hbm) : OutCanon (execVneg f s) := by
  unfold execVneg; grind [canon_laneOp, OutCanon.next]
theorem canon_approxOp (fn : ApproxFn) (f : VF) (s : State) (hs0 : Canon s.mem.hbm) : OutCanon (approxOp fn f s) := by
  unfold approxOp; grind [canon_laneOp, OutCanon.next]
theorem canon_execVrcp (f : VF) (s : State) (hs0 : Canon s.mem.hbm) : OutCanon (execVrcp f s) := by
  unfold execVrcp; grind [canon_approxOp, OutCanon.next]
theorem canon_execVrsq (f : VF) (s : State) (hs0 : Canon s.mem.hbm) : OutCanon (execVrsq f s) := by
  unfold execVrsq; grind [canon_approxOp, OutCanon.next]
theorem canon_execVexp2 (f : VF) (s : State) (hs0 : Canon s.mem.hbm) : OutCanon (execVexp2 f s) := by
  unfold execVexp2; grind [canon_approxOp, OutCanon.next]
theorem canon_execVlog2 (f : VF) (s : State) (hs0 : Canon s.mem.hbm) : OutCanon (execVlog2 f s) := by
  unfold execVlog2; grind [canon_approxOp, OutCanon.next]
theorem canon_bitOp (f : VF) (g : Row → Row → Row) (s : State) (hs0 : Canon s.mem.hbm) : OutCanon (bitOp f g s) := by
  unfold bitOp; grind [canon_vecOp, OutCanon.next]
theorem canon_execVand (f : VF) (s : State) (hs0 : Canon s.mem.hbm) : OutCanon (execVand f s) := by
  unfold execVand; grind [canon_bitOp, OutCanon.next]
theorem canon_execVor (f : VF) (s : State) (hs0 : Canon s.mem.hbm) : OutCanon (execVor f s) := by
  unfold execVor; grind [canon_bitOp, OutCanon.next]
theorem canon_execVxor (f : VF) (s : State) (hs0 : Canon s.mem.hbm) : OutCanon (execVxor f s) := by
  unfold execVxor; grind [canon_bitOp, OutCanon.next]
theorem canon_execVshl (f : VF) (s : State) (hs0 : Canon s.mem.hbm) : OutCanon (execVshl f s) := by
  unfold execVshl; grind [canon_laneOp, OutCanon.next]
theorem canon_execVshr (f : VF) (s : State) (hs0 : Canon s.mem.hbm) : OutCanon (execVshr f s) := by
  unfold execVshr; grind [canon_laneOp, OutCanon.next]
theorem canon_execVsar (f : VF) (s : State) (hs0 : Canon s.mem.hbm) : OutCanon (execVsar f s) := by
  unfold execVsar; grind [canon_laneOp, OutCanon.next]
theorem canon_execVcmp (f : VF) (s : State) (hs0 : Canon s.mem.hbm) : OutCanon (execVcmp f s) := by
  unfold execVcmp; grind [canon_laneOp, OutCanon.next]
theorem canon_execVsel (f : VF) (s : State) (hs0 : Canon s.mem.hbm) : OutCanon (execVsel f s) := by
  unfold execVsel; grind [canon_laneOp, OutCanon.next]
theorem canon_execVtest (f : VF) (s : State) (hs0 : Canon s.mem.hbm) : OutCanon (execVtest f s) := by
  unfold execVtest; grind [canon_commitCore, canon_operandEcc, OutCanon.next]
theorem canon_execVcvt (f : VF) (s : State) (hs0 : Canon s.mem.hbm) : OutCanon (execVcvt f s) := by
  unfold execVcvt; grind [canon_vecOp, OutCanon.next]
theorem canon_execVqmx (f : VF) (s : State) (hs0 : Canon s.mem.hbm) : OutCanon (execVqmx f s) := by
  unfold execVqmx; grind [canon_vecOp, OutCanon.next]
theorem canon_execVdqmx (f : VF) (s : State) (hs0 : Canon s.mem.hbm) : OutCanon (execVdqmx f s) := by
  unfold execVdqmx; grind [canon_vecOp, OutCanon.next]
theorem canon_execVpack (f : VF) (s : State) (hs0 : Canon s.mem.hbm) : OutCanon (execVpack f s) := by
  unfold execVpack; grind [canon_vecOp, OutCanon.next]
theorem canon_execVunpack (f : VF) (s : State) (hs0 : Canon s.mem.hbm) : OutCanon (execVunpack f s) := by
  unfold execVunpack; grind [canon_vecOp, OutCanon.next]
theorem canon_reduceOp (f : VF) (g : Ctx → UnitCtx → List Nat → Nat × Flags) (s : State) (hs0 : Canon s.mem.hbm) : OutCanon (reduceOp f g s) := by
  unfold reduceOp; grind [canon_vecOp, OutCanon.next]
theorem canon_execVrsum (f : VF) (s : State) (hs0 : Canon s.mem.hbm) : OutCanon (execVrsum f s) := by
  unfold execVrsum; grind [canon_reduceOp, OutCanon.next]
theorem canon_execVrmax (f : VF) (s : State) (hs0 : Canon s.mem.hbm) : OutCanon (execVrmax f s) := by
  unfold execVrmax; grind [canon_reduceOp, OutCanon.next]
theorem canon_execVrmin (f : VF) (s : State) (hs0 : Canon s.mem.hbm) : OutCanon (execVrmin f s) := by
  unfold execVrmin; grind [canon_reduceOp, OutCanon.next]
theorem canon_execVargmax (f : VF) (s : State) (hs0 : Canon s.mem.hbm) : OutCanon (execVargmax f s) := by
  unfold execVargmax; grind [canon_vecOp, OutCanon.next]
theorem canon_execVscan (f : VF) (s : State) (hs0 : Canon s.mem.hbm) : OutCanon (execVscan f s) := by
  unfold execVscan; grind [canon_vecOp, OutCanon.next]
theorem canon_moveOp (f : VF) (l : Nat) (two : Bool) (g : List Nat → List Nat → List Nat) (s : State) (hs0 : Canon s.mem.hbm) : OutCanon (moveOp f l two g s) := by
  unfold moveOp; grind [canon_vecOp, OutCanon.next]
theorem canon_execVbcast (f : VF) (s : State) (hs0 : Canon s.mem.hbm) : OutCanon (execVbcast f s) := by
  unfold execVbcast; grind [canon_moveOp, OutCanon.next]
theorem canon_execVshuf (f : VF) (s : State) (hs0 : Canon s.mem.hbm) : OutCanon (execVshuf f s) := by
  unfold execVshuf; grind [canon_moveOp, OutCanon.next]
theorem canon_execVrot (f : VF) (s : State) (hs0 : Canon s.mem.hbm) : OutCanon (execVrot f s) := by
  unfold execVrot; grind [canon_moveOp, OutCanon.next]
theorem canon_execVcompress (f : VF) (s : State) (hs0 : Canon s.mem.hbm) : OutCanon (execVcompress f s) := by
  unfold execVcompress; grind [canon_moveOp, OutCanon.next]
theorem canon_execVmov (f : VF) (s : State) (hs0 : Canon s.mem.hbm) : OutCanon (execVmov f s) := by
  unfold execVmov; grind [canon_vecOp, OutCanon.next]
theorem canon_execVrand (f : VF) (s : State) (hs0 : Canon s.mem.hbm) : OutCanon (execVrand f s) := by
  unfold execVrand; grind [canon_vecOp, OutCanon.next]
theorem canon_issueCopy (s : State) (mainOnly : Bool) (noHouse : Bool) (hs0 : Canon s.mem.hbm) : OutCanon (issueCopy s mainOnly noHouse) := by
  unfold issueCopy; grind [canon_commitCore, OutCanon.next]
theorem canon_execCpy (x0 : DF) (s : State) (hs0 : Canon s.mem.hbm) : OutCanon (execCpy x0 s) := by
  unfold execCpy; grind [canon_issueCopy, OutCanon.next]
theorem canon_execCpyt (x0 : DF) (s : State) (hs0 : Canon s.mem.hbm) : OutCanon (execCpyt x0 s) := by
  unfold execCpyt; grind [canon_issueCopy, OutCanon.next]
theorem canon_execCgath (x0 : DF) (s : State) (hs0 : Canon s.mem.hbm) : OutCanon (execCgath x0 s) := by
  unfold execCgath; grind [canon_issueCopy, OutCanon.next]
theorem canon_execCscat (x0 : DF) (s : State) (hs0 : Canon s.mem.hbm) : OutCanon (execCscat x0 s) := by
  unfold execCscat; grind [canon_issueCopy, OutCanon.next]
theorem canon_execCbind (f : DF) (s : State) (hs0 : Canon s.mem.hbm) : OutCanon (execCbind f s) := by
  unfold execCbind; grind [canon_commitCore, OutCanon.next]
theorem canon_execCring (x0 : DF) (s : State) (hs0 : Canon s.mem.hbm) : OutCanon (execCring x0 s) := by
  unfold execCring; grind [canon_issueCopy, OutCanon.next]
theorem canon_execCbcast (x0 : DF) (s : State) (hs0 : Canon s.mem.hbm) : OutCanon (execCbcast x0 s) := by
  unfold execCbcast; grind [canon_issueCopy, OutCanon.next]
theorem canon_execCfill (x0 : DF) (s : State) (hs0 : Canon s.mem.hbm) : OutCanon (execCfill x0 s) := by
  unfold execCfill; grind [canon_issueCopy, OutCanon.next]
theorem canon_execCarm (x0 : DF) (s : State) (hs0 : Canon s.mem.hbm) : OutCanon (execCarm x0 s) := by
  unfold execCarm; grind [canon_issueCopy, OutCanon.next]
theorem canon_execCwait (x0 : DF) (s : State) (hs0 : Canon s.mem.hbm) : OutCanon (execCwait x0 s) := by
  unfold execCwait; grind [canon_issueCopy, OutCanon.next]
theorem canon_readSpan (s : State) (reader : Nat) (ctxid : BitVec 64) (key : Nat) (n : Nat) (x5 : Nat) (hs0 : Canon s.mem.hbm) : Canon (State.readSpan s reader ctxid key n x5).1.mem.hbm := by
  induction x5 generalizing s key n with
  | zero => exact hs0
  | succ f ih => unfold State.readSpan; grind [canon_readHbm]
theorem canon_writeSpan (s : State) (job : Nat) (ctxid : BitVec 64) (key : Nat) (l : List Byte) (x5 : Nat) (hs0 : Canon s.mem.hbm) : Canon (State.writeSpan s job ctxid key l x5).1.mem.hbm := by
  induction x5 generalizing s key l with
  | zero => exact hs0
  | succ f ih => unfold State.writeSpan; grind [canon_writeHbm]
theorem canon_epRead (s : State) (c : Nat) (d : Cmd) (w : Nat) (h : Handle) (reader : Nat) (addr : Nat) (n : Nat) (hs0 : Canon s.mem.hbm) : Canon (State.epRead s c d w h reader addr n).1.mem.hbm := by
  unfold State.epRead; grind [State.onCtx, State.onCore, State.setCore, canon_readSpan, canon_sram]
theorem canon_epWrite (s : State) (c : Nat) (w : Nat) (h : Handle) (banks : BitVec 8) (addr : Nat) (l : List Byte) (hs0 : Canon s.mem.hbm) : Canon (State.epWrite s c w h banks addr l).1.mem.hbm := by
  unfold State.epWrite; grind [State.onCtx, State.onCore, State.setCore, canon_writeSpan, canon_engStore]
theorem canon_pieceOf (r : State × EpRead) (g : List Byte → List Byte × Flags) (hs0 : Canon r.1.mem.hbm) : Canon (pieceOf r g).1.mem.hbm := by
  unfold pieceOf; grind
theorem canon_transposed (s : State) (c : Nat) (d : Cmd) (b : Blk) (base : Int) (e : Nat) (x6 : Nat) (x7 : Nat) (hs0 : Canon s.mem.hbm) : Canon (State.transposed s c d b base e x6 x7).1.mem.hbm := by
  induction x6 generalizing s x7 with
  | zero => exact hs0
  | succ f ih => unfold State.transposed; grind [canon_epRead]
theorem canon_piece (s : State) (c : Nat) (d : Cmd) (b : Blk) (r : Nat) (off : Nat) (len : Nat) (hs0 : Canon s.mem.hbm) : Canon (State.piece s c d b r off len).1.mem.hbm := by
  unfold State.piece; grind [canon_pieceOf, canon_epRead, canon_transposed]
theorem canon_barrierArrive (s : State) (by_ : Nat) (c : Nat) (n : Nat) (bytes : Nat) (hs0 : Canon s.mem.hbm) : Canon (State.barrierArrive s by_ c n bytes).1.mem.hbm := by
  unfold State.barrierArrive; grind [State.onCtx, State.onCore, State.setCore]
theorem canon_ringArrive (s : State) (by_ : Nat) (c : Nat) (n : Nat) (slot : Nat) (bytes : Nat) (hs0 : Canon s.mem.hbm) : Canon (State.ringArrive s by_ c n slot bytes).1.mem.hbm := by
  unfold State.ringArrive; grind [State.onCtx, State.onCore, State.setCore]
theorem canon_deliverPiece (s : State) (c : Nat) (d : Cmd) (b : Blk) (r : Nat) (off : Nat) (l : List Byte) (hs0 : Canon s.mem.hbm) : Canon (State.deliverPiece s c d b r off l).1.mem.hbm := by
  unfold State.deliverPiece; grind [canon_engStore, canon_epWrite, Canon.fold, Canon.fold2]
theorem canon_pieces (s : State) (c : Nat) (d : Cmd) (b : Blk) (x4 : List (Nat × Nat × Nat)) (x5 : Flags) (hs0 : Canon s.mem.hbm) : Canon (State.pieces s c d b x4 x5).1.mem.hbm := by
  induction x4 generalizing s x5 with
  | nil => exact hs0
  | cons a f ih => unfold State.pieces; grind [canon_piece, canon_deliverPiece]
theorem canon_gather (s : State) (c : Nat) (d : Cmd) (b : Blk) (x4 : List (Nat × Nat × Nat)) (hs0 : Canon s.mem.hbm) : Canon (State.gather s c d b x4).1.mem.hbm := by
  induction x4 generalizing s with
  | nil => exact hs0
  | cons a f ih => unfold State.gather; grind [canon_piece]
theorem canon_countBytes (s : State) (c : Nat) (d : Cmd) (n : Nat) (hs0 : Canon s.mem.hbm) : Canon (State.countBytes s c d n).1.mem.hbm := by
  unfold State.countBytes
  dsimp only
  split
  · split
    · exact canon_barrierArrive _ _ _ _ _ (canon_ringArrive _ _ _ _ _ _ hs0)
    · exact canon_ringArrive _ _ _ _ _ _ hs0
  · split
    · refine Canon.fold2 ?_ _ (s := (s, none)) hs0
      intro r x h
      exact canon_barrierArrive _ _ _ _ _ h
    · exact hs0
  · split
    · exact canon_barrierArrive _ _ _ _ _ hs0
    · exact hs0
theorem canon_countAt (s : State) (c : Nat) (w : Nat) (h : Handle) (a : Int) (hs0 : Canon s.mem.hbm) : Canon (State.countAt s c w h a).mem.hbm := by
  unfold State.countAt; grind [canon_countAcc]
theorem canon_countCopy (s : State) (c : Nat) (d : Cmd) (b : Blk) (g : Nat) (hs0 : Canon s.mem.hbm) : Canon (State.countCopy s c d b g).mem.hbm := by
  unfold State.countCopy; grind [canon_countAt, Canon.fold, Canon.fold2]
theorem canon_granuleDone (c : Nat) (d : Cmd) (g : Nat) (n : Nat) (r : State × Except Nat Flags) (hs0 : Canon r.1.mem.hbm) : Canon (State.granuleDone c d g n r).1.mem.hbm := by
  unfold State.granuleDone; grind [canon_countBytes]
theorem canon_pushVec (c : Nat) (q : Nat) (r : State × Except Nat (List Byte × Flags)) (hs0 : Canon r.1.mem.hbm) : Canon (State.pushVec c q r).1.mem.hbm := by
  unfold State.pushVec; grind [State.onCtx, State.onCore, State.setCore]
theorem canon_copyGranule (s : State) (c : Nat) (d : Cmd) (g : Nat) (hs0 : Canon s.mem.hbm) : ∀ t0, State.copyGranule s c d g = some t0 → Canon t0.1.mem.hbm := by
  unfold State.copyGranule; grind [canon_countCopy, canon_pieces, canon_granuleDone, canon_pushVec, canon_gather]
theorem canon_gathRow (s : State) (c : Nat) (d : Cmd) (b : Blk) (i : Nat) (n : Nat) (hs0 : Canon s.mem.hbm) : Canon (State.gathRow s c d b i n).1.mem.hbm := by
  unfold State.gathRow; grind [canon_ldAdd, canon_countAcc, canon_epRead]
theorem canon_gathWrite (s : State) (c : Nat) (d : Cmd) (b : Blk) (off : Int) (l : List Byte) (hs0 : Canon s.mem.hbm) : Canon (State.gathWrite s c d b off l).1.mem.hbm := by
  unfold State.gathWrite; grind [canon_countBytes, canon_epWrite]
theorem canon_statusBit (s : State) (c : Nat) (b : Blk) (g : Nat) (hs0 : Canon s.mem.hbm) : Canon (State.statusBit s c b g).1.mem.hbm := by
  unfold State.statusBit; grind [canon_engStore]
theorem canon_gathStep (s : State) (c : Nat) (d : Cmd) (g : Nat) (hs0 : Canon s.mem.hbm) : ∀ t0, State.gathStep s c d g = some t0 → Canon t0.1.mem.hbm := by
  intro t0 e
  unfold State.gathStep at e
  dsimp only at e
  have hw : ∀ (t : State) (x : Int) (l : List Byte) (d' : Cmd), Canon t.mem.hbm → Canon (t.gathWrite c d' (Blk.ofBytes d.blk) x l).1.mem.hbm :=
    fun _ _ _ _ h => canon_gathWrite _ _ _ _ _ _ h
  have hs : ∀ (t : State) (z : Bool), Canon t.mem.hbm →
      Canon (if z = true then t.statusBit c (Blk.ofBytes d.blk) g else (t, none)).1.mem.hbm := by
    intro t z h
    split
    · exact canon_statusBit _ _ _ _ h
    · exact h
  split at e
  · cases e
  · have hr : ∀ n, Canon (if d.prog1 % d.rowGrains (Blk.ofBytes d.blk) = 0 then s.gathRow c d (Blk.ofBytes d.blk)
        (d.index (g * (Blk.ofBytes d.blk).count 1 + d.prog1 / d.rowGrains (Blk.ofBytes d.blk))) n
        else (s, .ok (d, d.rowOf (d.index (g * (Blk.ofBytes d.blk).count 1 + d.prog1 / d.rowGrains (Blk.ofBytes d.blk)))))).1.mem.hbm := by
      intro n
      split
      · exact canon_gathRow _ _ _ _ _ _ hs0
      · exact hs0
    split at e
    · next e1 => cases e; exact Canon.fst e1 (hr _)
    · next e1 =>
      have h1 := Canon.fst e1 (hr _)
      split at e
      · cases e
        split
        · next e2 => exact Canon.fst e2 (hs _ _ h1)
        · next e2 =>
          split
          · next e3 => exact Canon.fst e3 (hw _ _ _ _ (Canon.fst e2 (hs _ _ h1)))
          · next e3 => exact Canon.fst e3 (hw _ _ _ _ (Canon.fst e2 (hs _ _ h1)))
      · split at e
        · cases e; exact h1
        · cases e
          split
          · next e2 => exact Canon.fst e2 (hs _ _ h1)
          · next e2 =>
            split
            · next e3 => exact Canon.fst e3 (hw _ _ _ _ (Canon.fst e2 (hs _ _ h1)))
            · next e3 => exact Canon.fst e3 (hw _ _ _ _ (Canon.fst e2 (hs _ _ h1)))
theorem canon_ringStart (s : State) (c : Nat) (d : Cmd) (hs0 : Canon s.mem.hbm) : ∀ t0, State.ringStart s c d = .ok t0 → Canon t0.1.mem.hbm := by
  unfold State.ringStart; grind [State.onCore, State.onCtx, State.setCore]
theorem canon_pinBoth (s : State) (hs : Handle) (hd : Handle) (hs0 : Canon s.mem.hbm) : Canon (State.pinBoth s hs hd).mem.hbm := by
  unfold State.pinBoth; grind [State.onMem, canon_Mem_pin]
theorem canon_copyBlock (s : State) (c : Nat) (d : Cmd) (bytes : List Byte) (hs0 : Canon s.mem.hbm) : ∀ t0, State.copyBlock s c d bytes = .ok t0 → Canon t0.1.mem.hbm := by
  intro t0 e
  unfold State.copyBlock at e
  extract_lets k b hs hd total d' at e
  split at e
  · split at e
    · cases e
    · cases e; exact canon_pinBoth _ _ _ hs0
  · split at e
    · split at e
      · cases e
      · next h => cases e; exact canon_pinBoth _ _ _ (canon_ringStart _ _ _ hs0 _ h)
    · cases e; exact canon_pinBoth _ _ _ hs0
theorem canon_copyStart (s : State) (c : Nat) (d : Cmd) (hs0 : Canon s.mem.hbm) : ∀ t0, State.copyStart s c d = .ok t0 → Canon t0.1.mem.hbm := by
  intro t0 e
  unfold State.copyStart at e
  grind [canon_copyBlock, State.onCtx, State.onCore, State.setCore]
theorem canon_engFault (s : State) (c : Nat) (d : Cmd) (cause : Nat) (hs0 : Canon s.mem.hbm) : Canon (State.engFault s c d cause).mem.hbm := by
  exact hs0
theorem canon_engMoved (s : State) (c : Nat) (hs0 : Canon s.mem.hbm) : Canon (State.engMoved s c).mem.hbm := by
  exact hs0
theorem canon_putFly (s : State) (c : Nat) (d : Cmd) (hs0 : Canon s.mem.hbm) : Canon (State.putFly s c d).mem.hbm := by
  exact hs0
theorem canon_applyMoulds (s : State) (c : Nat) (hs0 : Canon s.mem.hbm) : Canon (State.applyMoulds s c).mem.hbm := by
  unfold State.applyMoulds; grind [State.onCtx, State.onCore, State.setCore, canon_putFly, Canon.fold, Canon.fold2]
theorem canon_cmdStart (s : State) (c : Nat) (d : Cmd) (hs0 : Canon s.mem.hbm) : ∀ t0, State.cmdStart s c d = .ok t0 → Canon t0.1.mem.hbm := by
  intro t0 e
  unfold State.cmdStart at e
  split at e
  · exact canon_matStart _ _ _ hs0 _ e
  · exact canon_copyStart _ _ _ hs0 _ e
theorem canon_startEcc (s : State) (c : Nat) (d : Cmd) (d' : Cmd) (hs0 : Canon s.mem.hbm) : Canon (State.startEcc s c d d').1.mem.hbm := by
  unfold State.startEcc; grind [canon_sramAll, canon_coreEcc]
theorem canon_goOn (s : State) (c : Nat) (d : Cmd) (hs0 : Canon s.mem.hbm) : Canon (State.goOn s c d).mem.hbm := by
  unfold State.goOn; grind [State.onCore, State.setCore, canon_engMoved]
theorem canon_startCmd (s : State) (c : Nat) (d : Cmd) (hs0 : Canon s.mem.hbm) : Canon (State.startCmd s c d).mem.hbm := by
  unfold State.startCmd
  split
  · exact canon_goOn _ _ _ hs0
  · split
    · exact canon_engFault _ _ _ _ hs0
    · next d' _ =>
      have h1 := canon_startEcc s c d d' hs0
      dsimp only
      split
      · exact canon_engFault _ _ _ _ h1
      · split
        · exact canon_engFault _ _ _ _ h1
        · next e => exact canon_engMoved _ _ (canon_cmdStart _ _ _ h1 _ e)
theorem canon_execCommandStart (c : Nat) (q : Nat) (s : State) (hs0 : Canon s.mem.hbm) : OutCanon (execCommandStart c q s) := by
  unfold execCommandStart; grind [State.onCore, State.setCore, canon_applyMoulds, canon_startCmd, canon_semPut, canon_engFault, OutCanon.next]

end Sys2Proof.Machine
end

