-- ==== Sys2Proof/Laws/Canon4.lean ====
section
/-! SUPPORT. Every operation keeps the canonical form of the memory, part 4 of 4: one lemma for each definition that answers a
state, in the order in which the definitions build on each other. -/
set_option Elab.async false
namespace Sys2Proof.Machine

theorem canon_execMrunPanelReady (c : Nat) (n : Nat) (s : State) (hs0 : Canon s.mem.hbm) : OutCanon (execMrunPanelReady c n s) := by
  unfold execMrunPanelReady
  have h1 := fun d => canon_runPanel s c d n hs0
  dsimp only
  split
  · exact OutCanon.next hs0
  · next d _ =>
    split
    · exact OutCanon.next hs0
    · split
      · exact OutCanon.next hs0
      · next e => exact OutCanon.next (canon_engFault _ _ _ _ (h1 _ _ e))
      · next e => exact OutCanon.next (canon_engMoved _ _ (canon_putFly _ _ _ (h1 _ _ e)))
theorem canon_execCopyGranuleComplete (c : Nat) (q : Nat) (i : Nat) (g : Nat) (s : State) (hs0 : Canon s.mem.hbm) : OutCanon (execCopyGranuleComplete c q i g s) := by
  unfold execCopyGranuleComplete
  have h1 : ∀ (d : Cmd) (r : State × Except Nat Cmd), (if d.isGather then s.gathStep c d g else s.copyGranule c d g) = some r →
      Canon r.1.mem.hbm := by
    intro d r e
    split at e
    · exact canon_gathStep _ _ _ _ hs0 _ e
    · exact canon_copyGranule _ _ _ _ hs0 _ e
  dsimp only
  split
  · exact OutCanon.next hs0
  · split
    · exact OutCanon.next hs0
    · split
      · exact OutCanon.next hs0
      · next e => exact OutCanon.next (canon_engFault _ _ _ _ (h1 _ _ e))
      · next e => exact OutCanon.next (canon_engMoved _ _ (canon_putFly _ _ _ (h1 _ _ e)))
theorem canon_retire (s : State) (c : Nat) (d : Cmd) (hs0 : Canon s.mem.hbm) : Canon (State.retire s c d).mem.hbm := by
  unfold State.retire; grind [State.onCore, State.setCore, canon_hostGo, canon_unpinCmd, canon_signal, canon_engMoved]
theorem canon_execCommandRetire (c : Nat) (q : Nat) (i : Nat) (s : State) (hs0 : Canon s.mem.hbm) : OutCanon (execCommandRetire c q i s) := by
  unfold execCommandRetire
  dsimp only
  split
  · exact OutCanon.next hs0
  · split
    · split
      · exact OutCanon.next hs0
      · exact OutCanon.next (canon_retire _ _ _ hs0)
    · split
      · refine OutCanon.next (canon_engMoved _ _ (canon_putFly _ _ _ ?_))
        refine Canon.fold ?_ _ hs0
        intro s x h
        exact h
      · split
        · exact OutCanon.next hs0
        · split
          · exact OutCanon.next hs0
          · next e => exact OutCanon.next (canon_engFault _ _ _ _ (canon_matStep _ _ _ hs0 _ e))
          · next e => exact OutCanon.next (canon_engMoved _ _ (canon_putFly _ _ _ (canon_matStep _ _ _ hs0 _ e)))
theorem canon_trapPushWaits (s : State) (c : Nat) (hs0 : Canon s.mem.hbm) : Canon (State.trapPushWaits s c).1.mem.hbm := by
  unfold State.trapPushWaits; grind [canon_pushWaits]
theorem canon_execTrapEntry (c : Nat) (s : State) (hs0 : Canon s.mem.hbm) : OutCanon (execTrapEntry c s) := by
  unfold execTrapEntry; grind [canon_toFatal, canon_trapPushWaits, canon_takeTrap, OutCanon.next]
theorem canon_execTrapReturn (c : Nat) (s : State) (hs0 : Canon s.mem.hbm) : OutCanon (execTrapReturn c s) := by
  unfold execTrapReturn; grind [canon_toFatal, canon_trapReturn, OutCanon.next]
theorem canon_saveEcc (s : State) (c : Nat) (hs0 : Canon s.mem.hbm) : Canon (State.saveEcc s c).1.mem.hbm := by
  unfold State.saveEcc; grind [canon_sram, canon_coreEcc]
theorem canon_save (s : State) (c : Nat) (forced : Bool) (hs0 : Canon s.mem.hbm) : Canon (State.save s c forced).mem.hbm := by
  unfold State.save
  have h0 := canon_refills s c 16 hs0
  dsimp only
  split
  · exact h0
  · split
    · split
      · next e => exact Canon.fst e (canon_jobCheck _ _ _ _ _ _ _ h0)
      · next e =>
        have h1 := canon_saveEcc _ c (Canon.fst e (canon_jobCheck _ _ _ _ _ _ _ h0))
        split
        · exact canon_toFatal _ _ (canon_deliver _ _ _ _ h1)
        · refine canon_onCore _ _ _ (canon_endRequest _ _ (canon_onSeq _ _ _ (canon_onJob _ _ _ (canon_onSched _ _ (Canon.fold (fun _ _ h => canon_jobWrite _ _ _ _ _ _ _ _ h) _ ?_)))))
          refine canon_jobWrite _ _ _ _ _ _ _ _ (canon_jobWrite _ _ _ _ _ _ _ _ (canon_jobWrite _ _ _ _ _ _ _ _ (canon_dropFlights _ _ ?_)))
          split
          · exact h1
          · exact canon_onCtx _ _ _ h1
      · next e => exact canon_toFatal _ _ (canon_deliver _ _ _ _ (Canon.fst e (canon_jobCheck _ _ _ _ _ _ _ h0)))
    · exact canon_toFatal _ _ (canon_deliver _ _ _ _ h0)
theorem canon_saveEnds (s : State) (c : Nat) (ph : Phase) (hs0 : Canon s.mem.hbm) : Canon (State.saveEnds s c ph).mem.hbm := by
  unfold State.saveEnds; grind [canon_toFatal]
theorem canon_execDeadlineExpiry (c : Nat) (s : State) (hs0 : Canon s.mem.hbm) : OutCanon (execDeadlineExpiry c s) := by
  unfold execDeadlineExpiry; grind [canon_strikeSave, OutCanon.next]
theorem canon_execForcedSave (c : Nat) (s : State) (hs0 : Canon s.mem.hbm) : OutCanon (execForcedSave c s) := by
  unfold execForcedSave; grind [canon_saveEnds, canon_save, canon_toFatal, OutCanon.next]
theorem canon_reserveSlot (s : State) (c : Nat) (hs0 : Canon s.mem.hbm) : Canon (State.reserveSlot s c).mem.hbm := by
  unfold State.reserveSlot; grind [State.onSeq, State.onCore, State.setCore, canon_onJob]
theorem canon_execCooperativeSave (c : Nat) (s : State) (hs0 : Canon s.mem.hbm) : OutCanon (execCooperativeSave c s) := by
  unfold execCooperativeSave; grind [State.onCore, State.setCore, canon_saveEnds, canon_reserveSlot, canon_save, canon_toFatal, OutCanon.next]
theorem canon_endContext (s : State) (c : Nat) (x : Fatal) (hs0 : Canon s.mem.hbm) : Canon (State.endContext s c x).mem.hbm := by
  unfold State.endContext; grind [State.onCore, State.onCtx, State.setCore, canon_hostGo, canon_killWork, canon_voidSlots, canon_poisonJob, canon_releaseHandles, canon_endWork, canon_dropFlights, canon_endRequest]
theorem canon_execFatalContextError (c : Nat) (s : State) (hs0 : Canon s.mem.hbm) : OutCanon (execFatalContextError c s) := by
  unfold execFatalContextError; grind [canon_endContext, OutCanon.next]
theorem canon_execHangWatchdogExpiry (c : Nat) (s : State) (hs0 : Canon s.mem.hbm) : OutCanon (execHangWatchdogExpiry c s) := by
  unfold execHangWatchdogExpiry; grind [State.onCore, State.setCore, canon_toFatal, OutCanon.next]
theorem canon_retranslate (s : State) (job : Nat) (rq : Req) (old : Handle) (hs0 : Canon s.mem.hbm) : Canon (State.retranslate s job rq old).1.mem.hbm := by
  unfold State.retranslate; grind [canon_access]
theorem canon_rehandle (s : State) (job : Nat) (rq : Req) (l : List Byte) (hs0 : Canon s.mem.hbm) : Canon (State.rehandle s job rq l).1.mem.hbm := by
  unfold State.rehandle; grind [canon_retranslate]
theorem canon_regrip (s : State) (job : Nat) (rq : Req) (h : Handle) (hs0 : Canon s.mem.hbm) : Canon (State.regrip s job rq h).1.mem.hbm := by
  unfold State.regrip; grind [canon_retranslate]
theorem canon_regripCmd (s : State) (job : Nat) (rq : Req) (d : Cmd) (hs0 : Canon s.mem.hbm) : Canon (State.regripCmd s job rq d).1.mem.hbm := by
  unfold State.regripCmd; grind [canon_regrip]
theorem canon_regrips (s : State) (job : Nat) (rq : Req) (t : List (Nat × List Cmd)) (hs0 : Canon s.mem.hbm) : Canon (State.regrips s job rq t).1.mem.hbm := by
  unfold State.regrips; grind [canon_regripCmd, Canon.fold, Canon.fold2]
theorem canon_readImage (s : State) (c : Nat) (j : Job) (v : Saved) (hs0 : Canon s.mem.hbm) : Canon (State.readImage s c j v).1.mem.hbm := by
  unfold State.readImage; grind [canon_jobCheck, canon_jobRead, Canon.fold, Canon.fold2]
theorem canon_rehandles (s : State) (job : Nat) (rq : Req) (l : List Byte) (hs0 : Canon s.mem.hbm) : Canon (State.rehandles s job rq l).1.mem.hbm := by
  unfold State.rehandles; grind [canon_rehandle, Canon.fold, Canon.fold2]
theorem canon_takeSaved (s : State) (c : Nat) (j : Job) (i : Nat) (v : Saved) (hs0 : Canon s.mem.hbm) : Canon (State.takeSaved s c j i v).mem.hbm := by
  unfold State.takeSaved; grind [State.onSeq, State.onCore, State.setCore, canon_setJob]
theorem canon_restored (s : State) (c : Nat) (i : Nat) (j : Job) (v : Saved) (x : Ctx) (record : List Byte) (hs : List Handle) (kept : List (Nat × List Cmd)) (hs0 : Canon s.mem.hbm) : Canon (State.restored s c i j v x record hs kept).mem.hbm := by
  unfold State.restored
  have h1 : ∀ (f : Ctx → Ctx), Canon (hs.zipIdx.foldl (fun s h => if h.1.valid then s.writeHandle c h.2 h.1 else (s.releaseHandle c h.2).onCtx c (·.setH h.2 h.1))
      ((s.takeSaved c j i v).onCtx c f)).mem.hbm := by
    intro f
    refine Canon.fold (fun s h h0 => ?_) _ ?_
    · split
      · exact canon_writeHandle _ _ _ _ h0
      · exact canon_releaseHandle _ _ _ h0
    · exact canon_takeSaved s c j i v hs0
  have h2 : ∀ (t : State) (l : List Cmd), Canon t.mem.hbm → Canon (l.foldl (fun s d => if d.started then s.pinBoth d.hs d.hd else s) t).mem.hbm := by
    intro t l h
    refine Canon.fold (fun s d h0 => ?_) _ h
    split
    · exact canon_pinBoth _ _ _ h0
    · exact h0
  dsimp only
  split
  · exact canon_toFatal _ _ (h2 _ _ (h1 _))
  · exact canon_resumeFrom _ _ _ _ (h2 _ _ (h1 _))
theorem canon_restore (s : State) (c : Nat) (i : Nat) (hs0 : Canon s.mem.hbm) : Canon (State.restore s c i).mem.hbm := by
  unfold State.restore
  split
  · exact hs0
  · next j _ =>
    split
    · exact hs0
    · next v _ =>
      dsimp only
      have h1 := canon_readImage (s.onCtx c (fun x => { x with sw := { x.sw with disc := false } })) c j v hs0
      split
      · next e => exact canon_onCtx _ _ _ (Canon.fst e h1)
      · next e =>
        split
        · exact canon_toFatal _ _ (canon_deliver _ _ _ _ (canon_takeSaved _ _ _ _ _ (Canon.fst e h1)))
        · exact Canon.fst e h1
      · next e =>
        have h1 := Canon.fst e h1
        split
        · next e => exact Canon.fst e (canon_rehandles _ _ _ _ h1)
        · next e =>
          have h1 := Canon.fst e (canon_rehandles _ _ _ _ h1)
          split
          · next e => exact Canon.fst e (canon_regrips _ _ _ _ h1)
          · next e =>
            have h1 := Canon.fst e (canon_regrips _ _ _ _ h1)
            split
            · exact h1
            · exact canon_restored _ _ _ _ _ _ _ _ _ h1
theorem canon_restoreTry (s : State) (c : Nat) (i : Nat) (hs0 : Canon s.mem.hbm) : Canon (State.restoreTry s c i).mem.hbm := by
  unfold State.restoreTry; grind [canon_restore, canon_landCycle]
theorem canon_execRestore (c : Nat) (i : Nat) (s : State) (hs0 : Canon s.mem.hbm) : OutCanon (execRestore c i s) := by
  unfold execRestore; grind [canon_restoreTry, OutCanon.next]
theorem canon_imageRead (s : State) (job : Nat) (va : Nat) (n : Nat) (x4 : Nat) (hs0 : Canon s.mem.hbm) : Canon (State.imageRead s job va n x4).1.mem.hbm := by
  induction x4 generalizing s va n with
  | zero => exact hs0
  | succ f ih =>
    unfold State.imageRead
    dsimp only
    split
    · exact hs0
    · split
      · next e =>
        have h1 := Canon.fst e (canon_translate _ _ _ hs0)
        split
        · exact canon_readHbm _ _ _ _ _ h1
        · split
          · next e2 => exact Canon.fst e2 (ih _ _ _ (canon_readHbm _ _ _ _ _ h1))
          · exact ih _ _ _ (canon_readHbm _ _ _ _ _ h1)
      · next e => exact Canon.fst e (canon_translate _ _ _ hs0)
theorem canon_regionOk (s : State) (j : Job) (va : Nat) (n : Nat) (x4 : Nat) (hs0 : Canon s.mem.hbm) : Canon (State.regionOk s j va n x4).1.mem.hbm := by
  induction x4 generalizing s va n with
  | zero => exact hs0
  | succ f ih => unfold State.regionOk; grind [canon_ptError]
theorem canon_launchReasons (s : State) (n : Nat) (l : List Byte) (x : List Sect) (hs0 : Canon s.mem.hbm) : Canon (State.launchReasons s n l x).1.mem.hbm := by
  unfold State.launchReasons; grind [canon_regionOk]
theorem canon_startCore (s : State) (j : Job) (c : Nat) (w : BitVec 64) (hs0 : Canon s.mem.hbm) : Canon (State.startCore s j c w).mem.hbm := by
  unfold State.startCore; grind [State.setCore, canon_onJob]
theorem canon_launchGo (s : State) (j : Job) (r : List Byte) (hs0 : Canon s.mem.hbm) : Canon (State.launchGo s j r).mem.hbm := by
  unfold State.launchGo; grind [canon_setVat, canon_startCore, canon_makeReady, canon_setJob, Canon.fold, Canon.fold2]
theorem canon_launchImage (s : State) (d : Datagram) (hs0 : Canon s.mem.hbm) : Canon (State.launchImage s d).mem.hbm := by
  have hb : ∀ (t : State), Canon t.mem.hbm → Canon ({ t with sched := s.sched } : State).mem.hbm := fun _ h => h
  have h0 := canon_setJob s { Job.blank (d.job % 2 ^ 20) with ptroot := BitVec.ofNat 64 (num d.payload 8 8) } hs0
  have h1 := canon_imageRead _ (d.job % 2 ^ 20) (num d.payload 0 8 % 2 ^ 57) 64 3 h0
  unfold State.launchImage
  revert h1
  dsimp only
  generalize State.imageRead _ _ _ _ 3 = r
  intro h1
  obtain ⟨t, a⟩ := r
  cases a with
  | none => exact canon_event _ _ _ _ h1
  | some h =>
    have h2 := canon_imageRead t (d.job % 2 ^ 20) (num d.payload 0 8 % 2 ^ 57) (num h 8 8) (spanFuel (num h 8 8)) h1
    revert h2
    dsimp only
    generalize State.imageRead t _ _ _ _ = r
    intro h2
    obtain ⟨t, a⟩ := r
    cases a with
    | none => exact canon_event _ _ _ _ h2
    | some l =>
      dsimp only
      cases imageSects l with
      | none => exact canon_event _ _ _ _ h2
      | some x =>
        have h3 := canon_launchReasons t (d.job % 2 ^ 20) l x h2
        revert h3
        dsimp only
        generalize State.launchReasons t _ l x = r
        intro h3
        obtain ⟨t, a⟩ := r
        cases a with
        | cons k r => exact canon_event _ _ _ _ h3
        | nil =>
          dsimp only
          split
          · exact canon_event _ _ _ _ h3
          · exact canon_launchGo _ _ _ h3
theorem canon_startCtx (s : State) (d : Datagram) (hs0 : Canon s.mem.hbm) : Canon (State.startCtx s d).1.mem.hbm := by
  unfold State.startCtx; grind [canon_startCore]
theorem canon_killCtx (s : State) (d : Datagram) (hs0 : Canon s.mem.hbm) : Canon (State.killCtx s d).mem.hbm := by
  unfold State.killCtx; grind [State.onHost, canon_ackHost, canon_deliver]
theorem canon_tmNeed (ok : Bool) (reason : Nat)  : TmCanon (tmNeed ok reason) := by
  unfold tmNeed; repeat' first | with_reducible exact TmCanon.ok | with_reducible exact TmCanon.err | with_reducible exact TmCanon.miss | with_reducible exact TmCanon.get | with_reducible apply TmCanon.bind | with_reducible apply TmCanon.map | split | intro _
theorem canon_tmRead (d : UnitCmd) (va : Nat) (n : Nat)  : TmCanon (tmRead d va n) := by
  intro s hs0
  unfold tmRead
  split <;> next e => exact Canon.fst e (canon_jobRead _ _ _ _ _ _ _ _ _ hs0)
theorem canon_tmCheck (d : UnitCmd) (wr : Bool) (va : Nat) (n : Nat)  : TmCanon (tmCheck d wr va n) := by
  intro s hs0
  unfold tmCheck
  split <;> next e => exact Canon.fst e (canon_jobCheck _ _ _ _ _ _ _ hs0)
theorem canon_Mem_undo (m : Mem) (was : Mem) (hs0 : Canon m.hbm) (hs0 : Canon was.hbm) : Canon (Mem.undo m was).hbm := by
  unfold Mem.undo; grind
theorem canon_tmWrite (d : UnitCmd) (va : Nat) (l : List Byte)  : TmCanon (tmWrite d va l) := by
  refine TmCanon.bind (canon_tmCheck _ _ _ _) (fun _ s hs0 => ?_)
  split
  · next e => exact Canon.fst e (canon_jobWrite _ _ _ _ _ _ _ _ hs0)
  · next e => exact Canon.fst e (canon_jobWrite _ _ _ _ _ _ _ _ hs0)
  · next e => exact canon_deliver _ _ _ _ hs0
theorem canon_tmNum (d : UnitCmd) (va : Nat) (n : Nat)  : TmCanon (tmNum d va n) := by
  unfold tmNum; repeat' first | with_reducible exact TmCanon.ok | with_reducible exact TmCanon.err | with_reducible exact TmCanon.miss | with_reducible exact TmCanon.get | with_reducible apply TmCanon.bind | with_reducible apply TmCanon.map | with_reducible apply canon_tmRead | split | intro _
theorem canon_tableHeader (d : UnitCmd) (base : Nat) (magic : Nat) (zero : List Byte → Bool)  : TmCanon (tableHeader d base magic zero) := by
  unfold tableHeader; repeat' first | with_reducible exact TmCanon.ok | with_reducible exact TmCanon.err | with_reducible exact TmCanon.miss | with_reducible exact TmCanon.get | with_reducible apply TmCanon.bind | with_reducible apply TmCanon.map | with_reducible apply canon_tmNeed | with_reducible apply canon_tmRead | split | intro _
theorem canon_tmMapped (d : UnitCmd) (va : Nat) (n : Nat)  : TmCanon (tmMapped d va n) := by
  intro s hs0
  unfold tmMapped
  split <;> next e => exact Canon.fst e (canon_jobMapped _ _ _ _ _ _ _ hs0)
theorem canon_tableRegion (d : UnitCmd) (base : Nat) (off : Nat) (n : Nat)  : TmCanon (tableRegion d base off n) := by
  unfold tableRegion; repeat' first | with_reducible exact TmCanon.ok | with_reducible exact TmCanon.err | with_reducible exact TmCanon.miss | with_reducible exact TmCanon.get | with_reducible apply TmCanon.bind | with_reducible apply TmCanon.map | with_reducible apply canon_tmMapped | with_reducible apply canon_tmNeed | split | intro _
theorem canon_hashProbe (d : UnitCmd) (base : Nat) (s : Nat) (keyBits : Nat) (x : Nat) (y : Nat) (x6 : Nat) (x7 : Nat)  : TmCanon (hashProbe d base s keyBits x y x6 x7) := by
  induction x6 generalizing x7 with
  | zero => exact TmCanon.ok
  | succ f ih =>
    unfold hashProbe
    repeat' first | with_reducible exact TmCanon.ok | with_reducible exact canon_tmRead _ _ _ | with_reducible exact ih _ | with_reducible apply TmCanon.bind | split | intro _
theorem canon_hashFind (d : UnitCmd) (base : Nat) (s : Nat) (keyBits : Nat) (x : Nat) (y : Nat)  : TmCanon (hashFind d base s keyBits x y) := by
  unfold hashFind; repeat' first | with_reducible exact TmCanon.ok | with_reducible exact TmCanon.err | with_reducible exact TmCanon.miss | with_reducible exact TmCanon.get | with_reducible apply TmCanon.bind | with_reducible apply TmCanon.map | with_reducible apply canon_hashProbe | split | intro _
theorem canon_textDesc (d : UnitCmd)  : TmCanon (textDesc d) := by
  unfold textDesc; repeat' first | with_reducible exact TmCanon.ok | with_reducible exact TmCanon.err | with_reducible exact TmCanon.miss | with_reducible exact TmCanon.get | with_reducible apply TmCanon.bind | with_reducible apply TmCanon.map | with_reducible apply canon_tmNeed | with_reducible apply canon_tmRead | split | intro _
theorem canon_fitUnits {α : Type} (cap n : Nat) (l : List (Nat × TM (List α))) (hl : ∀ u ∈ l, TmCanon u.2) : TmCanon (fitUnits cap n l) := by
  induction l generalizing n with
  | nil => exact TmCanon.ok
  | cons u r ih =>
    refine TmCanon.bind (hl u (.head _)) (fun v => ?_)
    split
    · exact TmCanon.ok
    · exact TmCanon.bind (ih _ (fun w h => hl w (.tail _ h))) (fun _ => TmCanon.ok)
theorem canon_normTab (d : UnitCmd) (base : Nat)  : TmCanon (normTab d base) := by
  unfold normTab; repeat' first | with_reducible exact TmCanon.ok | with_reducible exact TmCanon.err | with_reducible exact TmCanon.miss | with_reducible exact TmCanon.get | with_reducible apply TmCanon.bind | with_reducible apply TmCanon.map | with_reducible apply canon_tmNeed | with_reducible apply canon_tableHeader | with_reducible apply canon_tableRegion | split | intro _
theorem canon_normEntry (d : UnitCmd) (t : NormTab) (c : Nat)  : TmCanon (normEntry d t c) := by
  unfold normEntry; repeat' first | with_reducible exact TmCanon.ok | with_reducible exact TmCanon.err | with_reducible exact TmCanon.miss | with_reducible exact TmCanon.get | with_reducible apply TmCanon.bind | with_reducible apply TmCanon.map | with_reducible apply canon_tmNeed | with_reducible apply canon_tmNum | split | intro _
theorem canon_normClass (d : UnitCmd) (t : NormTab) (c : Nat)  : TmCanon (normClass d t c) := by
  unfold normClass; repeat' first | with_reducible exact TmCanon.ok | with_reducible exact TmCanon.err | with_reducible exact TmCanon.miss | with_reducible exact TmCanon.get | with_reducible apply TmCanon.bind | with_reducible apply TmCanon.map | with_reducible apply canon_normEntry | split | intro _
theorem canon_normMap (d : UnitCmd) (t : NormTab) (c : Nat)  : TmCanon (normMap d t c) := by
  unfold normMap; repeat' first | with_reducible exact TmCanon.ok | with_reducible exact TmCanon.err | with_reducible exact TmCanon.miss | with_reducible exact TmCanon.get | with_reducible apply TmCanon.bind | with_reducible apply TmCanon.map | with_reducible apply canon_normEntry | with_reducible apply canon_normClass | with_reducible apply canon_tmNum | split | intro _
theorem canon_composeSeg (d : UnitCmd) (t : NormTab) (starter : Nat) (kept : List Nat) (last : Option Nat) (x5 : List NormCp)  : TmCanon (composeSeg d t starter kept last x5) := by
  induction x5 generalizing starter kept last with
  | nil => unfold composeSeg; exact TmCanon.ok
  | cons a f ih =>
    unfold composeSeg
    repeat' first | with_reducible exact TmCanon.ok | with_reducible exact canon_hashFind _ _ _ _ _ _ | with_reducible exact ih _ _ _ | with_reducible apply TmCanon.bind | split | intro _
theorem canon_normSeg (d : UnitCmd) (t : NormTab) (l : List NormCp)  : TmCanon (normSeg d t l) := by
  unfold normSeg; repeat' first | with_reducible exact TmCanon.ok | with_reducible exact TmCanon.err | with_reducible exact TmCanon.miss | with_reducible exact TmCanon.get | with_reducible apply TmCanon.bind | with_reducible apply TmCanon.map | with_reducible apply canon_composeSeg | split | intro _
theorem canon_NormRun_closeSeg (d : UnitCmd) (t : NormTab) (r : NormRun)  : TmCanon (NormRun.closeSeg d t r) := by
  unfold NormRun.closeSeg; repeat' first | with_reducible exact TmCanon.ok | with_reducible exact TmCanon.err | with_reducible exact TmCanon.miss | with_reducible exact TmCanon.get | with_reducible apply TmCanon.bind | with_reducible apply TmCanon.map | with_reducible apply canon_normSeg | split | intro _
theorem canon_NormRun_feed (d : UnitCmd) (t : NormTab) (cap : Nat) (r : NormRun) (x : NormCp)  : TmCanon (NormRun.feed d t cap r x) := by
  unfold NormRun.feed; repeat' first | with_reducible exact TmCanon.ok | with_reducible exact TmCanon.err | with_reducible exact TmCanon.miss | with_reducible exact TmCanon.get | with_reducible apply TmCanon.bind | with_reducible apply TmCanon.map | with_reducible apply canon_NormRun_closeSeg | split | intro _
theorem canon_NormRun_feeds (d : UnitCmd) (t : NormTab) (cap : Nat) (x3 : NormRun) (x4 : List NormCp)  : TmCanon (NormRun.feeds d t cap x3 x4) := by
  induction x4 generalizing x3 with
  | nil => exact TmCanon.ok
  | cons x l ih => exact TmCanon.bind (canon_NormRun_feed _ _ _ _ _) (fun r => ih r)
theorem canon_NormRun_go (d : UnitCmd) (t : NormTab) (cap : Nat) (x3 : NormRun) (x4 : List (Nat × Nat))  : TmCanon (NormRun.go d t cap x3 x4) := by
  induction x4 generalizing x3 with
  | nil =>
    unfold NormRun.go
    split
    · exact TmCanon.ok
    · exact TmCanon.bind (canon_NormRun_closeSeg _ _ _) (fun _ => TmCanon.ok)
  | cons c l ih =>
    unfold NormRun.go
    split
    · exact TmCanon.ok
    · exact TmCanon.bind (canon_normMap _ _ _) (fun _ => TmCanon.bind (canon_NormRun_feeds _ _ _ _ _) (fun r => ih r))
theorem canon_txnorm (d : UnitCmd)  : TmCanon (txnorm d) := by
  unfold txnorm; repeat' first | with_reducible exact TmCanon.ok | with_reducible exact TmCanon.err | with_reducible exact TmCanon.miss | with_reducible exact TmCanon.get | with_reducible apply TmCanon.bind | with_reducible apply TmCanon.map | with_reducible apply canon_normTab | with_reducible apply canon_tmWrite | with_reducible apply canon_tmRead | with_reducible apply canon_textDesc | with_reducible apply canon_NormRun_go | split | intro _
theorem canon_mergeTab (d : UnitCmd) (base : Nat)  : TmCanon (mergeTab d base) := by
  unfold mergeTab; repeat' first | with_reducible exact TmCanon.ok | with_reducible exact TmCanon.err | with_reducible exact TmCanon.miss | with_reducible exact TmCanon.get | with_reducible apply TmCanon.bind | with_reducible apply TmCanon.map | with_reducible apply canon_tableHeader | with_reducible apply canon_tableRegion | with_reducible apply canon_tmRead | split | intro _
theorem canon_bestPair (d : UnitCmd) (t : MergeTab) (x2 : Nat) (x3 : List Nat)  : TmCanon (bestPair d t x2 x3) := by
  induction x3 generalizing x2 with
  | nil => unfold bestPair; exact TmCanon.ok
  | cons a f ih =>
    cases f with
    | nil => unfold bestPair; exact TmCanon.ok
    | cons b g =>
    unfold bestPair
    repeat' first | with_reducible exact TmCanon.ok | with_reducible exact canon_hashFind _ _ _ _ _ _ | with_reducible exact ih _ | with_reducible apply TmCanon.bind | split | intro _
theorem canon_mergeWord (d : UnitCmd) (t : MergeTab) (x2 : Nat) (x3 : List Nat)  : TmCanon (mergeWord d t x2 x3) := by
  induction x2 generalizing x3 with
  | zero => unfold mergeWord; exact TmCanon.ok
  | succ n ih =>
    unfold mergeWord
    repeat' first | with_reducible exact TmCanon.ok | with_reducible exact TmCanon.err | with_reducible exact canon_bestPair _ _ _ _ | with_reducible exact ih _ | with_reducible apply TmCanon.bind | split | intro _
theorem canon_encWord (d : UnitCmd) (t : MergeTab) (w : List Byte)  : TmCanon (encWord d t w) := by
  unfold encWord; repeat' first | with_reducible exact TmCanon.ok | with_reducible exact TmCanon.err | with_reducible exact TmCanon.miss | with_reducible exact TmCanon.get | with_reducible apply TmCanon.bind | with_reducible apply TmCanon.map | with_reducible apply canon_tmNeed | with_reducible apply canon_mergeWord | split | intro _
theorem canon_txenc (d : UnitCmd)  : TmCanon (txenc d) := by
  refine TmCanon.bind (canon_textDesc _) (fun x => TmCanon.bind (canon_mergeTab _ _) (fun t => TmCanon.bind (canon_tmRead _ _ _) (fun l =>
    TmCanon.bind (canon_fitUnits _ _ _ ?_) (fun r => TmCanon.bind (canon_tmWrite _ _ _) (fun _ => TmCanon.ok)))))
  intro u hu
  obtain ⟨w, -, rfl⟩ := List.mem_map.1 hu
  exact canon_encWord _ _ _
theorem canon_tokTab (d : UnitCmd) (base : Nat)  : TmCanon (tokTab d base) := by
  unfold tokTab; repeat' first | with_reducible exact TmCanon.ok | with_reducible exact TmCanon.err | with_reducible exact TmCanon.miss | with_reducible exact TmCanon.get | with_reducible apply TmCanon.bind | with_reducible apply TmCanon.map | with_reducible apply canon_tmNeed | with_reducible apply canon_tableHeader | split | intro _
theorem canon_tokBytes (d : UnitCmd) (t : TokTab) (x : Nat)  : TmCanon (tokBytes d t x) := by
  unfold tokBytes; repeat' first | with_reducible exact TmCanon.ok | with_reducible exact TmCanon.err | with_reducible exact TmCanon.miss | with_reducible exact TmCanon.get | with_reducible apply TmCanon.bind | with_reducible apply TmCanon.map | with_reducible apply canon_tmNeed | with_reducible apply canon_tmRead | with_reducible apply canon_tmNum | split | intro _
theorem canon_txdec (d : UnitCmd)  : TmCanon (txdec d) := by
  refine TmCanon.bind (canon_textDesc _) (fun x => TmCanon.bind (canon_tokTab _ _) (fun t => TmCanon.bind (canon_tmRead _ _ _) (fun l =>
    TmCanon.bind (canon_tmNeed _ _) (fun _ => TmCanon.bind (canon_tableRegion _ _ _ _) (fun _ =>
    TmCanon.bind (canon_fitUnits _ _ _ ?_) (fun r => TmCanon.bind (canon_tmWrite _ _ _) (fun _ => TmCanon.ok)))))))
  intro u hu
  obtain ⟨w, -, rfl⟩ := List.mem_map.1 hu
  exact canon_tokBytes _ _ _
theorem canon_gramTab (d : UnitCmd) (base : Nat)  : TmCanon (gramTab d base) := by
  unfold gramTab; repeat' first | with_reducible exact TmCanon.ok | with_reducible exact TmCanon.err | with_reducible exact TmCanon.miss | with_reducible exact TmCanon.get | with_reducible apply TmCanon.bind | with_reducible apply TmCanon.map | with_reducible apply canon_tableHeader | with_reducible apply canon_tableRegion | split | intro _
theorem canon_gramState (d : UnitCmd) (t : GramTab) (st : Nat)  : TmCanon (gramState d t st) := by
  unfold gramState; repeat' first | with_reducible exact TmCanon.ok | with_reducible exact TmCanon.err | with_reducible exact TmCanon.miss | with_reducible exact TmCanon.get | with_reducible apply TmCanon.bind | with_reducible apply TmCanon.map | with_reducible apply canon_tmNeed | with_reducible apply canon_tmRead | split | intro _
theorem canon_setEntry (s : State) (die : Nat) (e : Nat) (x : Entry) (hs0 : Canon s.mem.hbm) : Canon (State.setEntry s die e x).mem.hbm := by
  exact hs0
theorem canon_tmPut (d : UnitCmd) (x : Entry)  : TmCanon (tmPut d x) := by
  exact fun s h => canon_setEntry s _ _ _ h
theorem canon_ownEntry (d : UnitCmd) (reserved : Bool)  : TmCanon (ownEntry d reserved) := by
  unfold ownEntry; repeat' first | with_reducible exact TmCanon.ok | with_reducible exact TmCanon.err | with_reducible exact TmCanon.miss | with_reducible exact TmCanon.get | with_reducible apply TmCanon.bind | with_reducible apply TmCanon.map | with_reducible apply canon_tmNeed | split | intro _
theorem canon_grload (d : UnitCmd) (unbind : Bool)  : TmCanon (grload d unbind) := by
  unfold grload; repeat' first | with_reducible exact TmCanon.ok | with_reducible exact TmCanon.err | with_reducible exact TmCanon.miss | with_reducible exact TmCanon.get | with_reducible apply TmCanon.bind | with_reducible apply TmCanon.map | with_reducible apply canon_tmPut | with_reducible apply canon_gramTab | with_reducible apply canon_tmNeed | with_reducible apply canon_gramState | split | intro _
theorem canon_gradv (d : UnitCmd)  : TmCanon (gradv d) := by
  unfold gradv; repeat' first | with_reducible exact TmCanon.ok | with_reducible exact TmCanon.err | with_reducible exact TmCanon.miss | with_reducible exact TmCanon.get | with_reducible apply TmCanon.bind | with_reducible apply TmCanon.map | with_reducible apply canon_tmPut | with_reducible apply canon_gramTab | with_reducible apply canon_ownEntry | with_reducible apply canon_gramState | split | intro _
theorem canon_grstat (d : UnitCmd)  : TmCanon (grstat d) := by
  unfold grstat; repeat' first | with_reducible exact TmCanon.ok | with_reducible exact TmCanon.err | with_reducible exact TmCanon.miss | with_reducible exact TmCanon.get | with_reducible apply TmCanon.bind | with_reducible apply TmCanon.map | with_reducible apply canon_ownEntry | split | intro _
theorem canon_grmask (d : UnitCmd) (fields : BitVec 22) (mayWrite : Bool)  : TmCanon (grmask d fields mayWrite) := by
  unfold grmask; repeat' first | with_reducible exact TmCanon.ok | with_reducible exact TmCanon.err | with_reducible exact TmCanon.miss | with_reducible exact TmCanon.get | with_reducible apply TmCanon.bind | with_reducible apply TmCanon.map | with_reducible apply canon_tmPut | with_reducible apply canon_gramTab | with_reducible apply canon_tmNeed | with_reducible apply canon_ownEntry | with_reducible apply canon_gramState | split | intro _
theorem canon_stopset (d : UnitCmd)  : TmCanon (stopset d) := by
  unfold stopset; repeat' first | with_reducible exact TmCanon.ok | with_reducible exact TmCanon.err | with_reducible exact TmCanon.miss | with_reducible exact TmCanon.get | with_reducible apply TmCanon.bind | with_reducible apply TmCanon.map | with_reducible apply canon_tmPut | with_reducible apply canon_tmNeed | with_reducible apply canon_ownEntry | with_reducible apply canon_tmRead | split | intro _
theorem canon_stopchk (d : UnitCmd)  : TmCanon (stopchk d) := by
  unfold stopchk; repeat' first | with_reducible exact TmCanon.ok | with_reducible exact TmCanon.err | with_reducible exact TmCanon.miss | with_reducible exact TmCanon.get | with_reducible apply TmCanon.bind | with_reducible apply TmCanon.map | with_reducible apply canon_tmPut | with_reducible apply canon_tmNeed | with_reducible apply canon_ownEntry | with_reducible apply canon_tableRegion | with_reducible apply canon_tokTab | with_reducible apply canon_tokBytes | split | intro _
theorem canon_textWork (d : UnitCmd)  : TmCanon (textWork d) := by
  unfold textWork
  repeat' first | with_reducible exact TmCanon.ok | with_reducible exact canon_txnorm _ | with_reducible exact canon_txenc _ | with_reducible exact canon_txdec _ | with_reducible exact canon_grload _ _ | with_reducible exact canon_gradv _ | with_reducible exact canon_grstat _ | with_reducible exact canon_stopset _ | with_reducible exact canon_stopchk _ | with_reducible exact canon_grmask _ _ _ | with_reducible exact TmCanon.get | (with_reducible refine TmCanon.bind ?_ (fun _ => ?_)) | (intro s h; with_reducible exact canon_answer _ _ _ _ _ _ _ h) | split | dsimp only
theorem canon_onText (s : State) (die : Nat) (f : TextUnit → TextUnit) (hs0 : Canon s.mem.hbm) : Canon (State.onText s die f).mem.hbm := by
  exact hs0
theorem canon_textGo (s : State) (die : Nat) (x2 : Nat) (hs0 : Canon s.mem.hbm) : Canon (State.textGo s die x2).mem.hbm := by
  induction x2 generalizing s with
  | zero => exact hs0
  | succ f ih =>
    unfold State.textGo
    have h1 := fun d => canon_textWork d s hs0
    grind [canon_onText, canon_refuse]
theorem canon_textRun (s : State) (die : Nat) (hs0 : Canon s.mem.hbm) : Canon (State.textRun s die).mem.hbm := by
  unfold State.textRun; grind [canon_textGo]
theorem canon_textCmd (s : State) (d : UnitCmd) (hs0 : Canon s.mem.hbm) : Canon (State.textCmd s d).mem.hbm := by
  unfold State.textCmd; grind [canon_onText, canon_textRun]
theorem canon_missEnd (s : State) (die : Nat) (m : Miss) (ok : Bool) (hs0 : Canon s.mem.hbm) : Canon (State.missEnd s die m ok).mem.hbm := by
  unfold State.missEnd; grind [canon_onText, canon_refuse, canon_textRun]
theorem canon_execTableMiss (die : Nat) (s : State) (hs0 : Canon s.mem.hbm) : OutCanon (execTableMiss die s) := by
  unfold execTableMiss; grind [canon_onText, canon_missEnd, canon_textRun, canon_askWith, OutCanon.next]
theorem canon_missReply (s : State) (die : Nat) (ev : Nat) (ok : Bool) (hs0 : Canon s.mem.hbm) : Canon (State.missReply s die ev ok).mem.hbm := by
  unfold State.missReply; grind [canon_onText]
theorem canon_textOp (f : CF) (op : Instr) (s : State) (hs0 : Canon s.mem.hbm) : OutCanon (textOp f op s) := by
  unfold textOp; grind [canon_textCmd, canon_commitCop, canon_copIssue, OutCanon.next]
theorem canon_execTxnorm (f : CF) (s : State) (hs0 : Canon s.mem.hbm) : OutCanon (execTxnorm f s) := by
  unfold execTxnorm; grind [canon_textOp, OutCanon.next]
theorem canon_execTxenc (f : CF) (s : State) (hs0 : Canon s.mem.hbm) : OutCanon (execTxenc f s) := by
  unfold execTxenc; grind [canon_textOp, OutCanon.next]
theorem canon_execTxdec (f : CF) (s : State) (hs0 : Canon s.mem.hbm) : OutCanon (execTxdec f s) := by
  unfold execTxdec; grind [canon_textOp, OutCanon.next]
theorem canon_execGrload (f : CF) (s : State) (hs0 : Canon s.mem.hbm) : OutCanon (execGrload f s) := by
  unfold execGrload; grind [canon_textOp, OutCanon.next]
theorem canon_execGradv (f : CF) (s : State) (hs0 : Canon s.mem.hbm) : OutCanon (execGradv f s) := by
  unfold execGradv; grind [canon_textOp, OutCanon.next]
theorem canon_execGrmask (f : CF) (s : State) (hs0 : Canon s.mem.hbm) : OutCanon (execGrmask f s) := by
  unfold execGrmask; grind [canon_textOp, OutCanon.next]
theorem canon_execGrstat (f : CF) (s : State) (hs0 : Canon s.mem.hbm) : OutCanon (execGrstat f s) := by
  unfold execGrstat; grind [canon_textOp, OutCanon.next]
theorem canon_execStopset (f : CF) (s : State) (hs0 : Canon s.mem.hbm) : OutCanon (execStopset f s) := by
  unfold execStopset; grind [canon_textOp, OutCanon.next]
theorem canon_execStopchk (f : CF) (s : State) (hs0 : Canon s.mem.hbm) : OutCanon (execStopchk f s) := by
  unfold execStopchk; grind [canon_textOp, OutCanon.next]
theorem canon_endContexts (s : State) (job : Nat) (hs0 : Canon s.mem.hbm) : Canon (State.endContexts s job).mem.hbm := by
  unfold State.endContexts; grind [State.onCore, State.setCore, canon_releaseHandles, canon_dropFlights, Canon.fold, Canon.fold2]
theorem canon_endUnits (s : State) (job : Nat) (hs0 : Canon s.mem.hbm) : Canon (State.endUnits s job).mem.hbm := by
  unfold State.endUnits; grind [State.onVat, State.onComb]
theorem canon_endFabric (s : State) (job : Nat) (hs0 : Canon s.mem.hbm) : Canon (State.endFabric s job).mem.hbm := by
  unfold State.endFabric; grind [State.onFab, canon_voidSlots, canon_poisonJob]
theorem canon_endEvents (s : State) (job : Nat) (hs0 : Canon s.mem.hbm) : Canon (State.endEvents s job).mem.hbm := by
  unfold State.endEvents; grind [canon_unask, canon_missReply, Canon.fold, Canon.fold2]
theorem canon_endMemory (s : State) (j : Job) (hs0 : Canon s.mem.hbm) : Canon (State.endMemory s j).mem.hbm := by
  unfold State.endMemory
  generalize (j.leaves s.mem 0 (2 ^ 57)).filter _ = l
  exact Canon.fold (fun _ _ h => canon_ackHost _ _ _ h) _ (Canon.fold (fun _ _ h => canon_quarantinePage _ _ _ _ h) _ hs0)
theorem canon_endLast (s : State) (j : Job) (hs0 : Canon s.mem.hbm) : Canon (State.endLast s j).mem.hbm := by
  unfold State.endLast; grind [State.onSched, canon_hostGo, canon_ackHost, canon_endEvents, canon_endMemory, Canon.fold, Canon.fold2]
theorem canon_endGo (s : State) (hs0 : Canon s.mem.hbm) : Canon (State.endGo s).mem.hbm := by
  unfold State.endGo; grind [canon_endLast, Canon.fold, Canon.fold2]
theorem canon_endJob (s : State) (job : Nat) (seq : Nat) (hs0 : Canon s.mem.hbm) : Canon (State.endJob s job seq).mem.hbm := by
  unfold State.endJob; grind [canon_onJob, canon_endContexts, canon_ackHost, canon_endUnits, canon_endFabric, canon_endGo, canon_writeBack, Canon.fold, Canon.fold2]
theorem canon_forceOut (s : State) (v : Inval) (hs0 : Canon s.mem.hbm) : Canon (State.forceOut s v).mem.hbm := by
  unfold State.forceOut; grind [canon_releaseHandle, canon_deliver, Canon.fold, Canon.fold2]
theorem canon_invalidate (s : State) (d : Datagram) (hs0 : Canon s.mem.hbm) : Canon (State.invalidate s d).mem.hbm := by
  unfold State.invalidate; grind [State.onMem, canon_hostGo, canon_ackHost, canon_forceOut, Canon.fold, Canon.fold2]
theorem canon_discardRange (s : State) (job : Nat) (va : Nat) (n : Nat) (hs0 : Canon s.mem.hbm) : Canon (State.discardRange s job va n).mem.hbm := by
  unfold State.discardRange; grind [State.onMem, canon_Mem_fill, Canon.fold, Canon.fold2]
theorem canon_installKey (s : State) (d : Datagram) (hs0 : Canon s.mem.hbm) : Canon (State.installKey s d).mem.hbm := by
  unfold State.installKey; grind [State.onFab]
theorem canon_installRoutes (s : State) (l : List Byte) (hs0 : Canon s.mem.hbm) : Canon (State.installRoutes s l).mem.hbm := by
  unfold State.installRoutes; grind [State.onFab, Canon.fold, Canon.fold2]
theorem canon_rdmaDone (s : State) (k : RdmaKey) (ok : Bool) (data : List Byte) (hs0 : Canon s.mem.hbm) : Canon (State.rdmaDone s k ok data).mem.hbm := by
  unfold State.rdmaDone; grind [State.onHost]
theorem canon_rdmaPut (s : State) (job : Nat) (rq : Req) (va : Nat) (l : List Byte) (x5 : Nat) (hs0 : Canon s.mem.hbm) : Canon (State.rdmaPut s job rq va l x5).1.mem.hbm := by
  induction x5 generalizing s va l with
  | zero => exact hs0
  | succ f ih => unfold State.rdmaPut; grind [canon_access, canon_writeHbm, canon_rememberLeaves]
theorem canon_rdmaTry (s : State) (r : Rdma) (hs0 : Canon s.mem.hbm) : Canon (State.rdmaTry s r).1.mem.hbm := by
  unfold State.rdmaTry; grind [canon_rdmaPut, canon_jobCheck, canon_jobRead]
theorem canon_rdmaGo (s : State) (hs0 : Canon s.mem.hbm) : Canon (State.rdmaGo s).mem.hbm := by
  unfold State.rdmaGo; grind [State.onHost, canon_rdmaTry, canon_rdmaDone, Canon.fold, Canon.fold2]
theorem canon_rdma (s : State) (r : Rdma) (hs0 : Canon s.mem.hbm) : Canon (State.rdma s r).mem.hbm := by
  unfold State.rdma; grind [State.onHost, canon_rdmaTry, canon_rdmaDone]
theorem canon_execRdmaWrite (key : RdmaKey) (va : Nat) (data : List Byte) (s : State) (hs0 : Canon s.mem.hbm) : OutCanon (execRdmaWrite key va data s) := by
  unfold execRdmaWrite; grind [canon_rdma, OutCanon.next]
theorem canon_execRdmaRead (key : RdmaKey) (va : Nat) (n : Nat) (s : State) (hs0 : Canon s.mem.hbm) : OutCanon (execRdmaRead key va n s) := by
  unfold execRdmaRead; grind [canon_rdma, OutCanon.next]
theorem canon_execEthernetLinkChange (port : Nat) (up : Bool) (s : State) (hs0 : Canon s.mem.hbm) : OutCanon (execEthernetLinkChange port up s) := by
  unfold execEthernetLinkChange; grind [State.onHost, OutCanon.next]
theorem canon_walkDone (s : State) (w : Walk) (hs0 : Canon s.mem.hbm) : Canon (State.walkDone s w).mem.hbm := by
  unfold State.walkDone; grind [State.onMem, canon_translate, canon_startService, canon_fillCache]
theorem canon_execPageWalk (k : Nat) (s : State) (hs0 : Canon s.mem.hbm) : OutCanon (execPageWalk k s) := by
  unfold execPageWalk; grind [canon_walkDone, OutCanon.next]
theorem canon_serviceEnds (s : State) (v : Service) (status : Nat) (hs0 : Canon s.mem.hbm) : Canon (State.serviceEnds s v status).mem.hbm := by
  unfold State.serviceEnds; grind [State.onMem, canon_hostGo, canon_endGo, canon_rdmaGo, canon_startWalk, canon_schedGo]
theorem canon_serviceGo (s : State) (v : Service) (j : Job) (r : WalkRes) (hs0 : Canon s.mem.hbm) : Canon (State.serviceGo s v j r).mem.hbm := by
  unfold State.serviceGo; grind [canon_serveHw, canon_serviceEnds]
theorem canon_execFaultService (k : Nat) (s : State) (hs0 : Canon s.mem.hbm) : OutCanon (execFaultService k s) := by
  unfold execFaultService; grind [canon_serviceGo, canon_serviceEnds, OutCanon.next]
theorem canon_migStart (s : State) (j : Job) (job : Nat) (va : Nat) (die : Nat) (w : WalkRes) (hs0 : Canon s.mem.hbm) : Canon (State.migStart s j job va die w).mem.hbm := by
  unfold State.migStart; grind [State.onMem, canon_takeFrame, canon_event]
theorem canon_execMigrationThreshold (job : Nat) (va : Nat) (die : Nat) (s : State) (hs0 : Canon s.mem.hbm) : OutCanon (execMigrationThreshold job va die s) := by
  unfold execMigrationThreshold; grind [canon_migStart, OutCanon.next]
theorem canon_unmark (s : State) (g : Mig) (hs0 : Canon s.mem.hbm) : Canon (State.unmark s g).mem.hbm := by
  exact hs0
theorem canon_Mem_move (m : Mem) (job : Nat) (g : Mig) (old : Nat) (new : Nat) (l : List Byte) (hs0 : Canon m.hbm) : Canon (Mem.move m job g old new l).hbm := by
  exact canon_Mem_dropPage _ _ _ _ (canon_Mem_wr64 _ _ _ (Tbl.wf_setRange _ _ hs0))
theorem canon_moved (s : State) (job : Nat) (g : Mig) (old : Nat) (new : Nat) (bad : Bool) (hs0 : Canon s.mem.hbm) : Canon (State.moved s job g old new bad).mem.hbm := by
  unfold State.moved; grind [State.onMem, canon_unmark, canon_Mem_move, canon_quarantine]
theorem canon_execMigration (job : Nat) (va : Nat) (die : Nat) (s : State) (hs0 : Canon s.mem.hbm) : OutCanon (execMigration job va die s) := by
  unfold execMigration
  split
  · exact OutCanon.next hs0
  · dsimp only
    split
    · exact OutCanon.next hs0
    · exact OutCanon.next (canon_endGo _ (canon_schedGo _ (canon_rdmaGo _ (canon_hostGo _ (canon_moved _ _ _ _ _ _ (canon_ecc _ _ _ _ hs0))))))
theorem canon_execAccessCounterHalving (s : State) (hs0 : Canon s.mem.hbm) : OutCanon (execAccessCounterHalving s) := by
  unfold execAccessCounterHalving
  extract_lets stays
  generalize s.gtick / 2 ^ 20 = a
  split
  · exact OutCanon.next hs0
  · exact OutCanon.next (s := s.onMem _) hs0
theorem canon_releaseFrame (s : State) (q : Quar) (hs0 : Canon s.mem.hbm) : Canon (State.releaseFrame s q).mem.hbm := by
  unfold State.releaseFrame; grind [State.onMem, canon_Mem_zero]
theorem canon_execQseqAdvance (s : State) (hs0 : Canon s.mem.hbm) : OutCanon (execQseqAdvance s) := by
  unfold execQseqAdvance; grind [State.onMem, canon_hostGo, canon_releaseFrame, OutCanon.next, Canon.fold, Canon.fold2]
theorem canon_execPatrolScrub (die : Nat) (addr : Nat) (s : State) (hs0 : Canon s.mem.hbm) : OutCanon (execPatrolScrub die addr s) := by
  unfold execPatrolScrub; grind [canon_eccBlock, OutCanon.next]
theorem canon_bootRom (s : State) (hs0 : Canon s.mem.hbm) : Canon (State.bootRom s).mem.hbm := by
  unfold State.bootRom; grind
theorem canon_boot (s : State) (hs0 : Canon s.mem.hbm) : Canon (State.boot s).mem.hbm := by
  unfold State.boot; grind [State.setCore, State.onHost]
theorem canon_checkImage (s : State) (seq : Nat) (hs0 : Canon s.mem.hbm) : Canon (State.checkImage s seq).mem.hbm := by
  unfold State.checkImage; grind [State.onHost, canon_ackHost]
theorem canon_unpowered (s : State) (hs0 : Canon s.mem.hbm) : Canon (State.unpowered s).mem.hbm := by
  unfold State.unpowered
  exact ⟨List.Pairwise.nil, fun e he => absurd he (by simp [State.reset, Mem.empty])⟩
theorem canon_execPowerOn (s : State) (hs0 : Canon s.mem.hbm) : OutCanon (execPowerOn s) := by
  unfold execPowerOn; grind [canon_bootRom, canon_boot, canon_checkImage, OutCanon.next]
theorem canon_execPowerOff (s : State) (hs0 : Canon s.mem.hbm) : OutCanon (execPowerOff s) := by
  unfold execPowerOff; grind [canon_unpowered, OutCanon.next]
theorem canon_imagePart (s : State) (l : List Byte) (seq : Nat) (hs0 : Canon s.mem.hbm) : Canon (State.imagePart s l seq).mem.hbm := by
  unfold State.imagePart; grind [State.onHost, canon_ackHost]
theorem canon_attestation (s : State) (nonce : List Byte) (hs0 : Canon s.mem.hbm) : Canon (State.attestation s nonce).1.mem.hbm := by
  unfold State.attestation; grind [State.onHost]
theorem canon_dropAlone (s : State) (hs0 : Canon s.mem.hbm) : Canon (State.dropAlone s).mem.hbm := by
  unfold State.dropAlone; grind [State.onClk, State.onHost, canon_fall]
theorem canon_limitGo (s : State) (due : Nat) (hs0 : Canon s.mem.hbm) : Canon (State.limitGo s due).mem.hbm := by
  unfold State.limitGo; grind [State.onClk, State.onHost, canon_clkSettle, canon_dropAlone, canon_localChange]
theorem canon_execProtectionLimitChange (r : Sensors) (due : Nat) (s : State) (hs0 : Canon s.mem.hbm) : OutCanon (execProtectionLimitChange r due s) := by
  unfold execProtectionLimitChange; grind [State.onHost, canon_unpowered, canon_limitGo, canon_clkDone, OutCanon.next]
theorem canon_hkWrite (s : State) (a : Nat) (v : Nat) (hs0 : Canon s.mem.hbm) : Canon (State.hkWrite s a v).mem.hbm := by
  unfold State.hkWrite; grind [State.onMem, State.onCtx, State.onHost, State.onCore, State.setCore, canon_clkSettle, canon_limitGo, canon_localChange]
theorem canon_actReply (s : State) (w : Waiting) (reply : Option (List Byte)) (hs0 : Canon s.mem.hbm) : Canon (State.actReply s w reply).mem.hbm := by
  unfold State.actReply; grind [State.onHost, canon_missReply, canon_stampAcked, canon_signalReply, canon_spillReply, canon_serviceEnds, canon_retrainReply, canon_expiryReply, canon_event]
theorem canon_hostReply (s : State) (d : Datagram) (tick : Nat) (hs0 : Canon s.mem.hbm) : Canon (State.hostReply s d tick).mem.hbm := by
  unfold State.hostReply; grind [canon_unask, canon_actReply]
theorem canon_execHostReplyTimeout (s : State) (hs0 : Canon s.mem.hbm) : OutCanon (execHostReplyTimeout s) := by
  unfold execHostReplyTimeout; grind [canon_unask, canon_actReply, OutCanon.next]
theorem canon_applyGram (s : State) (d : Datagram) (tick : Nat) (hs0 : Canon s.mem.hbm) : Canon (State.applyGram s d tick).mem.hbm := by
  unfold State.applyGram
  have h0 : ∀ (t : State) (x : Nat) (l : List Byte), Canon t.mem.hbm → Canon (t.ackHost x l).mem.hbm := fun _ _ _ h => canon_ackHost _ _ _ h
  split
  · exact h0 _ _ _ (canon_launchImage _ _ hs0)
  · exact canon_endJob _ _ _ hs0
  · exact canon_invalidate _ _ hs0
  · exact h0 _ _ _ (canon_discardRange _ _ _ _ hs0)
  · exact h0 _ _ _ (canon_installKey _ _ hs0)
  · exact h0 _ _ _ (canon_installRoutes _ _ hs0)
  · exact canon_killCtx _ _ hs0
  · exact h0 _ _ _ (canon_startCtx _ _ hs0)
  · exact h0 _ _ _ (canon_hkWrite _ _ _ hs0)
  · exact h0 _ _ _ hs0
  · exact h0 _ _ _ (canon_hostReply _ _ _ hs0)
  · exact h0 _ _ _ (canon_attestation _ _ hs0)
  · exact canon_imagePart _ _ _ hs0
  · exact canon_clockGo _ hs0
  · exact canon_sendHost _ _ hs0
theorem canon_drainHeld (s : State) (x1 : Nat) (hs0 : Canon s.mem.hbm) : Canon (State.drainHeld s x1).mem.hbm := by
  induction x1 generalizing s with
  | zero => exact hs0
  | succ f ih => unfold State.drainHeld; grind [canon_applyGram, State.onHost]
theorem canon_ackAgain (s : State) (seq : Nat) (hs0 : Canon s.mem.hbm) : Canon (State.ackAgain s seq).mem.hbm := by
  unfold State.ackAgain; grind [canon_sendHost]
theorem canon_receive (s : State) (d : Datagram) (hs0 : Canon s.mem.hbm) : Canon (State.receive s d).mem.hbm := by
  unfold State.receive
  generalize (d.seq + 2 ^ 32 - s.host.seqNext) % 2 ^ 32 = a
  dsimp only
  by_cases h0 : (!s.host.powered || !s.gramOk d || (s.host.stage != 3 && d.ty != 0x0D && d.ty != 0x0A)) = true
  · rw [if_pos h0]; exact hs0
  · rw [if_neg h0]
    by_cases h1 : a = 0
    · rw [if_pos h1]; exact canon_drainHeld _ _ (canon_applyGram _ _ _ hs0)
    · rw [if_neg h1]
      by_cases h2 : 2 ^ 31 ≤ a
      · rw [if_pos h2]; exact canon_ackAgain _ _ hs0
      · rw [if_neg h2]
        by_cases h3 : (decide (64 ≤ s.host.held.length) || s.host.held.any (fun h => h.1.seq = d.seq)) = true
        · rw [if_pos h3]; exact hs0
        · rw [if_neg h3]; exact hs0
theorem canon_gram (s : State) (ty : Nat) (d : Datagram) (hs0 : Canon s.mem.hbm) : OutCanon (State.gram s ty d) := by
  unfold State.gram; grind [canon_receive, OutCanon.next]
theorem canon_regwrTo (s : State) (d : Datagram) (ok : HkReg → Bool) (hs0 : Canon s.mem.hbm) : OutCanon (State.regwrTo s d ok) := by
  unfold State.regwrTo; grind [canon_receive, OutCanon.next]
theorem canon_execLaunch (d : Datagram) (s : State) (hs0 : Canon s.mem.hbm) : OutCanon (execLaunch d s) := by
  unfold execLaunch; grind [canon_gram, OutCanon.next]
theorem canon_execJobend (d : Datagram) (s : State) (hs0 : Canon s.mem.hbm) : OutCanon (execJobend d s) := by
  unfold execJobend; grind [canon_gram, OutCanon.next]
theorem canon_execInval (d : Datagram) (s : State) (hs0 : Canon s.mem.hbm) : OutCanon (execInval d s) := by
  unfold execInval; grind [canon_gram, OutCanon.next]
theorem canon_execDiscard (d : Datagram) (s : State) (hs0 : Canon s.mem.hbm) : OutCanon (execDiscard d s) := by
  unfold execDiscard; grind [canon_gram, OutCanon.next]
theorem canon_execKey (d : Datagram) (s : State) (hs0 : Canon s.mem.hbm) : OutCanon (execKey d s) := by
  unfold execKey; grind [canon_gram, OutCanon.next]
theorem canon_execRoute (d : Datagram) (s : State) (hs0 : Canon s.mem.hbm) : OutCanon (execRoute d s) := by
  unfold execRoute; grind [canon_gram, OutCanon.next]
theorem canon_execKill (d : Datagram) (s : State) (hs0 : Canon s.mem.hbm) : OutCanon (execKill d s) := by
  unfold execKill; grind [canon_gram, OutCanon.next]
theorem canon_execStart (d : Datagram) (s : State) (hs0 : Canon s.mem.hbm) : OutCanon (execStart d s) := by
  unfold execStart; grind [canon_gram, OutCanon.next]
theorem canon_execRegrd (d : Datagram) (s : State) (hs0 : Canon s.mem.hbm) : OutCanon (execRegrd d s) := by
  unfold execRegrd; grind [canon_gram, OutCanon.next]
theorem canon_execRegwr (d : Datagram) (s : State) (hs0 : Canon s.mem.hbm) : OutCanon (execRegwr d s) := by
  unfold execRegwr; grind [canon_regwrTo, OutCanon.next]
theorem canon_execPcapWrite (d : Datagram) (s : State) (hs0 : Canon s.mem.hbm) : OutCanon (execPcapWrite d s) := by
  unfold execPcapWrite; grind [canon_regwrTo, OutCanon.next]
theorem canon_execHkdutyWrite (d : Datagram) (s : State) (hs0 : Canon s.mem.hbm) : OutCanon (execHkdutyWrite d s) := by
  unfold execHkdutyWrite; grind [canon_regwrTo, OutCanon.next]
theorem canon_execCerrWrite (d : Datagram) (s : State) (hs0 : Canon s.mem.hbm) : OutCanon (execCerrWrite d s) := by
  unfold execCerrWrite; grind [canon_regwrTo, OutCanon.next]
theorem canon_execHkstatWrite (d : Datagram) (s : State) (hs0 : Canon s.mem.hbm) : OutCanon (execHkstatWrite d s) := by
  unfold execHkstatWrite; grind [canon_regwrTo, OutCanon.next]
theorem canon_execReply (d : Datagram) (s : State) (hs0 : Canon s.mem.hbm) : OutCanon (execReply d s) := by
  unfold execReply; grind [canon_gram, OutCanon.next]
theorem canon_execAttest (d : Datagram) (s : State) (hs0 : Canon s.mem.hbm) : OutCanon (execAttest d s) := by
  unfold execAttest; grind [canon_gram, OutCanon.next]
theorem canon_execImage (d : Datagram) (s : State) (hs0 : Canon s.mem.hbm) : OutCanon (execImage d s) := by
  unfold execImage; grind [canon_gram, OutCanon.next]
theorem canon_execClock (d : Datagram) (s : State) (hs0 : Canon s.mem.hbm) : OutCanon (execClock d s) := by
  unfold execClock; grind [canon_gram, OutCanon.next]
theorem canon_execDatagramReorder (d : Datagram) (s : State) (hs0 : Canon s.mem.hbm) : OutCanon (execDatagramReorder d s) := by
  unfold execDatagramReorder; grind [canon_receive, OutCanon.next]
theorem canon_execTaskComplete (c : Nat) (s : State) (hs0 : Canon s.mem.hbm) : OutCanon (execTaskComplete c s) := by
  unfold execTaskComplete; grind [State.onCore, State.setCore, canon_toFatal, canon_logKind, canon_taskEnds, canon_endRequest, OutCanon.next]
theorem canon_handoff (s : State) (c : Nat) (hs0 : Canon s.mem.hbm) : Canon (State.handoff s c).mem.hbm := by
  unfold State.handoff; grind [canon_handOver, canon_restoreTry]
theorem canon_execTaskHandoff (c : Nat) (s : State) (hs0 : Canon s.mem.hbm) : OutCanon (execTaskHandoff c s) := by
  unfold execTaskHandoff; grind [canon_handoff, OutCanon.next]
theorem canon_execTimedBlockLaunch (c : Nat) (job : Nat) (node : Nat) (s : State) (hs0 : Canon s.mem.hbm) : OutCanon (execTimedBlockLaunch c job node s) := by
  unfold execTimedBlockLaunch; grind [canon_handoff, OutCanon.next]
theorem canon_execCopReplyLand (c : Nat) (i : Nat) (s : State) (hs0 : Canon s.mem.hbm) : OutCanon (execCopReplyLand c i s) := by
  unfold execCopReplyLand; grind [canon_textRun, canon_winGo, canon_combGo, canon_landReply, OutCanon.next, Canon.fold, Canon.fold2]
theorem canon_execBundleIssue (c : Nat) (s : State) (hs0 : Canon s.mem.hbm) : OutCanon (execBundleIssue c s) := by
  unfold execBundleIssue; grind [canon_beginIssue, OutCanon.next]
theorem canon_execLockstepResultLand (c : Nat) (s : State) (hs0 : Canon s.mem.hbm) : OutCanon (execLockstepResultLand c s) := by
  unfold execLockstepResultLand; grind [canon_endIssue, OutCanon.next]
theorem canon_turn (s : State) (hs0 : Canon s.mem.hbm) : Canon (State.turn s).mem.hbm := by
  exact hs0

end Sys2Proof.Machine
end

