-- ==== Sys2Proof/Laws/Exec.lean ====
section
/-! SUPPORT. The meaning that each instruction has, one equation each. -/
set_option Elab.async false
namespace Sys2Proof.Machine

@[simp] theorem exec_bundleIssue c s : exec (.bundleIssue c) s = execBundleIssue c s := rfl
@[simp] theorem exec_lockstepResultLand c s : exec (.lockstepResultLand c) s = execLockstepResultLand c s := rfl
@[simp] theorem exec_loadLand c k s : exec (.loadLand c k) s = execLoadLand c k s := rfl
@[simp] theorem exec_copReplyLand c k s : exec (.copReplyLand c k) s = execCopReplyLand c k s := rfl
@[simp] theorem exec_commandStart c q s : exec (.commandStart c q) s = execCommandStart c q s := rfl
@[simp] theorem exec_commandRetire c q k s : exec (.commandRetire c q k) s = execCommandRetire c q k s := rfl
@[simp] theorem exec_mrunPanelReady c n s : exec (.mrunPanelReady c n) s = execMrunPanelReady c n s := rfl
@[simp] theorem exec_copyGranuleComplete c q k g s : exec (.copyGranuleComplete c q k g) s = execCopyGranuleComplete c q k g s := rfl
@[simp] theorem exec_rasRefill c s : exec (.rasRefill c) s = execRasRefill c s := rfl
@[simp] theorem exec_trapEntry c s : exec (.trapEntry c) s = execTrapEntry c s := rfl
@[simp] theorem exec_trapReturn c s : exec (.trapReturn c) s = execTrapReturn c s := rfl
@[simp] theorem exec_preemptionRequest c slot s : exec (.preemptionRequest c slot) s = execPreemptionRequest c slot s := rfl
@[simp] theorem exec_deadlineExpiry c s : exec (.deadlineExpiry c) s = execDeadlineExpiry c s := rfl
@[simp] theorem exec_forcedSave c s : exec (.forcedSave c) s = execForcedSave c s := rfl
@[simp] theorem exec_cooperativeSave c s : exec (.cooperativeSave c) s = execCooperativeSave c s := rfl
@[simp] theorem exec_restore c k s : exec (.restore c k) s = execRestore c k s := rfl
@[simp] theorem exec_hangWatchdogExpiry c s : exec (.hangWatchdogExpiry c) s = execHangWatchdogExpiry c s := rfl
@[simp] theorem exec_fatalContextError c s : exec (.fatalContextError c) s = execFatalContextError c s := rfl
@[simp] theorem exec_taskComplete c s : exec (.taskComplete c) s = execTaskComplete c s := rfl
@[simp] theorem exec_taskHandoff c s : exec (.taskHandoff c) s = execTaskHandoff c s := rfl
@[simp] theorem exec_timedBlockLaunch c job node s : exec (.timedBlockLaunch c job node) s = execTimedBlockLaunch c job node s := rfl
@[simp] theorem exec_nodeRetire job node s : exec (.nodeRetire job node) s = execNodeRetire job node s := rfl
@[simp] theorem exec_branchNodeDecide job node s : exec (.branchNodeDecide job node) s = execBranchNodeDecide job node s := rfl
@[simp] theorem exec_hostSignalNode job node s : exec (.hostSignalNode job node) s = execHostSignalNode job node s := rfl
@[simp] theorem exec_faultStampSpread s : exec (.faultStampSpread) s = execFaultStampSpread s := rfl
@[simp] theorem exec_jobComplete s : exec (.jobComplete) s = execJobComplete s := rfl
@[simp] theorem exec_pageWalk k s : exec (.pageWalk k) s = execPageWalk k s := rfl
@[simp] theorem exec_faultService k s : exec (.faultService k) s = execFaultService k s := rfl
@[simp] theorem exec_hostReplyTimeout s : exec (.hostReplyTimeout) s = execHostReplyTimeout s := rfl
@[simp] theorem exec_migration job va die s : exec (.migration job va die) s = execMigration job va die s := rfl
@[simp] theorem exec_migrationThreshold job va die s : exec (.migrationThreshold job va die) s = execMigrationThreshold job va die s := rfl
@[simp] theorem exec_accessCounterHalving s : exec (.accessCounterHalving) s = execAccessCounterHalving s := rfl
@[simp] theorem exec_qseqAdvance s : exec (.qseqAdvance) s = execQseqAdvance s := rfl
@[simp] theorem exec_patrolScrub die addr s : exec (.patrolScrub die addr) s = execPatrolScrub die addr s := rfl
@[simp] theorem exec_firingDecision s : exec (.firingDecision) s = execFiringDecision s := rfl
@[simp] theorem exec_vatSpillStep s : exec (.vatSpillStep) s = execVatSpillStep s := rfl
@[simp] theorem exec_vatRefill v s : exec (.vatRefill v) s = execVatRefill v s := rfl
@[simp] theorem exec_spillRequest v s : exec (.spillRequest v) s = execSpillRequest v s := rfl
@[simp] theorem exec_remoteEnqueue s : exec (.remoteEnqueue) s = execRemoteEnqueue s := rfl
@[simp] theorem exec_remotePut s : exec (.remotePut) s = execRemotePut s := rfl
@[simp] theorem exec_packetAccept port p s : exec (.packetAccept port p) s = execPacketAccept port p s := rfl
@[simp] theorem exec_packetCommit k s : exec (.packetCommit k) s = execPacketCommit k s := rfl
@[simp] theorem exec_packetForward port p s : exec (.packetForward port p) s = execPacketForward port p s := rfl
@[simp] theorem exec_holdRelease s : exec (.holdRelease) s = execHoldRelease s := rfl
@[simp] theorem exec_holdDropVoid s : exec (.holdDropVoid) s = execHoldDropVoid s := rfl
@[simp] theorem exec_windowTimeout s : exec (.windowTimeout) s = execWindowTimeout s := rfl
@[simp] theorem exec_ack p s : exec (.ack p) s = execAck p s := rfl
@[simp] theorem exec_nack p s : exec (.nack p) s = execNack p s := rfl
@[simp] theorem exec_landed p s : exec (.landed p) s = execLanded p s := rfl
@[simp] theorem exec_query p s : exec (.query p) s = execQuery p s := rfl
@[simp] theorem exec_release p s : exec (.release p) s = execRelease p s := rfl
@[simp] theorem exec_notice p s : exec (.notice p) s = execNotice p s := rfl
@[simp] theorem exec_retransmitTimeout s : exec (.retransmitTimeout) s = execRetransmitTimeout s := rfl
@[simp] theorem exec_packetAbandon s : exec (.packetAbandon) s = execPacketAbandon s := rfl
@[simp] theorem exec_holdExpiry s : exec (.holdExpiry) s = execHoldExpiry s := rfl
@[simp] theorem exec_originSlotExpiry s : exec (.originSlotExpiry) s = execOriginSlotExpiry s := rfl
@[simp] theorem exec_watermarkSlotFree s : exec (.watermarkSlotFree) s = execWatermarkSlotFree s := rfl
@[simp] theorem exec_queryResend s : exec (.queryResend) s = execQueryResend s := rfl
@[simp] theorem exec_settledCacheExpiry s : exec (.settledCacheExpiry) s = execSettledCacheExpiry s := rfl
@[simp] theorem exec_fecUncorrectable port s : exec (.fecUncorrectable port) s = execFecUncorrectable port s := rfl
@[simp] theorem exec_trainingRecord port r s : exec (.trainingRecord port r) s = execTrainingRecord port r s := rfl
@[simp] theorem exec_retrainTimer s : exec (.retrainTimer) s = execRetrainTimer s := rfl
@[simp] theorem exec_sync m s : exec (.sync m) s = execSync m s := rfl
@[simp] theorem exec_ceil m s : exec (.ceil m) s = execCeil m s := rfl
@[simp] theorem exec_raise m s : exec (.raise m) s = execRaise m s := rfl
@[simp] theorem exec_confirm m s : exec (.confirm m) s = execConfirm m s := rfl
@[simp] theorem exec_join m s : exec (.join m) s = execJoin m s := rfl
@[simp] theorem exec_admitted m s : exec (.admitted m) s = execAdmit m s := rfl
@[simp] theorem exec_leave m s : exec (.leave m) s = execLeave m s := rfl
@[simp] theorem exec_silent m s : exec (.silent m) s = execSilent m s := rfl
@[simp] theorem exec_evict m s : exec (.evict m) s = execEvict m s := rfl
@[simp] theorem exec_heartbeatTimer s : exec (.heartbeatTimer) s = execHeartbeatTimer s := rfl
@[simp] theorem exec_silenceTimeout s : exec (.silenceTimeout) s = execSilenceTimeout s := rfl
@[simp] theorem exec_evictionTimeout s : exec (.evictionTimeout) s = execEvictionTimeout s := rfl
@[simp] theorem exec_confirmationRetry s : exec (.confirmationRetry) s = execConfirmationRetry s := rfl
@[simp] theorem exec_joinTimeout s : exec (.joinTimeout) s = execJoinTimeout s := rfl
@[simp] theorem exec_ceilingEffective s : exec (.ceilingEffective) s = execCeilingEffective s := rfl
@[simp] theorem exec_protectionLimitChange code due s : exec (.protectionLimitChange code due) s = execProtectionLimitChange code due s := rfl
@[simp] theorem exec_powerOn s : exec (.powerOn) s = execPowerOn s := rfl
@[simp] theorem exec_powerOff s : exec (.powerOff) s = execPowerOff s := rfl
@[simp] theorem exec_launch d s : exec (.launch d) s = execLaunch d s := rfl
@[simp] theorem exec_jobend d s : exec (.jobend d) s = execJobend d s := rfl
@[simp] theorem exec_inval d s : exec (.inval d) s = execInval d s := rfl
@[simp] theorem exec_discard d s : exec (.discard d) s = execDiscard d s := rfl
@[simp] theorem exec_key d s : exec (.key d) s = execKey d s := rfl
@[simp] theorem exec_route d s : exec (.route d) s = execRoute d s := rfl
@[simp] theorem exec_kill d s : exec (.kill d) s = execKill d s := rfl
@[simp] theorem exec_start d s : exec (.start d) s = execStart d s := rfl
@[simp] theorem exec_regrd d s : exec (.regrd d) s = execRegrd d s := rfl
@[simp] theorem exec_regwr d s : exec (.regwr d) s = execRegwr d s := rfl
@[simp] theorem exec_pcapWrite d s : exec (.pcapWrite d) s = execPcapWrite d s := rfl
@[simp] theorem exec_hkdutyWrite d s : exec (.hkdutyWrite d) s = execHkdutyWrite d s := rfl
@[simp] theorem exec_cerrWrite d s : exec (.cerrWrite d) s = execCerrWrite d s := rfl
@[simp] theorem exec_hkstatWrite d s : exec (.hkstatWrite d) s = execHkstatWrite d s := rfl
@[simp] theorem exec_reply d s : exec (.reply d) s = execReply d s := rfl
@[simp] theorem exec_attest d s : exec (.attest d) s = execAttest d s := rfl
@[simp] theorem exec_image d s : exec (.image d) s = execImage d s := rfl
@[simp] theorem exec_clock d s : exec (.clock d) s = execClock d s := rfl
@[simp] theorem exec_datagramReorder d s : exec (.datagramReorder d) s = execDatagramReorder d s := rfl
@[simp] theorem exec_rdmaWrite job va data s : exec (.rdmaWrite job va data) s = execRdmaWrite job va data s := rfl
@[simp] theorem exec_rdmaRead job va n s : exec (.rdmaRead job va n) s = execRdmaRead job va n s := rfl
@[simp] theorem exec_tableMiss unit s : exec (.tableMiss unit) s = execTableMiss unit s := rfl
@[simp] theorem exec_add f s : exec (.add f) s = execAdd f s := rfl
@[simp] theorem exec_sub f s : exec (.sub f) s = execSub f s := rfl
@[simp] theorem exec_and f s : exec (.and f) s = execAnd f s := rfl
@[simp] theorem exec_or f s : exec (.or f) s = execOr f s := rfl
@[simp] theorem exec_xor f s : exec (.xor f) s = execXor f s := rfl
@[simp] theorem exec_andn f s : exec (.andn f) s = execAndn f s := rfl
@[simp] theorem exec_shl f s : exec (.shl f) s = execShl f s := rfl
@[simp] theorem exec_shr f s : exec (.shr f) s = execShr f s := rfl
@[simp] theorem exec_sar f s : exec (.sar f) s = execSar f s := rfl
@[simp] theorem exec_rol f s : exec (.rol f) s = execRol f s := rfl
@[simp] theorem exec_mul f s : exec (.mul f) s = execMul f s := rfl
@[simp] theorem exec_mulh f s : exec (.mulh f) s = execMulh f s := rfl
@[simp] theorem exec_mulhu f s : exec (.mulhu f) s = execMulhu f s := rfl
@[simp] theorem exec_div f s : exec (.div f) s = execDiv f s := rfl
@[simp] theorem exec_divu f s : exec (.divu f) s = execDivu f s := rfl
@[simp] theorem exec_rem f s : exec (.rem f) s = execRem f s := rfl
@[simp] theorem exec_remu f s : exec (.remu f) s = execRemu f s := rfl
@[simp] theorem exec_min f s : exec (.min f) s = execMin f s := rfl
@[simp] theorem exec_max f s : exec (.max f) s = execMax f s := rfl
@[simp] theorem exec_minu f s : exec (.minu f) s = execMinu f s := rfl
@[simp] theorem exec_maxu f s : exec (.maxu f) s = execMaxu f s := rfl
@[simp] theorem exec_clz f s : exec (.clz f) s = execClz f s := rfl
@[simp] theorem exec_ctz f s : exec (.ctz f) s = execCtz f s := rfl
@[simp] theorem exec_popc f s : exec (.popc f) s = execPopc f s := rfl
@[simp] theorem exec_sext f s : exec (.sext f) s = execSext f s := rfl
@[simp] theorem exec_zext f s : exec (.zext f) s = execZext f s := rfl
@[simp] theorem exec_sel f s : exec (.sel f) s = execSel f s := rfl
@[simp] theorem exec_addi f s : exec (.addi f) s = execAddi f s := rfl
@[simp] theorem exec_andi f s : exec (.andi f) s = execAndi f s := rfl
@[simp] theorem exec_ori f s : exec (.ori f) s = execOri f s := rfl
@[simp] theorem exec_xori f s : exec (.xori f) s = execXori f s := rfl
@[simp] theorem exec_shli f s : exec (.shli f) s = execShli f s := rfl
@[simp] theorem exec_shri f s : exec (.shri f) s = execShri f s := rfl
@[simp] theorem exec_sari f s : exec (.sari f) s = execSari f s := rfl
@[simp] theorem exec_ldi f s : exec (.ldi f) s = execLdi f s := rfl
@[simp] theorem exec_ldih f s : exec (.ldih f) s = execLdih f s := rfl
@[simp] theorem exec_cmpi f s : exec (.cmpi f) s = execCmpi f s := rfl
@[simp] theorem exec_cmp f s : exec (.cmp f) s = execCmp f s := rfl
@[simp] theorem exec_pand f s : exec (.pand f) s = execPand f s := rfl
@[simp] theorem exec_por f s : exec (.por f) s = execPor f s := rfl
@[simp] theorem exec_pxor f s : exec (.pxor f) s = execPxor f s := rfl
@[simp] theorem exec_pnot f s : exec (.pnot f) s = execPnot f s := rfl
@[simp] theorem exec_pset f s : exec (.pset f) s = execPset f s := rfl
@[simp] theorem exec_pinv f s : exec (.pinv f) s = execPinv f s := rfl
@[simp] theorem exec_jmpr f s : exec (.jmpr f) s = execJmpr f s := rfl
@[simp] theorem exec_call f s : exec (.call f) s = execCall f s := rfl
@[simp] theorem exec_callr f s : exec (.callr f) s = execCallr f s := rfl
@[simp] theorem exec_ret f s : exec (.ret f) s = execRet f s := rfl
@[simp] theorem exec_loop f s : exec (.loop f) s = execLoop f s := rfl
@[simp] theorem exec_loopx f s : exec (.loopx f) s = execLoopx f s := rfl
@[simp] theorem exec_trap f s : exec (.trap f) s = execTrap f s := rfl
@[simp] theorem exec_yield f s : exec (.yield f) s = execYield f s := rfl
@[simp] theorem exec_tend f s : exec (.tend f) s = execTend f s := rfl
@[simp] theorem exec_waittask f s : exec (.waittask f) s = execWaittask f s := rfl
@[simp] theorem exec_gets f s : exec (.gets f) s = execGets f s := rfl
@[simp] theorem exec_sets f s : exec (.sets f) s = execSets f s := rfl
@[simp] theorem exec_blend f s : exec (.blend f) s = execBlend f s := rfl
@[simp] theorem exec_tmirror f s : exec (.tmirror f) s = execTmirror f s := rfl
@[simp] theorem exec_portcfg f s : exec (.portcfg f) s = execPortcfg f s := rfl
@[simp] theorem exec_ringcfg f s : exec (.ringcfg f) s = execRingcfg f s := rfl
@[simp] theorem exec_ld f s : exec (.ld f) s = execLd f s := rfl
@[simp] theorem exec_st f s : exec (.st f) s = execSt f s := rfl
@[simp] theorem exec_lds f s : exec (.lds f) s = execLds f s := rfl
@[simp] theorem exec_sts f s : exec (.sts f) s = execSts f s := rfl
@[simp] theorem exec_atom f s : exec (.atom f) s = execAtom f s := rfl
@[simp] theorem exec_fence f s : exec (.fence f) s = execFence f s := rfl
@[simp] theorem exec_trn f s : exec (.trn f) s = execTrn f s := rfl
@[simp] theorem exec_hrel f s : exec (.hrel f) s = execHrel f s := rfl
@[simp] theorem exec_hinfo f s : exec (.hinfo f) s = execHinfo f s := rfl
@[simp] theorem exec_probe f s : exec (.probe f) s = execProbe f s := rfl
@[simp] theorem exec_rand f s : exec (.rand f) s = execRand f s := rfl
@[simp] theorem exec_semsig f s : exec (.semsig f) s = execSemsig f s := rfl
@[simp] theorem exec_semwait f s : exec (.semwait f) s = execSemwait f s := rfl
@[simp] theorem exec_semset f s : exec (.semset f) s = execSemset f s := rfl
@[simp] theorem exec_taskq f s : exec (.taskq f) s = execTaskq f s := rfl
@[simp] theorem exec_tclaim f s : exec (.tclaim f) s = execTclaim f s := rfl
@[simp] theorem exec_twait f s : exec (.twait f) s = execTwait f s := rfl
@[simp] theorem exec_block f s : exec (.block f) s = execBlock f s := rfl
@[simp] theorem exec_fst f s : exec (.fst f) s = execFst f s := rfl
@[simp] theorem exec_fatom f s : exec (.fatom f) s = execFatom f s := rfl
@[simp] theorem exec_fred f s : exec (.fred f) s = execFred f s := rfl
@[simp] theorem exec_wmwait f s : exec (.wmwait f) s = execWmwait f s := rfl
@[simp] theorem exec_wmtest f s : exec (.wmtest f) s = execWmtest f s := rfl
@[simp] theorem exec_vadd f s : exec (.vadd f) s = execVadd f s := rfl
@[simp] theorem exec_vsub f s : exec (.vsub f) s = execVsub f s := rfl
@[simp] theorem exec_vmul f s : exec (.vmul f) s = execVmul f s := rfl
@[simp] theorem exec_vfma f s : exec (.vfma f) s = execVfma f s := rfl
@[simp] theorem exec_vfms f s : exec (.vfms f) s = execVfms f s := rfl
@[simp] theorem exec_vmax f s : exec (.vmax f) s = execVmax f s := rfl
@[simp] theorem exec_vmin f s : exec (.vmin f) s = execVmin f s := rfl
@[simp] theorem exec_vabs f s : exec (.vabs f) s = execVabs f s := rfl
@[simp] theorem exec_vneg f s : exec (.vneg f) s = execVneg f s := rfl
@[simp] theorem exec_vrcp f s : exec (.vrcp f) s = execVrcp f s := rfl
@[simp] theorem exec_vrsq f s : exec (.vrsq f) s = execVrsq f s := rfl
@[simp] theorem exec_vexp2 f s : exec (.vexp2 f) s = execVexp2 f s := rfl
@[simp] theorem exec_vlog2 f s : exec (.vlog2 f) s = execVlog2 f s := rfl
@[simp] theorem exec_vand f s : exec (.vand f) s = execVand f s := rfl
@[simp] theorem exec_vor f s : exec (.vor f) s = execVor f s := rfl
@[simp] theorem exec_vxor f s : exec (.vxor f) s = execVxor f s := rfl
@[simp] theorem exec_vshl f s : exec (.vshl f) s = execVshl f s := rfl
@[simp] theorem exec_vshr f s : exec (.vshr f) s = execVshr f s := rfl
@[simp] theorem exec_vsar f s : exec (.vsar f) s = execVsar f s := rfl
@[simp] theorem exec_vcmp f s : exec (.vcmp f) s = execVcmp f s := rfl
@[simp] theorem exec_vsel f s : exec (.vsel f) s = execVsel f s := rfl
@[simp] theorem exec_vtest f s : exec (.vtest f) s = execVtest f s := rfl
@[simp] theorem exec_vcvt f s : exec (.vcvt f) s = execVcvt f s := rfl
@[simp] theorem exec_vqmx f s : exec (.vqmx f) s = execVqmx f s := rfl
@[simp] theorem exec_vdqmx f s : exec (.vdqmx f) s = execVdqmx f s := rfl
@[simp] theorem exec_vpack f s : exec (.vpack f) s = execVpack f s := rfl
@[simp] theorem exec_vunpack f s : exec (.vunpack f) s = execVunpack f s := rfl
@[simp] theorem exec_vrsum f s : exec (.vrsum f) s = execVrsum f s := rfl
@[simp] theorem exec_vrmax f s : exec (.vrmax f) s = execVrmax f s := rfl
@[simp] theorem exec_vrmin f s : exec (.vrmin f) s = execVrmin f s := rfl
@[simp] theorem exec_vargmax f s : exec (.vargmax f) s = execVargmax f s := rfl
@[simp] theorem exec_vscan f s : exec (.vscan f) s = execVscan f s := rfl
@[simp] theorem exec_vbcast f s : exec (.vbcast f) s = execVbcast f s := rfl
@[simp] theorem exec_vshuf f s : exec (.vshuf f) s = execVshuf f s := rfl
@[simp] theorem exec_vrot f s : exec (.vrot f) s = execVrot f s := rfl
@[simp] theorem exec_vcompress f s : exec (.vcompress f) s = execVcompress f s := rfl
@[simp] theorem exec_vmov f s : exec (.vmov f) s = execVmov f s := rfl
@[simp] theorem exec_vrand f s : exec (.vrand f) s = execVrand f s := rfl
@[simp] theorem exec_mmould f s : exec (.mmould f) s = execMmould f s := rfl
@[simp] theorem exec_mflow f s : exec (.mflow f) s = execMflow f s := rfl
@[simp] theorem exec_minit f s : exec (.minit f) s = execMinit f s := rfl
@[simp] theorem exec_mrun f s : exec (.mrun f) s = execMrun f s := rfl
@[simp] theorem exec_mruns f s : exec (.mruns f) s = execMruns f s := rfl
@[simp] theorem exec_mdrain f s : exec (.mdrain f) s = execMdrain f s := rfl
@[simp] theorem exec_msave f s : exec (.msave f) s = execMsave f s := rfl
@[simp] theorem exec_mrest f s : exec (.mrest f) s = execMrest f s := rfl
@[simp] theorem exec_mpop f s : exec (.mpop f) s = execMpop f s := rfl
@[simp] theorem exec_mwait f s : exec (.mwait f) s = execMwait f s := rfl
@[simp] theorem exec_cpy f s : exec (.cpy f) s = execCpy f s := rfl
@[simp] theorem exec_cpyt f s : exec (.cpyt f) s = execCpyt f s := rfl
@[simp] theorem exec_cgath f s : exec (.cgath f) s = execCgath f s := rfl
@[simp] theorem exec_cscat f s : exec (.cscat f) s = execCscat f s := rfl
@[simp] theorem exec_cbind f s : exec (.cbind f) s = execCbind f s := rfl
@[simp] theorem exec_cring f s : exec (.cring f) s = execCring f s := rfl
@[simp] theorem exec_cbcast f s : exec (.cbcast f) s = execCbcast f s := rfl
@[simp] theorem exec_cfill f s : exec (.cfill f) s = execCfill f s := rfl
@[simp] theorem exec_carm f s : exec (.carm f) s = execCarm f s := rfl
@[simp] theorem exec_cwait f s : exec (.cwait f) s = execCwait f s := rfl
@[simp] theorem exec_vtcfg f s : exec (.vtcfg f) s = execVtcfg f s := rfl
@[simp] theorem exec_vtenq f s : exec (.vtenq f) s = execVtenq f s := rfl
@[simp] theorem exec_vtfire f s : exec (.vtfire f) s = execVtfire f s := rfl
@[simp] theorem exec_vtstat f s : exec (.vtstat f) s = execVtstat f s := rfl
@[simp] theorem exec_vtclose f s : exec (.vtclose f) s = execVtclose f s := rfl
@[simp] theorem exec_cbset f s : exec (.cbset f) s = execCbset f s := rfl
@[simp] theorem exec_cbput f s : exec (.cbput f) s = execCbput f s := rfl
@[simp] theorem exec_cbstat f s : exec (.cbstat f) s = execCbstat f s := rfl
@[simp] theorem exec_txnorm f s : exec (.txnorm f) s = execTxnorm f s := rfl
@[simp] theorem exec_txenc f s : exec (.txenc f) s = execTxenc f s := rfl
@[simp] theorem exec_txdec f s : exec (.txdec f) s = execTxdec f s := rfl
@[simp] theorem exec_grload f s : exec (.grload f) s = execGrload f s := rfl
@[simp] theorem exec_gradv f s : exec (.gradv f) s = execGradv f s := rfl
@[simp] theorem exec_grmask f s : exec (.grmask f) s = execGrmask f s := rfl
@[simp] theorem exec_grstat f s : exec (.grstat f) s = execGrstat f s := rfl
@[simp] theorem exec_stopset f s : exec (.stopset f) s = execStopset f s := rfl
@[simp] theorem exec_stopchk f s : exec (.stopchk f) s = execStopchk f s := rfl
@[simp] theorem exec_cljoin f s : exec (.cljoin f) s = execCljoin f s := rfl
@[simp] theorem exec_clleave f s : exec (.clleave f) s = execClleave f s := rfl
@[simp] theorem exec_clstat f s : exec (.clstat f) s = execClstat f s := rfl
@[simp] theorem exec_clceil f s : exec (.clceil f) s = execClceil f s := rfl
@[simp] theorem exec_fwin f s : exec (.fwin f) s = execFwin f s := rfl
@[simp] theorem exec_fwstat f s : exec (.fwstat f) s = execFwstat f s := rfl
@[simp] theorem exec_fwclose f s : exec (.fwclose f) s = execFwclose f s := rfl
@[simp] theorem exec_storePerformed c k s : exec (.storePerformed c k) s = execStorePerformed c k s := rfl
@[simp] theorem exec_wmwaitExpiry s : exec (.wmwaitExpiry) s = execWmwaitExpiry s := rfl
@[simp] theorem exec_fabricPayloadRead c k s : exec (.fabricPayloadRead c k) s = execFabricPayloadRead c k s := rfl
@[simp] theorem exec_fredLaunchTick c s : exec (.fredLaunchTick c) s = execFredLaunchTick c s := rfl
@[simp] theorem exec_abandonNoticeResend s : exec (.abandonNoticeResend) s = execAbandonNoticeResend s := rfl
@[simp] theorem exec_streamIdleExpiry s : exec (.streamIdleExpiry) s = execStreamIdleExpiry s := rfl
@[simp] theorem exec_linkDown port s : exec (.linkDown port) s = execLinkDown port s := rfl
@[simp] theorem exec_outOfStepTimeout s : exec (.outOfStepTimeout) s = execOutOfStepTimeout s := rfl
@[simp] theorem exec_ethernetLinkChange port up s : exec (.ethernetLinkChange port up) s = execEthernetLinkChange port up s := rfl

end Sys2Proof.Machine
end

