-- ==== Sys2Proof/Laws/Lanes.lean ====
section
/-! SUPPORT. Reading back the lanes of a row that was packed from a list. -/
namespace Sys2Proof.Machine

theorem packNat_lane (w : Nat) (hw : 0 < w) (l : List Nat) (i : Nat) (h : i < l.length) :
    l.foldr (fun v acc => acc * 2 ^ w + v % 2 ^ w) 0 / 2 ^ (w * i) % 2 ^ w = l[i] % 2 ^ w := by
  induction l generalizing i with
  | nil => simp at h
  | cons v r ih =>
    have hp : 0 < 2 ^ w := Nat.two_pow_pos w
    have hv := Nat.mod_lt v hp
    cases i with
    | zero =>
      simp only [List.foldr_cons, Nat.mul_zero, Nat.pow_zero, Nat.div_one, List.getElem_cons_zero]
      rw [Nat.mul_comm, Nat.mul_add_mod, Nat.mod_mod]
    | succ i =>
      simp only [List.foldr_cons, List.getElem_cons_succ]
      rw [Nat.mul_add, Nat.mul_one, Nat.add_comm (w * i) w, Nat.pow_add, ← Nat.div_div_eq_div_mul, Nat.mul_comm _ (2 ^ w),
        Nat.mul_add_div hp, Nat.div_eq_of_lt hv, Nat.add_zero]
      exact ih i (by simpa using h)

/-- Lane `i` of a packed list that fits the row is its `i`-th value, cut to the width. -/
theorem lane_packLanes (w : Nat) (hw : 0 < w) (l : List Nat) (i : Nat) (h : i < l.length) (hi : w * (i + 1) ≤ 2048) :
    lane w (packLanes w l) i = l[i] % 2 ^ w := by
  unfold lane packLanes
  rw [BitVec.toNat_ushiftRight, BitVec.toNat_ofNat, Nat.shiftRight_eq_div_pow, ← packNat_lane w hw l i h]
  have e : 2 ^ 2048 = 2 ^ (w * i) * (2 ^ w * 2 ^ (2048 - w * (i + 1))) := by
    rw [← Nat.pow_add, ← Nat.pow_add]; congr 1; rw [Nat.mul_add] at hi ⊢; omega
  rw [e, Nat.mod_mul_right_div_self, Nat.mod_mul_right_mod]

theorem lane_genLanes (w n : Nat) (g : Nat → Nat × Flags) (hw : 0 < w) (i : Nat) (h : i < n) (hn : w * n ≤ 2048) :
    lane w (genLanes w n g).1 i = (g i).1 % 2 ^ w := by
  have := lane_packLanes w hw ((List.range n).map (fun i => (g i).1)) i (by simpa using h)
    (Nat.le_trans (Nat.mul_le_mul_left w h) hn)
  simpa [genLanes, List.map_map, Function.comp_def] using this

end Sys2Proof.Machine
end

