-- ==== Sys2Proof/Laws/State.lean ====
section
/-! SUPPORT. What each update of the state leaves in each field: one lemma per field per update, and what the accessors of a
core read after an update of a core. -/
namespace Sys2Proof.Machine

/-! ### The module's parts -/

@[simp] theorem State.onMem_gtick (s : State) (f : Mem → Mem) : (s.onMem f).gtick = s.gtick := rfl
@[simp] theorem State.onMem_cores (s : State) (f : Mem → Mem) : (s.onMem f).cores = s.cores := rfl
@[simp] theorem State.onMem_semC (s : State) (f : Mem → Mem) : (s.onMem f).semC = s.semC := rfl
@[simp] theorem State.onMem_semOwner (s : State) (f : Mem → Mem) : (s.onMem f).semOwner = s.semOwner := rfl
@[simp] theorem State.onMem_mem (s : State) (f : Mem → Mem) : (s.onMem f).mem = f s.mem := rfl
@[simp] theorem State.onMem_sched (s : State) (f : Mem → Mem) : (s.onMem f).sched = s.sched := rfl
@[simp] theorem State.onMem_vat (s : State) (f : Mem → Mem) : (s.onMem f).vat = s.vat := rfl
@[simp] theorem State.onMem_comb (s : State) (f : Mem → Mem) : (s.onMem f).comb = s.comb := rfl
@[simp] theorem State.onMem_text (s : State) (f : Mem → Mem) : (s.onMem f).text = s.text := rfl
@[simp] theorem State.onMem_fab (s : State) (f : Mem → Mem) : (s.onMem f).fab = s.fab := rfl
@[simp] theorem State.onMem_clk (s : State) (f : Mem → Mem) : (s.onMem f).clk = s.clk := rfl
@[simp] theorem State.onMem_host (s : State) (f : Mem → Mem) : (s.onMem f).host = s.host := rfl
@[simp] theorem State.onMem_inputs (s : State) (f : Mem → Mem) : (s.onMem f).inputs = s.inputs := rfl
@[simp] theorem State.onMem_agenda (s : State) (f : Mem → Mem) : (s.onMem f).agenda = s.agenda := rfl
@[simp] theorem State.onMem_cur (s : State) (f : Mem → Mem) : (s.onMem f).cur = s.cur := rfl
@[simp] theorem State.onMem_turns (s : State) (f : Mem → Mem) : (s.onMem f).turns = s.turns := rfl
@[simp] theorem State.onMem_unit (s : State) (f : Mem → Mem) : (s.onMem f).unit = s.unit := rfl
@[simp] theorem State.onMem_free (s : State) (f : Mem → Mem) : (s.onMem f).free = s.free := rfl
@[simp] theorem State.onMem_core (s : State) (f : Mem → Mem) (c : Nat) : (s.onMem f).core c = s.core c := rfl
@[simp] theorem State.onSched_gtick (s : State) (f : Sched → Sched) : (s.onSched f).gtick = s.gtick := rfl
@[simp] theorem State.onSched_cores (s : State) (f : Sched → Sched) : (s.onSched f).cores = s.cores := rfl
@[simp] theorem State.onSched_semC (s : State) (f : Sched → Sched) : (s.onSched f).semC = s.semC := rfl
@[simp] theorem State.onSched_semOwner (s : State) (f : Sched → Sched) : (s.onSched f).semOwner = s.semOwner := rfl
@[simp] theorem State.onSched_mem (s : State) (f : Sched → Sched) : (s.onSched f).mem = s.mem := rfl
@[simp] theorem State.onSched_sched (s : State) (f : Sched → Sched) : (s.onSched f).sched = f s.sched := rfl
@[simp] theorem State.onSched_vat (s : State) (f : Sched → Sched) : (s.onSched f).vat = s.vat := rfl
@[simp] theorem State.onSched_comb (s : State) (f : Sched → Sched) : (s.onSched f).comb = s.comb := rfl
@[simp] theorem State.onSched_text (s : State) (f : Sched → Sched) : (s.onSched f).text = s.text := rfl
@[simp] theorem State.onSched_fab (s : State) (f : Sched → Sched) : (s.onSched f).fab = s.fab := rfl
@[simp] theorem State.onSched_clk (s : State) (f : Sched → Sched) : (s.onSched f).clk = s.clk := rfl
@[simp] theorem State.onSched_host (s : State) (f : Sched → Sched) : (s.onSched f).host = s.host := rfl
@[simp] theorem State.onSched_inputs (s : State) (f : Sched → Sched) : (s.onSched f).inputs = s.inputs := rfl
@[simp] theorem State.onSched_agenda (s : State) (f : Sched → Sched) : (s.onSched f).agenda = s.agenda := rfl
@[simp] theorem State.onSched_cur (s : State) (f : Sched → Sched) : (s.onSched f).cur = s.cur := rfl
@[simp] theorem State.onSched_turns (s : State) (f : Sched → Sched) : (s.onSched f).turns = s.turns := rfl
@[simp] theorem State.onSched_unit (s : State) (f : Sched → Sched) : (s.onSched f).unit = s.unit := rfl
@[simp] theorem State.onSched_free (s : State) (f : Sched → Sched) : (s.onSched f).free = s.free := rfl
@[simp] theorem State.onSched_core (s : State) (f : Sched → Sched) (c : Nat) : (s.onSched f).core c = s.core c := rfl
@[simp] theorem State.onVat_gtick (s : State) (f : VatUnit → VatUnit) : (s.onVat f).gtick = s.gtick := rfl
@[simp] theorem State.onVat_cores (s : State) (f : VatUnit → VatUnit) : (s.onVat f).cores = s.cores := rfl
@[simp] theorem State.onVat_semC (s : State) (f : VatUnit → VatUnit) : (s.onVat f).semC = s.semC := rfl
@[simp] theorem State.onVat_semOwner (s : State) (f : VatUnit → VatUnit) : (s.onVat f).semOwner = s.semOwner := rfl
@[simp] theorem State.onVat_mem (s : State) (f : VatUnit → VatUnit) : (s.onVat f).mem = s.mem := rfl
@[simp] theorem State.onVat_sched (s : State) (f : VatUnit → VatUnit) : (s.onVat f).sched = s.sched := rfl
@[simp] theorem State.onVat_vat (s : State) (f : VatUnit → VatUnit) : (s.onVat f).vat = f s.vat := rfl
@[simp] theorem State.onVat_comb (s : State) (f : VatUnit → VatUnit) : (s.onVat f).comb = s.comb := rfl
@[simp] theorem State.onVat_text (s : State) (f : VatUnit → VatUnit) : (s.onVat f).text = s.text := rfl
@[simp] theorem State.onVat_fab (s : State) (f : VatUnit → VatUnit) : (s.onVat f).fab = s.fab := rfl
@[simp] theorem State.onVat_clk (s : State) (f : VatUnit → VatUnit) : (s.onVat f).clk = s.clk := rfl
@[simp] theorem State.onVat_host (s : State) (f : VatUnit → VatUnit) : (s.onVat f).host = s.host := rfl
@[simp] theorem State.onVat_inputs (s : State) (f : VatUnit → VatUnit) : (s.onVat f).inputs = s.inputs := rfl
@[simp] theorem State.onVat_agenda (s : State) (f : VatUnit → VatUnit) : (s.onVat f).agenda = s.agenda := rfl
@[simp] theorem State.onVat_cur (s : State) (f : VatUnit → VatUnit) : (s.onVat f).cur = s.cur := rfl
@[simp] theorem State.onVat_turns (s : State) (f : VatUnit → VatUnit) : (s.onVat f).turns = s.turns := rfl
@[simp] theorem State.onVat_unit (s : State) (f : VatUnit → VatUnit) : (s.onVat f).unit = s.unit := rfl
@[simp] theorem State.onVat_free (s : State) (f : VatUnit → VatUnit) : (s.onVat f).free = s.free := rfl
@[simp] theorem State.onVat_core (s : State) (f : VatUnit → VatUnit) (c : Nat) : (s.onVat f).core c = s.core c := rfl
@[simp] theorem State.onComb_gtick (s : State) (f : Combine → Combine) : (s.onComb f).gtick = s.gtick := rfl
@[simp] theorem State.onComb_cores (s : State) (f : Combine → Combine) : (s.onComb f).cores = s.cores := rfl
@[simp] theorem State.onComb_semC (s : State) (f : Combine → Combine) : (s.onComb f).semC = s.semC := rfl
@[simp] theorem State.onComb_semOwner (s : State) (f : Combine → Combine) : (s.onComb f).semOwner = s.semOwner := rfl
@[simp] theorem State.onComb_mem (s : State) (f : Combine → Combine) : (s.onComb f).mem = s.mem := rfl
@[simp] theorem State.onComb_sched (s : State) (f : Combine → Combine) : (s.onComb f).sched = s.sched := rfl
@[simp] theorem State.onComb_vat (s : State) (f : Combine → Combine) : (s.onComb f).vat = s.vat := rfl
@[simp] theorem State.onComb_comb (s : State) (f : Combine → Combine) : (s.onComb f).comb = f s.comb := rfl
@[simp] theorem State.onComb_text (s : State) (f : Combine → Combine) : (s.onComb f).text = s.text := rfl
@[simp] theorem State.onComb_fab (s : State) (f : Combine → Combine) : (s.onComb f).fab = s.fab := rfl
@[simp] theorem State.onComb_clk (s : State) (f : Combine → Combine) : (s.onComb f).clk = s.clk := rfl
@[simp] theorem State.onComb_host (s : State) (f : Combine → Combine) : (s.onComb f).host = s.host := rfl
@[simp] theorem State.onComb_inputs (s : State) (f : Combine → Combine) : (s.onComb f).inputs = s.inputs := rfl
@[simp] theorem State.onComb_agenda (s : State) (f : Combine → Combine) : (s.onComb f).agenda = s.agenda := rfl
@[simp] theorem State.onComb_cur (s : State) (f : Combine → Combine) : (s.onComb f).cur = s.cur := rfl
@[simp] theorem State.onComb_turns (s : State) (f : Combine → Combine) : (s.onComb f).turns = s.turns := rfl
@[simp] theorem State.onComb_unit (s : State) (f : Combine → Combine) : (s.onComb f).unit = s.unit := rfl
@[simp] theorem State.onComb_free (s : State) (f : Combine → Combine) : (s.onComb f).free = s.free := rfl
@[simp] theorem State.onComb_core (s : State) (f : Combine → Combine) (c : Nat) : (s.onComb f).core c = s.core c := rfl
@[simp] theorem State.onFab_gtick (s : State) (f : Fabric → Fabric) : (s.onFab f).gtick = s.gtick := rfl
@[simp] theorem State.onFab_cores (s : State) (f : Fabric → Fabric) : (s.onFab f).cores = s.cores := rfl
@[simp] theorem State.onFab_semC (s : State) (f : Fabric → Fabric) : (s.onFab f).semC = s.semC := rfl
@[simp] theorem State.onFab_semOwner (s : State) (f : Fabric → Fabric) : (s.onFab f).semOwner = s.semOwner := rfl
@[simp] theorem State.onFab_mem (s : State) (f : Fabric → Fabric) : (s.onFab f).mem = s.mem := rfl
@[simp] theorem State.onFab_sched (s : State) (f : Fabric → Fabric) : (s.onFab f).sched = s.sched := rfl
@[simp] theorem State.onFab_vat (s : State) (f : Fabric → Fabric) : (s.onFab f).vat = s.vat := rfl
@[simp] theorem State.onFab_comb (s : State) (f : Fabric → Fabric) : (s.onFab f).comb = s.comb := rfl
@[simp] theorem State.onFab_text (s : State) (f : Fabric → Fabric) : (s.onFab f).text = s.text := rfl
@[simp] theorem State.onFab_fab (s : State) (f : Fabric → Fabric) : (s.onFab f).fab = f s.fab := rfl
@[simp] theorem State.onFab_clk (s : State) (f : Fabric → Fabric) : (s.onFab f).clk = s.clk := rfl
@[simp] theorem State.onFab_host (s : State) (f : Fabric → Fabric) : (s.onFab f).host = s.host := rfl
@[simp] theorem State.onFab_inputs (s : State) (f : Fabric → Fabric) : (s.onFab f).inputs = s.inputs := rfl
@[simp] theorem State.onFab_agenda (s : State) (f : Fabric → Fabric) : (s.onFab f).agenda = s.agenda := rfl
@[simp] theorem State.onFab_cur (s : State) (f : Fabric → Fabric) : (s.onFab f).cur = s.cur := rfl
@[simp] theorem State.onFab_turns (s : State) (f : Fabric → Fabric) : (s.onFab f).turns = s.turns := rfl
@[simp] theorem State.onFab_unit (s : State) (f : Fabric → Fabric) : (s.onFab f).unit = s.unit := rfl
@[simp] theorem State.onFab_free (s : State) (f : Fabric → Fabric) : (s.onFab f).free = s.free := rfl
@[simp] theorem State.onFab_core (s : State) (f : Fabric → Fabric) (c : Nat) : (s.onFab f).core c = s.core c := rfl
@[simp] theorem State.onClk_gtick (s : State) (f : Clock → Clock) : (s.onClk f).gtick = s.gtick := rfl
@[simp] theorem State.onClk_cores (s : State) (f : Clock → Clock) : (s.onClk f).cores = s.cores := rfl
@[simp] theorem State.onClk_semC (s : State) (f : Clock → Clock) : (s.onClk f).semC = s.semC := rfl
@[simp] theorem State.onClk_semOwner (s : State) (f : Clock → Clock) : (s.onClk f).semOwner = s.semOwner := rfl
@[simp] theorem State.onClk_mem (s : State) (f : Clock → Clock) : (s.onClk f).mem = s.mem := rfl
@[simp] theorem State.onClk_sched (s : State) (f : Clock → Clock) : (s.onClk f).sched = s.sched := rfl
@[simp] theorem State.onClk_vat (s : State) (f : Clock → Clock) : (s.onClk f).vat = s.vat := rfl
@[simp] theorem State.onClk_comb (s : State) (f : Clock → Clock) : (s.onClk f).comb = s.comb := rfl
@[simp] theorem State.onClk_text (s : State) (f : Clock → Clock) : (s.onClk f).text = s.text := rfl
@[simp] theorem State.onClk_fab (s : State) (f : Clock → Clock) : (s.onClk f).fab = s.fab := rfl
@[simp] theorem State.onClk_clk (s : State) (f : Clock → Clock) : (s.onClk f).clk = f s.clk := rfl
@[simp] theorem State.onClk_host (s : State) (f : Clock → Clock) : (s.onClk f).host = s.host := rfl
@[simp] theorem State.onClk_inputs (s : State) (f : Clock → Clock) : (s.onClk f).inputs = s.inputs := rfl
@[simp] theorem State.onClk_agenda (s : State) (f : Clock → Clock) : (s.onClk f).agenda = s.agenda := rfl
@[simp] theorem State.onClk_cur (s : State) (f : Clock → Clock) : (s.onClk f).cur = s.cur := rfl
@[simp] theorem State.onClk_turns (s : State) (f : Clock → Clock) : (s.onClk f).turns = s.turns := rfl
@[simp] theorem State.onClk_unit (s : State) (f : Clock → Clock) : (s.onClk f).unit = s.unit := rfl
@[simp] theorem State.onClk_free (s : State) (f : Clock → Clock) : (s.onClk f).free = s.free := rfl
@[simp] theorem State.onClk_core (s : State) (f : Clock → Clock) (c : Nat) : (s.onClk f).core c = s.core c := rfl
@[simp] theorem State.onHost_gtick (s : State) (f : HostIf → HostIf) : (s.onHost f).gtick = s.gtick := rfl
@[simp] theorem State.onHost_cores (s : State) (f : HostIf → HostIf) : (s.onHost f).cores = s.cores := rfl
@[simp] theorem State.onHost_semC (s : State) (f : HostIf → HostIf) : (s.onHost f).semC = s.semC := rfl
@[simp] theorem State.onHost_semOwner (s : State) (f : HostIf → HostIf) : (s.onHost f).semOwner = s.semOwner := rfl
@[simp] theorem State.onHost_mem (s : State) (f : HostIf → HostIf) : (s.onHost f).mem = s.mem := rfl
@[simp] theorem State.onHost_sched (s : State) (f : HostIf → HostIf) : (s.onHost f).sched = s.sched := rfl
@[simp] theorem State.onHost_vat (s : State) (f : HostIf → HostIf) : (s.onHost f).vat = s.vat := rfl
@[simp] theorem State.onHost_comb (s : State) (f : HostIf → HostIf) : (s.onHost f).comb = s.comb := rfl
@[simp] theorem State.onHost_text (s : State) (f : HostIf → HostIf) : (s.onHost f).text = s.text := rfl
@[simp] theorem State.onHost_fab (s : State) (f : HostIf → HostIf) : (s.onHost f).fab = s.fab := rfl
@[simp] theorem State.onHost_clk (s : State) (f : HostIf → HostIf) : (s.onHost f).clk = s.clk := rfl
@[simp] theorem State.onHost_host (s : State) (f : HostIf → HostIf) : (s.onHost f).host = f s.host := rfl
@[simp] theorem State.onHost_inputs (s : State) (f : HostIf → HostIf) : (s.onHost f).inputs = s.inputs := rfl
@[simp] theorem State.onHost_agenda (s : State) (f : HostIf → HostIf) : (s.onHost f).agenda = s.agenda := rfl
@[simp] theorem State.onHost_cur (s : State) (f : HostIf → HostIf) : (s.onHost f).cur = s.cur := rfl
@[simp] theorem State.onHost_turns (s : State) (f : HostIf → HostIf) : (s.onHost f).turns = s.turns := rfl
@[simp] theorem State.onHost_unit (s : State) (f : HostIf → HostIf) : (s.onHost f).unit = s.unit := rfl
@[simp] theorem State.onHost_free (s : State) (f : HostIf → HostIf) : (s.onHost f).free = s.free := rfl
@[simp] theorem State.onHost_core (s : State) (f : HostIf → HostIf) (c : Nat) : (s.onHost f).core c = s.core c := rfl

/-! ### Cores -/

@[simp] theorem State.onCore_gtick (s : State) (c : Nat) (f : Core → Core) : (s.onCore c f).gtick = s.gtick := rfl
@[simp] theorem State.onCore_semC (s : State) (c : Nat) (f : Core → Core) : (s.onCore c f).semC = s.semC := rfl
@[simp] theorem State.onCore_semOwner (s : State) (c : Nat) (f : Core → Core) : (s.onCore c f).semOwner = s.semOwner := rfl
@[simp] theorem State.onCore_mem (s : State) (c : Nat) (f : Core → Core) : (s.onCore c f).mem = s.mem := rfl
@[simp] theorem State.onCore_sched (s : State) (c : Nat) (f : Core → Core) : (s.onCore c f).sched = s.sched := rfl
@[simp] theorem State.onCore_vat (s : State) (c : Nat) (f : Core → Core) : (s.onCore c f).vat = s.vat := rfl
@[simp] theorem State.onCore_comb (s : State) (c : Nat) (f : Core → Core) : (s.onCore c f).comb = s.comb := rfl
@[simp] theorem State.onCore_text (s : State) (c : Nat) (f : Core → Core) : (s.onCore c f).text = s.text := rfl
@[simp] theorem State.onCore_fab (s : State) (c : Nat) (f : Core → Core) : (s.onCore c f).fab = s.fab := rfl
@[simp] theorem State.onCore_clk (s : State) (c : Nat) (f : Core → Core) : (s.onCore c f).clk = s.clk := rfl
@[simp] theorem State.onCore_host (s : State) (c : Nat) (f : Core → Core) : (s.onCore c f).host = s.host := rfl
@[simp] theorem State.onCore_inputs (s : State) (c : Nat) (f : Core → Core) : (s.onCore c f).inputs = s.inputs := rfl
@[simp] theorem State.onCore_agenda (s : State) (c : Nat) (f : Core → Core) : (s.onCore c f).agenda = s.agenda := rfl
@[simp] theorem State.onCore_cur (s : State) (c : Nat) (f : Core → Core) : (s.onCore c f).cur = s.cur := rfl
@[simp] theorem State.onCore_turns (s : State) (c : Nat) (f : Core → Core) : (s.onCore c f).turns = s.turns := rfl
@[simp] theorem State.onCore_unit (s : State) (c : Nat) (f : Core → Core) : (s.onCore c f).unit = s.unit := rfl
@[simp] theorem State.onCore_free (s : State) (c : Nat) (f : Core → Core) : (s.onCore c f).free = s.free := rfl
@[simp] theorem State.onCtx_gtick (s : State) (c : Nat) (f : Ctx → Ctx) : (s.onCtx c f).gtick = s.gtick := rfl
@[simp] theorem State.onCtx_semC (s : State) (c : Nat) (f : Ctx → Ctx) : (s.onCtx c f).semC = s.semC := rfl
@[simp] theorem State.onCtx_semOwner (s : State) (c : Nat) (f : Ctx → Ctx) : (s.onCtx c f).semOwner = s.semOwner := rfl
@[simp] theorem State.onCtx_mem (s : State) (c : Nat) (f : Ctx → Ctx) : (s.onCtx c f).mem = s.mem := rfl
@[simp] theorem State.onCtx_sched (s : State) (c : Nat) (f : Ctx → Ctx) : (s.onCtx c f).sched = s.sched := rfl
@[simp] theorem State.onCtx_vat (s : State) (c : Nat) (f : Ctx → Ctx) : (s.onCtx c f).vat = s.vat := rfl
@[simp] theorem State.onCtx_comb (s : State) (c : Nat) (f : Ctx → Ctx) : (s.onCtx c f).comb = s.comb := rfl
@[simp] theorem State.onCtx_text (s : State) (c : Nat) (f : Ctx → Ctx) : (s.onCtx c f).text = s.text := rfl
@[simp] theorem State.onCtx_fab (s : State) (c : Nat) (f : Ctx → Ctx) : (s.onCtx c f).fab = s.fab := rfl
@[simp] theorem State.onCtx_clk (s : State) (c : Nat) (f : Ctx → Ctx) : (s.onCtx c f).clk = s.clk := rfl
@[simp] theorem State.onCtx_host (s : State) (c : Nat) (f : Ctx → Ctx) : (s.onCtx c f).host = s.host := rfl
@[simp] theorem State.onCtx_inputs (s : State) (c : Nat) (f : Ctx → Ctx) : (s.onCtx c f).inputs = s.inputs := rfl
@[simp] theorem State.onCtx_agenda (s : State) (c : Nat) (f : Ctx → Ctx) : (s.onCtx c f).agenda = s.agenda := rfl
@[simp] theorem State.onCtx_cur (s : State) (c : Nat) (f : Ctx → Ctx) : (s.onCtx c f).cur = s.cur := rfl
@[simp] theorem State.onCtx_turns (s : State) (c : Nat) (f : Ctx → Ctx) : (s.onCtx c f).turns = s.turns := rfl
@[simp] theorem State.onCtx_unit (s : State) (c : Nat) (f : Ctx → Ctx) : (s.onCtx c f).unit = s.unit := rfl
@[simp] theorem State.onCtx_free (s : State) (c : Nat) (f : Ctx → Ctx) : (s.onCtx c f).free = s.free := rfl
@[simp] theorem State.onSeq_gtick (s : State) (c : Nat) (f : Seqr → Seqr) : (s.onSeq c f).gtick = s.gtick := rfl
@[simp] theorem State.onSeq_semC (s : State) (c : Nat) (f : Seqr → Seqr) : (s.onSeq c f).semC = s.semC := rfl
@[simp] theorem State.onSeq_semOwner (s : State) (c : Nat) (f : Seqr → Seqr) : (s.onSeq c f).semOwner = s.semOwner := rfl
@[simp] theorem State.onSeq_mem (s : State) (c : Nat) (f : Seqr → Seqr) : (s.onSeq c f).mem = s.mem := rfl
@[simp] theorem State.onSeq_sched (s : State) (c : Nat) (f : Seqr → Seqr) : (s.onSeq c f).sched = s.sched := rfl
@[simp] theorem State.onSeq_vat (s : State) (c : Nat) (f : Seqr → Seqr) : (s.onSeq c f).vat = s.vat := rfl
@[simp] theorem State.onSeq_comb (s : State) (c : Nat) (f : Seqr → Seqr) : (s.onSeq c f).comb = s.comb := rfl
@[simp] theorem State.onSeq_text (s : State) (c : Nat) (f : Seqr → Seqr) : (s.onSeq c f).text = s.text := rfl
@[simp] theorem State.onSeq_fab (s : State) (c : Nat) (f : Seqr → Seqr) : (s.onSeq c f).fab = s.fab := rfl
@[simp] theorem State.onSeq_clk (s : State) (c : Nat) (f : Seqr → Seqr) : (s.onSeq c f).clk = s.clk := rfl
@[simp] theorem State.onSeq_host (s : State) (c : Nat) (f : Seqr → Seqr) : (s.onSeq c f).host = s.host := rfl
@[simp] theorem State.onSeq_inputs (s : State) (c : Nat) (f : Seqr → Seqr) : (s.onSeq c f).inputs = s.inputs := rfl
@[simp] theorem State.onSeq_agenda (s : State) (c : Nat) (f : Seqr → Seqr) : (s.onSeq c f).agenda = s.agenda := rfl
@[simp] theorem State.onSeq_cur (s : State) (c : Nat) (f : Seqr → Seqr) : (s.onSeq c f).cur = s.cur := rfl
@[simp] theorem State.onSeq_turns (s : State) (c : Nat) (f : Seqr → Seqr) : (s.onSeq c f).turns = s.turns := rfl
@[simp] theorem State.onSeq_unit (s : State) (c : Nat) (f : Seqr → Seqr) : (s.onSeq c f).unit = s.unit := rfl
@[simp] theorem State.onSeq_free (s : State) (c : Nat) (f : Seqr → Seqr) : (s.onSeq c f).free = s.free := rfl
@[simp] theorem State.setCore_gtick (s : State) (c : Nat) (k : Core) : (s.setCore c k).gtick = s.gtick := rfl
@[simp] theorem State.setCore_semC (s : State) (c : Nat) (k : Core) : (s.setCore c k).semC = s.semC := rfl
@[simp] theorem State.setCore_semOwner (s : State) (c : Nat) (k : Core) : (s.setCore c k).semOwner = s.semOwner := rfl
@[simp] theorem State.setCore_mem (s : State) (c : Nat) (k : Core) : (s.setCore c k).mem = s.mem := rfl
@[simp] theorem State.setCore_sched (s : State) (c : Nat) (k : Core) : (s.setCore c k).sched = s.sched := rfl
@[simp] theorem State.setCore_vat (s : State) (c : Nat) (k : Core) : (s.setCore c k).vat = s.vat := rfl
@[simp] theorem State.setCore_comb (s : State) (c : Nat) (k : Core) : (s.setCore c k).comb = s.comb := rfl
@[simp] theorem State.setCore_text (s : State) (c : Nat) (k : Core) : (s.setCore c k).text = s.text := rfl
@[simp] theorem State.setCore_fab (s : State) (c : Nat) (k : Core) : (s.setCore c k).fab = s.fab := rfl
@[simp] theorem State.setCore_clk (s : State) (c : Nat) (k : Core) : (s.setCore c k).clk = s.clk := rfl
@[simp] theorem State.setCore_host (s : State) (c : Nat) (k : Core) : (s.setCore c k).host = s.host := rfl
@[simp] theorem State.setCore_inputs (s : State) (c : Nat) (k : Core) : (s.setCore c k).inputs = s.inputs := rfl
@[simp] theorem State.setCore_agenda (s : State) (c : Nat) (k : Core) : (s.setCore c k).agenda = s.agenda := rfl
@[simp] theorem State.setCore_cur (s : State) (c : Nat) (k : Core) : (s.setCore c k).cur = s.cur := rfl
@[simp] theorem State.setCore_turns (s : State) (c : Nat) (k : Core) : (s.setCore c k).turns = s.turns := rfl
@[simp] theorem State.setCore_unit (s : State) (c : Nat) (k : Core) : (s.setCore c k).unit = s.unit := rfl
@[simp] theorem State.setCore_free (s : State) (c : Nat) (k : Core) : (s.setCore c k).free = s.free := rfl
@[simp] theorem State.setCore_core (s : State) (c : Nat) (k : Core) : (s.setCore c k).core c = k := Tbl.get_set_same _ _ _ _
@[simp] theorem State.setCore_core_ne (s : State) (c d : Nat) (k : Core) (h : d ≠ c) : (s.setCore c k).core d = s.core d :=
  Tbl.get_set_ne _ _ _ h
@[simp] theorem State.onCore_core (s : State) (c : Nat) (f : Core → Core) : (s.onCore c f).core c = f (s.core c) :=
  s.setCore_core c _
@[simp] theorem State.onCore_core_ne (s : State) (c d : Nat) (f : Core → Core) (h : d ≠ c) : (s.onCore c f).core d = s.core d :=
  s.setCore_core_ne c d _ h
@[simp] theorem State.onCtx_core (s : State) (c : Nat) (f : Ctx → Ctx) : (s.onCtx c f).core c = (s.core c).onCtx f :=
  s.setCore_core c _
@[simp] theorem State.onCtx_core_ne (s : State) (c d : Nat) (f : Ctx → Ctx) (h : d ≠ c) : (s.onCtx c f).core d = s.core d :=
  s.setCore_core_ne c d _ h
@[simp] theorem State.onSeq_core (s : State) (c : Nat) (f : Seqr → Seqr) : (s.onSeq c f).core c = (s.core c).onSeq f :=
  s.setCore_core c _
@[simp] theorem State.onSeq_core_ne (s : State) (c d : Nat) (f : Seqr → Seqr) (h : d ≠ c) : (s.onSeq c f).core d = s.core d :=
  s.setCore_core_ne c d _ h

@[simp] theorem Core.onCtx_ctx (k : Core) (f : Ctx → Ctx) : (k.onCtx f).ctx = f k.ctx := rfl
@[simp] theorem Core.onCtx_seq (k : Core) (f : Ctx → Ctx) : (k.onCtx f).seq = k.seq := rfl
@[simp] theorem Core.onCtx_eng (k : Core) (f : Ctx → Ctx) : (k.onCtx f).eng = k.eng := rfl
@[simp] theorem Core.onCtx_job (k : Core) (f : Ctx → Ctx) : (k.onCtx f).job = k.job := rfl
@[simp] theorem Core.onCtx_cgen (k : Core) (f : Ctx → Ctx) : (k.onCtx f).cgen = k.cgen := rfl
@[simp] theorem Core.onCtx_ldq (k : Core) (f : Ctx → Ctx) : (k.onCtx f).ldq = k.ldq := rfl
@[simp] theorem Core.onSeq_ctx (k : Core) (f : Seqr → Seqr) : (k.onSeq f).ctx = k.ctx := rfl
@[simp] theorem Core.onSeq_seq (k : Core) (f : Seqr → Seqr) : (k.onSeq f).seq = f k.seq := rfl
@[simp] theorem Core.onSeq_eng (k : Core) (f : Seqr → Seqr) : (k.onSeq f).eng = k.eng := rfl
@[simp] theorem Core.onSeq_job (k : Core) (f : Seqr → Seqr) : (k.onSeq f).job = k.job := rfl
@[simp] theorem Core.onSeq_cgen (k : Core) (f : Seqr → Seqr) : (k.onSeq f).cgen = k.cgen := rfl
@[simp] theorem Core.onSeq_ldq (k : Core) (f : Seqr → Seqr) : (k.onSeq f).ldq = k.ldq := rfl
@[simp] theorem Core.onEng_ctx (k : Core) (f : Eng → Eng) : (k.onEng f).ctx = k.ctx := rfl
@[simp] theorem Core.onEng_seq (k : Core) (f : Eng → Eng) : (k.onEng f).seq = k.seq := rfl
@[simp] theorem Core.onEng_eng (k : Core) (f : Eng → Eng) : (k.onEng f).eng = f k.eng := rfl
@[simp] theorem Core.onEng_job (k : Core) (f : Eng → Eng) : (k.onEng f).job = k.job := rfl
@[simp] theorem Core.onEng_cgen (k : Core) (f : Eng → Eng) : (k.onEng f).cgen = k.cgen := rfl
@[simp] theorem Core.onEng_ldq (k : Core) (f : Eng → Eng) : (k.onEng f).ldq = k.ldq := rfl

/-! ### Registers of a context -/

@[simp] theorem Ctx.setReg_predV (k : Ctx) (r : Nat) (v : Word) : (k.setReg r v).predV = k.predV := by
  unfold Ctx.setReg; split <;> rfl
@[simp] theorem Ctx.setReg_predW (k : Ctx) (r : Nat) (v : Word) : (k.setReg r v).predW = k.predW := by
  unfold Ctx.setReg; split <;> rfl
@[simp] theorem Ctx.setReg_tile (k : Ctx) (r : Nat) (v : Word) : (k.setReg r v).tile = k.tile := by
  unfold Ctx.setReg; split <;> rfl
@[simp] theorem Ctx.setReg_bank (k : Ctx) (r : Nat) (v : Word) : (k.setReg r v).bank = k.bank := by
  unfold Ctx.setReg; split <;> rfl
@[simp] theorem Ctx.setReg_mirror (k : Ctx) (r : Nat) (v : Word) : (k.setReg r v).mirror = k.mirror := by
  unfold Ctx.setReg; split <;> rfl
@[simp] theorem Ctx.setReg_acc (k : Ctx) (r : Nat) (v : Word) : (k.setReg r v).acc = k.acc := by
  unfold Ctx.setReg; split <;> rfl
@[simp] theorem Ctx.setReg_accKind (k : Ctx) (r : Nat) (v : Word) : (k.setReg r v).accKind = k.accKind := by
  unfold Ctx.setReg; split <;> rfl
@[simp] theorem Ctx.setReg_mould (k : Ctx) (r : Nat) (v : Word) : (k.setReg r v).mould = k.mould := by
  unfold Ctx.setReg; split <;> rfl
@[simp] theorem Ctx.setReg_flow (k : Ctx) (r : Nat) (v : Word) : (k.setReg r v).flow = k.flow := by
  unfold Ctx.setReg; split <;> rfl
@[simp] theorem Ctx.setReg_spad (k : Ctx) (r : Nat) (v : Word) : (k.setReg r v).spad = k.spad := by
  unfold Ctx.setReg; split <;> rfl
@[simp] theorem Ctx.setReg_ring (k : Ctx) (r : Nat) (v : Word) : (k.setReg r v).ring = k.ring := by
  unfold Ctx.setReg; split <;> rfl
@[simp] theorem Ctx.setReg_bb (k : Ctx) (r : Nat) (v : Word) : (k.setReg r v).bb = k.bb := by
  unfold Ctx.setReg; split <;> rfl
@[simp] theorem Ctx.setReg_stream (k : Ctx) (r : Nat) (v : Word) : (k.setReg r v).stream = k.stream := by
  unfold Ctx.setReg; split <;> rfl
@[simp] theorem Ctx.setReg_port (k : Ctx) (r : Nat) (v : Word) : (k.setReg r v).port = k.port := by
  unfold Ctx.setReg; split <;> rfl
@[simp] theorem Ctx.setReg_latchV (k : Ctx) (r : Nat) (v : Word) : (k.setReg r v).latchV = k.latchV := by
  unfold Ctx.setReg; split <;> rfl
@[simp] theorem Ctx.setReg_latchS (k : Ctx) (r : Nat) (v : Word) : (k.setReg r v).latchS = k.latchS := by
  unfold Ctx.setReg; split <;> rfl
@[simp] theorem Ctx.setReg_handle (k : Ctx) (r : Nat) (v : Word) : (k.setReg r v).handle = k.handle := by
  unfold Ctx.setReg; split <;> rfl
@[simp] theorem Ctx.setReg_sem (k : Ctx) (r : Nat) (v : Word) : (k.setReg r v).sem = k.sem := by
  unfold Ctx.setReg; split <;> rfl
@[simp] theorem Ctx.setReg_loop (k : Ctx) (r : Nat) (v : Word) : (k.setReg r v).loop = k.loop := by
  unfold Ctx.setReg; split <;> rfl
@[simp] theorem Ctx.setReg_ras (k : Ctx) (r : Nat) (v : Word) : (k.setReg r v).ras = k.ras := by
  unfold Ctx.setReg; split <;> rfl
@[simp] theorem Ctx.setReg_depth (k : Ctx) (r : Nat) (v : Word) : (k.setReg r v).depth = k.depth := by
  unfold Ctx.setReg; split <;> rfl
@[simp] theorem Ctx.setReg_sw (k : Ctx) (r : Nat) (v : Word) : (k.setReg r v).sw = k.sw := by
  unfold Ctx.setReg; split <;> rfl
@[simp] theorem Ctx.setReg_pword (k : Ctx) (r : Nat) (v : Word) : (k.setReg r v).pword = k.pword := by
  unfold Ctx.setReg; split <;> rfl
@[simp] theorem Ctx.setReg_deadline (k : Ctx) (r : Nat) (v : Word) : (k.setReg r v).deadline = k.deadline := by
  unfold Ctx.setReg; split <;> rfl
@[simp] theorem Ctx.setReg_ovfptr (k : Ctx) (r : Nat) (v : Word) : (k.setReg r v).ovfptr = k.ovfptr := by
  unfold Ctx.setReg; split <;> rfl
@[simp] theorem Ctx.setReg_seed (k : Ctx) (r : Nat) (v : Word) : (k.setReg r v).seed = k.seed := by
  unfold Ctx.setReg; split <;> rfl
@[simp] theorem Ctx.setReg_dispret (k : Ctx) (r : Nat) (v : Word) : (k.setReg r v).dispret = k.dispret := by
  unfold Ctx.setReg; split <;> rfl
@[simp] theorem Ctx.setReg_fpctl (k : Ctx) (r : Nat) (v : Word) : (k.setReg r v).fpctl = k.fpctl := by
  unfold Ctx.setReg; split <;> rfl
@[simp] theorem Ctx.setReg_ctxid (k : Ctx) (r : Nat) (v : Word) : (k.setReg r v).ctxid = k.ctxid := by
  unfold Ctx.setReg; split <;> rfl
@[simp] theorem Ctx.setReg_duty (k : Ctx) (r : Nat) (v : Word) : (k.setReg r v).duty = k.duty := by
  unfold Ctx.setReg; split <;> rfl
@[simp] theorem Ctx.setReg_tdepth (k : Ctx) (r : Nat) (v : Word) : (k.setReg r v).tdepth = k.tdepth := by
  unfold Ctx.setReg; split <;> rfl
@[simp] theorem Ctx.setPred_sreg (k : Ctx) (p : Nat) (v : Bool) : (k.setPred p v).sreg = k.sreg := by
  unfold Ctx.setPred; split <;> rfl
@[simp] theorem Ctx.setPred_tile (k : Ctx) (p : Nat) (v : Bool) : (k.setPred p v).tile = k.tile := by
  unfold Ctx.setPred; split <;> rfl
@[simp] theorem Ctx.setPred_bank (k : Ctx) (p : Nat) (v : Bool) : (k.setPred p v).bank = k.bank := by
  unfold Ctx.setPred; split <;> rfl
@[simp] theorem Ctx.setPred_mirror (k : Ctx) (p : Nat) (v : Bool) : (k.setPred p v).mirror = k.mirror := by
  unfold Ctx.setPred; split <;> rfl
@[simp] theorem Ctx.setPred_acc (k : Ctx) (p : Nat) (v : Bool) : (k.setPred p v).acc = k.acc := by
  unfold Ctx.setPred; split <;> rfl
@[simp] theorem Ctx.setPred_accKind (k : Ctx) (p : Nat) (v : Bool) : (k.setPred p v).accKind = k.accKind := by
  unfold Ctx.setPred; split <;> rfl
@[simp] theorem Ctx.setPred_mould (k : Ctx) (p : Nat) (v : Bool) : (k.setPred p v).mould = k.mould := by
  unfold Ctx.setPred; split <;> rfl
@[simp] theorem Ctx.setPred_flow (k : Ctx) (p : Nat) (v : Bool) : (k.setPred p v).flow = k.flow := by
  unfold Ctx.setPred; split <;> rfl
@[simp] theorem Ctx.setPred_spad (k : Ctx) (p : Nat) (v : Bool) : (k.setPred p v).spad = k.spad := by
  unfold Ctx.setPred; split <;> rfl
@[simp] theorem Ctx.setPred_ring (k : Ctx) (p : Nat) (v : Bool) : (k.setPred p v).ring = k.ring := by
  unfold Ctx.setPred; split <;> rfl
@[simp] theorem Ctx.setPred_bb (k : Ctx) (p : Nat) (v : Bool) : (k.setPred p v).bb = k.bb := by
  unfold Ctx.setPred; split <;> rfl
@[simp] theorem Ctx.setPred_stream (k : Ctx) (p : Nat) (v : Bool) : (k.setPred p v).stream = k.stream := by
  unfold Ctx.setPred; split <;> rfl
@[simp] theorem Ctx.setPred_port (k : Ctx) (p : Nat) (v : Bool) : (k.setPred p v).port = k.port := by
  unfold Ctx.setPred; split <;> rfl
@[simp] theorem Ctx.setPred_latchV (k : Ctx) (p : Nat) (v : Bool) : (k.setPred p v).latchV = k.latchV := by
  unfold Ctx.setPred; split <;> rfl
@[simp] theorem Ctx.setPred_latchS (k : Ctx) (p : Nat) (v : Bool) : (k.setPred p v).latchS = k.latchS := by
  unfold Ctx.setPred; split <;> rfl
@[simp] theorem Ctx.setPred_handle (k : Ctx) (p : Nat) (v : Bool) : (k.setPred p v).handle = k.handle := by
  unfold Ctx.setPred; split <;> rfl
@[simp] theorem Ctx.setPred_sem (k : Ctx) (p : Nat) (v : Bool) : (k.setPred p v).sem = k.sem := by
  unfold Ctx.setPred; split <;> rfl
@[simp] theorem Ctx.setPred_loop (k : Ctx) (p : Nat) (v : Bool) : (k.setPred p v).loop = k.loop := by
  unfold Ctx.setPred; split <;> rfl
@[simp] theorem Ctx.setPred_ras (k : Ctx) (p : Nat) (v : Bool) : (k.setPred p v).ras = k.ras := by
  unfold Ctx.setPred; split <;> rfl
@[simp] theorem Ctx.setPred_depth (k : Ctx) (p : Nat) (v : Bool) : (k.setPred p v).depth = k.depth := by
  unfold Ctx.setPred; split <;> rfl
@[simp] theorem Ctx.setPred_sw (k : Ctx) (p : Nat) (v : Bool) : (k.setPred p v).sw = k.sw := by
  unfold Ctx.setPred; split <;> rfl
@[simp] theorem Ctx.setPred_pword (k : Ctx) (p : Nat) (v : Bool) : (k.setPred p v).pword = k.pword := by
  unfold Ctx.setPred; split <;> rfl
@[simp] theorem Ctx.setPred_deadline (k : Ctx) (p : Nat) (v : Bool) : (k.setPred p v).deadline = k.deadline := by
  unfold Ctx.setPred; split <;> rfl
@[simp] theorem Ctx.setPred_ovfptr (k : Ctx) (p : Nat) (v : Bool) : (k.setPred p v).ovfptr = k.ovfptr := by
  unfold Ctx.setPred; split <;> rfl
@[simp] theorem Ctx.setPred_seed (k : Ctx) (p : Nat) (v : Bool) : (k.setPred p v).seed = k.seed := by
  unfold Ctx.setPred; split <;> rfl
@[simp] theorem Ctx.setPred_dispret (k : Ctx) (p : Nat) (v : Bool) : (k.setPred p v).dispret = k.dispret := by
  unfold Ctx.setPred; split <;> rfl
@[simp] theorem Ctx.setPred_fpctl (k : Ctx) (p : Nat) (v : Bool) : (k.setPred p v).fpctl = k.fpctl := by
  unfold Ctx.setPred; split <;> rfl
@[simp] theorem Ctx.setPred_ctxid (k : Ctx) (p : Nat) (v : Bool) : (k.setPred p v).ctxid = k.ctxid := by
  unfold Ctx.setPred; split <;> rfl
@[simp] theorem Ctx.setPred_duty (k : Ctx) (p : Nat) (v : Bool) : (k.setPred p v).duty = k.duty := by
  unfold Ctx.setPred; split <;> rfl
@[simp] theorem Ctx.setPred_tdepth (k : Ctx) (p : Nat) (v : Bool) : (k.setPred p v).tdepth = k.tdepth := by
  unfold Ctx.setPred; split <;> rfl
@[simp] theorem Ctx.clearW_sreg (k : Ctx) (p : Nat) : (k.clearW p).sreg = k.sreg := by
  unfold Ctx.clearW; split <;> rfl
@[simp] theorem Ctx.clearW_predV (k : Ctx) (p : Nat) : (k.clearW p).predV = k.predV := by
  unfold Ctx.clearW; split <;> rfl
@[simp] theorem Ctx.clearW_tile (k : Ctx) (p : Nat) : (k.clearW p).tile = k.tile := by
  unfold Ctx.clearW; split <;> rfl
@[simp] theorem Ctx.clearW_bank (k : Ctx) (p : Nat) : (k.clearW p).bank = k.bank := by
  unfold Ctx.clearW; split <;> rfl
@[simp] theorem Ctx.clearW_mirror (k : Ctx) (p : Nat) : (k.clearW p).mirror = k.mirror := by
  unfold Ctx.clearW; split <;> rfl
@[simp] theorem Ctx.clearW_acc (k : Ctx) (p : Nat) : (k.clearW p).acc = k.acc := by
  unfold Ctx.clearW; split <;> rfl
@[simp] theorem Ctx.clearW_accKind (k : Ctx) (p : Nat) : (k.clearW p).accKind = k.accKind := by
  unfold Ctx.clearW; split <;> rfl
@[simp] theorem Ctx.clearW_mould (k : Ctx) (p : Nat) : (k.clearW p).mould = k.mould := by
  unfold Ctx.clearW; split <;> rfl
@[simp] theorem Ctx.clearW_flow (k : Ctx) (p : Nat) : (k.clearW p).flow = k.flow := by
  unfold Ctx.clearW; split <;> rfl
@[simp] theorem Ctx.clearW_spad (k : Ctx) (p : Nat) : (k.clearW p).spad = k.spad := by
  unfold Ctx.clearW; split <;> rfl
@[simp] theorem Ctx.clearW_ring (k : Ctx) (p : Nat) : (k.clearW p).ring = k.ring := by
  unfold Ctx.clearW; split <;> rfl
@[simp] theorem Ctx.clearW_bb (k : Ctx) (p : Nat) : (k.clearW p).bb = k.bb := by
  unfold Ctx.clearW; split <;> rfl
@[simp] theorem Ctx.clearW_stream (k : Ctx) (p : Nat) : (k.clearW p).stream = k.stream := by
  unfold Ctx.clearW; split <;> rfl
@[simp] theorem Ctx.clearW_port (k : Ctx) (p : Nat) : (k.clearW p).port = k.port := by
  unfold Ctx.clearW; split <;> rfl
@[simp] theorem Ctx.clearW_latchV (k : Ctx) (p : Nat) : (k.clearW p).latchV = k.latchV := by
  unfold Ctx.clearW; split <;> rfl
@[simp] theorem Ctx.clearW_latchS (k : Ctx) (p : Nat) : (k.clearW p).latchS = k.latchS := by
  unfold Ctx.clearW; split <;> rfl
@[simp] theorem Ctx.clearW_handle (k : Ctx) (p : Nat) : (k.clearW p).handle = k.handle := by
  unfold Ctx.clearW; split <;> rfl
@[simp] theorem Ctx.clearW_sem (k : Ctx) (p : Nat) : (k.clearW p).sem = k.sem := by
  unfold Ctx.clearW; split <;> rfl
@[simp] theorem Ctx.clearW_loop (k : Ctx) (p : Nat) : (k.clearW p).loop = k.loop := by
  unfold Ctx.clearW; split <;> rfl
@[simp] theorem Ctx.clearW_ras (k : Ctx) (p : Nat) : (k.clearW p).ras = k.ras := by
  unfold Ctx.clearW; split <;> rfl
@[simp] theorem Ctx.clearW_depth (k : Ctx) (p : Nat) : (k.clearW p).depth = k.depth := by
  unfold Ctx.clearW; split <;> rfl
@[simp] theorem Ctx.clearW_sw (k : Ctx) (p : Nat) : (k.clearW p).sw = k.sw := by
  unfold Ctx.clearW; split <;> rfl
@[simp] theorem Ctx.clearW_pword (k : Ctx) (p : Nat) : (k.clearW p).pword = k.pword := by
  unfold Ctx.clearW; split <;> rfl
@[simp] theorem Ctx.clearW_deadline (k : Ctx) (p : Nat) : (k.clearW p).deadline = k.deadline := by
  unfold Ctx.clearW; split <;> rfl
@[simp] theorem Ctx.clearW_ovfptr (k : Ctx) (p : Nat) : (k.clearW p).ovfptr = k.ovfptr := by
  unfold Ctx.clearW; split <;> rfl
@[simp] theorem Ctx.clearW_seed (k : Ctx) (p : Nat) : (k.clearW p).seed = k.seed := by
  unfold Ctx.clearW; split <;> rfl
@[simp] theorem Ctx.clearW_dispret (k : Ctx) (p : Nat) : (k.clearW p).dispret = k.dispret := by
  unfold Ctx.clearW; split <;> rfl
@[simp] theorem Ctx.clearW_fpctl (k : Ctx) (p : Nat) : (k.clearW p).fpctl = k.fpctl := by
  unfold Ctx.clearW; split <;> rfl
@[simp] theorem Ctx.clearW_ctxid (k : Ctx) (p : Nat) : (k.clearW p).ctxid = k.ctxid := by
  unfold Ctx.clearW; split <;> rfl
@[simp] theorem Ctx.clearW_duty (k : Ctx) (p : Nat) : (k.clearW p).duty = k.duty := by
  unfold Ctx.clearW; split <;> rfl
@[simp] theorem Ctx.clearW_tdepth (k : Ctx) (p : Nat) : (k.clearW p).tdepth = k.tdepth := by
  unfold Ctx.clearW; split <;> rfl
@[simp] theorem Ctx.st_sreg (k : Ctx) (a : Nat) (l : List Byte) : (k.st a l).sreg = k.sreg := rfl
@[simp] theorem Ctx.st_predV (k : Ctx) (a : Nat) (l : List Byte) : (k.st a l).predV = k.predV := rfl
@[simp] theorem Ctx.st_predW (k : Ctx) (a : Nat) (l : List Byte) : (k.st a l).predW = k.predW := rfl
@[simp] theorem Ctx.st_tile (k : Ctx) (a : Nat) (l : List Byte) : (k.st a l).tile = k.tile := rfl
@[simp] theorem Ctx.st_bank (k : Ctx) (a : Nat) (l : List Byte) : (k.st a l).bank = k.bank := rfl
@[simp] theorem Ctx.st_mirror (k : Ctx) (a : Nat) (l : List Byte) : (k.st a l).mirror = k.mirror := rfl
@[simp] theorem Ctx.st_acc (k : Ctx) (a : Nat) (l : List Byte) : (k.st a l).acc = k.acc := rfl
@[simp] theorem Ctx.st_accKind (k : Ctx) (a : Nat) (l : List Byte) : (k.st a l).accKind = k.accKind := rfl
@[simp] theorem Ctx.st_mould (k : Ctx) (a : Nat) (l : List Byte) : (k.st a l).mould = k.mould := rfl
@[simp] theorem Ctx.st_flow (k : Ctx) (a : Nat) (l : List Byte) : (k.st a l).flow = k.flow := rfl
@[simp] theorem Ctx.st_ring (k : Ctx) (a : Nat) (l : List Byte) : (k.st a l).ring = k.ring := rfl
@[simp] theorem Ctx.st_bb (k : Ctx) (a : Nat) (l : List Byte) : (k.st a l).bb = k.bb := rfl
@[simp] theorem Ctx.st_stream (k : Ctx) (a : Nat) (l : List Byte) : (k.st a l).stream = k.stream := rfl
@[simp] theorem Ctx.st_port (k : Ctx) (a : Nat) (l : List Byte) : (k.st a l).port = k.port := rfl
@[simp] theorem Ctx.st_latchV (k : Ctx) (a : Nat) (l : List Byte) : (k.st a l).latchV = k.latchV := rfl
@[simp] theorem Ctx.st_latchS (k : Ctx) (a : Nat) (l : List Byte) : (k.st a l).latchS = k.latchS := rfl
@[simp] theorem Ctx.st_handle (k : Ctx) (a : Nat) (l : List Byte) : (k.st a l).handle = k.handle := rfl
@[simp] theorem Ctx.st_sem (k : Ctx) (a : Nat) (l : List Byte) : (k.st a l).sem = k.sem := rfl
@[simp] theorem Ctx.st_loop (k : Ctx) (a : Nat) (l : List Byte) : (k.st a l).loop = k.loop := rfl
@[simp] theorem Ctx.st_ras (k : Ctx) (a : Nat) (l : List Byte) : (k.st a l).ras = k.ras := rfl
@[simp] theorem Ctx.st_depth (k : Ctx) (a : Nat) (l : List Byte) : (k.st a l).depth = k.depth := rfl
@[simp] theorem Ctx.st_sw (k : Ctx) (a : Nat) (l : List Byte) : (k.st a l).sw = k.sw := rfl
@[simp] theorem Ctx.st_pword (k : Ctx) (a : Nat) (l : List Byte) : (k.st a l).pword = k.pword := rfl
@[simp] theorem Ctx.st_deadline (k : Ctx) (a : Nat) (l : List Byte) : (k.st a l).deadline = k.deadline := rfl
@[simp] theorem Ctx.st_ovfptr (k : Ctx) (a : Nat) (l : List Byte) : (k.st a l).ovfptr = k.ovfptr := rfl
@[simp] theorem Ctx.st_seed (k : Ctx) (a : Nat) (l : List Byte) : (k.st a l).seed = k.seed := rfl
@[simp] theorem Ctx.st_dispret (k : Ctx) (a : Nat) (l : List Byte) : (k.st a l).dispret = k.dispret := rfl
@[simp] theorem Ctx.st_fpctl (k : Ctx) (a : Nat) (l : List Byte) : (k.st a l).fpctl = k.fpctl := rfl
@[simp] theorem Ctx.st_ctxid (k : Ctx) (a : Nat) (l : List Byte) : (k.st a l).ctxid = k.ctxid := rfl
@[simp] theorem Ctx.st_duty (k : Ctx) (a : Nat) (l : List Byte) : (k.st a l).duty = k.duty := rfl
@[simp] theorem Ctx.st_tdepth (k : Ctx) (a : Nat) (l : List Byte) : (k.st a l).tdepth = k.tdepth := rfl
@[simp] theorem Ctx.setTileRow1_sreg (k : Ctx) (t j : Nat) (v : Row) : (k.setTileRow1 t j v).sreg = k.sreg := rfl
@[simp] theorem Ctx.setTileRow1_predV (k : Ctx) (t j : Nat) (v : Row) : (k.setTileRow1 t j v).predV = k.predV := rfl
@[simp] theorem Ctx.setTileRow1_predW (k : Ctx) (t j : Nat) (v : Row) : (k.setTileRow1 t j v).predW = k.predW := rfl
@[simp] theorem Ctx.setTileRow1_bank (k : Ctx) (t j : Nat) (v : Row) : (k.setTileRow1 t j v).bank = k.bank := rfl
@[simp] theorem Ctx.setTileRow1_mirror (k : Ctx) (t j : Nat) (v : Row) : (k.setTileRow1 t j v).mirror = k.mirror := rfl
@[simp] theorem Ctx.setTileRow1_acc (k : Ctx) (t j : Nat) (v : Row) : (k.setTileRow1 t j v).acc = k.acc := rfl
@[simp] theorem Ctx.setTileRow1_accKind (k : Ctx) (t j : Nat) (v : Row) : (k.setTileRow1 t j v).accKind = k.accKind := rfl
@[simp] theorem Ctx.setTileRow1_mould (k : Ctx) (t j : Nat) (v : Row) : (k.setTileRow1 t j v).mould = k.mould := rfl
@[simp] theorem Ctx.setTileRow1_flow (k : Ctx) (t j : Nat) (v : Row) : (k.setTileRow1 t j v).flow = k.flow := rfl
@[simp] theorem Ctx.setTileRow1_spad (k : Ctx) (t j : Nat) (v : Row) : (k.setTileRow1 t j v).spad = k.spad := rfl
@[simp] theorem Ctx.setTileRow1_ring (k : Ctx) (t j : Nat) (v : Row) : (k.setTileRow1 t j v).ring = k.ring := rfl
@[simp] theorem Ctx.setTileRow1_bb (k : Ctx) (t j : Nat) (v : Row) : (k.setTileRow1 t j v).bb = k.bb := rfl
@[simp] theorem Ctx.setTileRow1_stream (k : Ctx) (t j : Nat) (v : Row) : (k.setTileRow1 t j v).stream = k.stream := rfl
@[simp] theorem Ctx.setTileRow1_port (k : Ctx) (t j : Nat) (v : Row) : (k.setTileRow1 t j v).port = k.port := rfl
@[simp] theorem Ctx.setTileRow1_latchV (k : Ctx) (t j : Nat) (v : Row) : (k.setTileRow1 t j v).latchV = k.latchV := rfl
@[simp] theorem Ctx.setTileRow1_latchS (k : Ctx) (t j : Nat) (v : Row) : (k.setTileRow1 t j v).latchS = k.latchS := rfl
@[simp] theorem Ctx.setTileRow1_handle (k : Ctx) (t j : Nat) (v : Row) : (k.setTileRow1 t j v).handle = k.handle := rfl
@[simp] theorem Ctx.setTileRow1_sem (k : Ctx) (t j : Nat) (v : Row) : (k.setTileRow1 t j v).sem = k.sem := rfl
@[simp] theorem Ctx.setTileRow1_loop (k : Ctx) (t j : Nat) (v : Row) : (k.setTileRow1 t j v).loop = k.loop := rfl
@[simp] theorem Ctx.setTileRow1_ras (k : Ctx) (t j : Nat) (v : Row) : (k.setTileRow1 t j v).ras = k.ras := rfl
@[simp] theorem Ctx.setTileRow1_depth (k : Ctx) (t j : Nat) (v : Row) : (k.setTileRow1 t j v).depth = k.depth := rfl
@[simp] theorem Ctx.setTileRow1_sw (k : Ctx) (t j : Nat) (v : Row) : (k.setTileRow1 t j v).sw = k.sw := rfl
@[simp] theorem Ctx.setTileRow1_pword (k : Ctx) (t j : Nat) (v : Row) : (k.setTileRow1 t j v).pword = k.pword := rfl
@[simp] theorem Ctx.setTileRow1_deadline (k : Ctx) (t j : Nat) (v : Row) : (k.setTileRow1 t j v).deadline = k.deadline := rfl
@[simp] theorem Ctx.setTileRow1_ovfptr (k : Ctx) (t j : Nat) (v : Row) : (k.setTileRow1 t j v).ovfptr = k.ovfptr := rfl
@[simp] theorem Ctx.setTileRow1_seed (k : Ctx) (t j : Nat) (v : Row) : (k.setTileRow1 t j v).seed = k.seed := rfl
@[simp] theorem Ctx.setTileRow1_dispret (k : Ctx) (t j : Nat) (v : Row) : (k.setTileRow1 t j v).dispret = k.dispret := rfl
@[simp] theorem Ctx.setTileRow1_fpctl (k : Ctx) (t j : Nat) (v : Row) : (k.setTileRow1 t j v).fpctl = k.fpctl := rfl
@[simp] theorem Ctx.setTileRow1_ctxid (k : Ctx) (t j : Nat) (v : Row) : (k.setTileRow1 t j v).ctxid = k.ctxid := rfl
@[simp] theorem Ctx.setTileRow1_duty (k : Ctx) (t j : Nat) (v : Row) : (k.setTileRow1 t j v).duty = k.duty := rfl
@[simp] theorem Ctx.setTileRow1_tdepth (k : Ctx) (t j : Nat) (v : Row) : (k.setTileRow1 t j v).tdepth = k.tdepth := rfl
@[simp] theorem Ctx.setRg_sreg (k : Ctx) (n : Nat) (r : Ring) : (k.setRg n r).sreg = k.sreg := rfl
@[simp] theorem Ctx.setRg_predV (k : Ctx) (n : Nat) (r : Ring) : (k.setRg n r).predV = k.predV := rfl
@[simp] theorem Ctx.setRg_predW (k : Ctx) (n : Nat) (r : Ring) : (k.setRg n r).predW = k.predW := rfl
@[simp] theorem Ctx.setRg_tile (k : Ctx) (n : Nat) (r : Ring) : (k.setRg n r).tile = k.tile := rfl
@[simp] theorem Ctx.setRg_bank (k : Ctx) (n : Nat) (r : Ring) : (k.setRg n r).bank = k.bank := rfl
@[simp] theorem Ctx.setRg_mirror (k : Ctx) (n : Nat) (r : Ring) : (k.setRg n r).mirror = k.mirror := rfl
@[simp] theorem Ctx.setRg_acc (k : Ctx) (n : Nat) (r : Ring) : (k.setRg n r).acc = k.acc := rfl
@[simp] theorem Ctx.setRg_accKind (k : Ctx) (n : Nat) (r : Ring) : (k.setRg n r).accKind = k.accKind := rfl
@[simp] theorem Ctx.setRg_mould (k : Ctx) (n : Nat) (r : Ring) : (k.setRg n r).mould = k.mould := rfl
@[simp] theorem Ctx.setRg_flow (k : Ctx) (n : Nat) (r : Ring) : (k.setRg n r).flow = k.flow := rfl
@[simp] theorem Ctx.setRg_spad (k : Ctx) (n : Nat) (r : Ring) : (k.setRg n r).spad = k.spad := rfl
@[simp] theorem Ctx.setRg_bb (k : Ctx) (n : Nat) (r : Ring) : (k.setRg n r).bb = k.bb := rfl
@[simp] theorem Ctx.setRg_stream (k : Ctx) (n : Nat) (r : Ring) : (k.setRg n r).stream = k.stream := rfl
@[simp] theorem Ctx.setRg_port (k : Ctx) (n : Nat) (r : Ring) : (k.setRg n r).port = k.port := rfl
@[simp] theorem Ctx.setRg_latchV (k : Ctx) (n : Nat) (r : Ring) : (k.setRg n r).latchV = k.latchV := rfl
@[simp] theorem Ctx.setRg_latchS (k : Ctx) (n : Nat) (r : Ring) : (k.setRg n r).latchS = k.latchS := rfl
@[simp] theorem Ctx.setRg_handle (k : Ctx) (n : Nat) (r : Ring) : (k.setRg n r).handle = k.handle := rfl
@[simp] theorem Ctx.setRg_sem (k : Ctx) (n : Nat) (r : Ring) : (k.setRg n r).sem = k.sem := rfl
@[simp] theorem Ctx.setRg_loop (k : Ctx) (n : Nat) (r : Ring) : (k.setRg n r).loop = k.loop := rfl
@[simp] theorem Ctx.setRg_ras (k : Ctx) (n : Nat) (r : Ring) : (k.setRg n r).ras = k.ras := rfl
@[simp] theorem Ctx.setRg_depth (k : Ctx) (n : Nat) (r : Ring) : (k.setRg n r).depth = k.depth := rfl
@[simp] theorem Ctx.setRg_sw (k : Ctx) (n : Nat) (r : Ring) : (k.setRg n r).sw = k.sw := rfl
@[simp] theorem Ctx.setRg_pword (k : Ctx) (n : Nat) (r : Ring) : (k.setRg n r).pword = k.pword := rfl
@[simp] theorem Ctx.setRg_deadline (k : Ctx) (n : Nat) (r : Ring) : (k.setRg n r).deadline = k.deadline := rfl
@[simp] theorem Ctx.setRg_ovfptr (k : Ctx) (n : Nat) (r : Ring) : (k.setRg n r).ovfptr = k.ovfptr := rfl
@[simp] theorem Ctx.setRg_seed (k : Ctx) (n : Nat) (r : Ring) : (k.setRg n r).seed = k.seed := rfl
@[simp] theorem Ctx.setRg_dispret (k : Ctx) (n : Nat) (r : Ring) : (k.setRg n r).dispret = k.dispret := rfl
@[simp] theorem Ctx.setRg_fpctl (k : Ctx) (n : Nat) (r : Ring) : (k.setRg n r).fpctl = k.fpctl := rfl
@[simp] theorem Ctx.setRg_ctxid (k : Ctx) (n : Nat) (r : Ring) : (k.setRg n r).ctxid = k.ctxid := rfl
@[simp] theorem Ctx.setRg_duty (k : Ctx) (n : Nat) (r : Ring) : (k.setRg n r).duty = k.duty := rfl
@[simp] theorem Ctx.setRg_tdepth (k : Ctx) (n : Nat) (r : Ring) : (k.setRg n r).tdepth = k.tdepth := rfl
@[simp] theorem Ctx.setH_sreg (k : Ctx) (n : Nat) (h : Handle) : (k.setH n h).sreg = k.sreg := rfl
@[simp] theorem Ctx.setH_predV (k : Ctx) (n : Nat) (h : Handle) : (k.setH n h).predV = k.predV := rfl
@[simp] theorem Ctx.setH_predW (k : Ctx) (n : Nat) (h : Handle) : (k.setH n h).predW = k.predW := rfl
@[simp] theorem Ctx.setH_tile (k : Ctx) (n : Nat) (h : Handle) : (k.setH n h).tile = k.tile := rfl
@[simp] theorem Ctx.setH_bank (k : Ctx) (n : Nat) (h : Handle) : (k.setH n h).bank = k.bank := rfl
@[simp] theorem Ctx.setH_mirror (k : Ctx) (n : Nat) (h : Handle) : (k.setH n h).mirror = k.mirror := rfl
@[simp] theorem Ctx.setH_acc (k : Ctx) (n : Nat) (h : Handle) : (k.setH n h).acc = k.acc := rfl
@[simp] theorem Ctx.setH_accKind (k : Ctx) (n : Nat) (h : Handle) : (k.setH n h).accKind = k.accKind := rfl
@[simp] theorem Ctx.setH_mould (k : Ctx) (n : Nat) (h : Handle) : (k.setH n h).mould = k.mould := rfl
@[simp] theorem Ctx.setH_flow (k : Ctx) (n : Nat) (h : Handle) : (k.setH n h).flow = k.flow := rfl
@[simp] theorem Ctx.setH_spad (k : Ctx) (n : Nat) (h : Handle) : (k.setH n h).spad = k.spad := rfl
@[simp] theorem Ctx.setH_ring (k : Ctx) (n : Nat) (h : Handle) : (k.setH n h).ring = k.ring := rfl
@[simp] theorem Ctx.setH_bb (k : Ctx) (n : Nat) (h : Handle) : (k.setH n h).bb = k.bb := rfl
@[simp] theorem Ctx.setH_stream (k : Ctx) (n : Nat) (h : Handle) : (k.setH n h).stream = k.stream := rfl
@[simp] theorem Ctx.setH_port (k : Ctx) (n : Nat) (h : Handle) : (k.setH n h).port = k.port := rfl
@[simp] theorem Ctx.setH_latchV (k : Ctx) (n : Nat) (h : Handle) : (k.setH n h).latchV = k.latchV := rfl
@[simp] theorem Ctx.setH_latchS (k : Ctx) (n : Nat) (h : Handle) : (k.setH n h).latchS = k.latchS := rfl
@[simp] theorem Ctx.setH_sem (k : Ctx) (n : Nat) (h : Handle) : (k.setH n h).sem = k.sem := rfl
@[simp] theorem Ctx.setH_loop (k : Ctx) (n : Nat) (h : Handle) : (k.setH n h).loop = k.loop := rfl
@[simp] theorem Ctx.setH_ras (k : Ctx) (n : Nat) (h : Handle) : (k.setH n h).ras = k.ras := rfl
@[simp] theorem Ctx.setH_depth (k : Ctx) (n : Nat) (h : Handle) : (k.setH n h).depth = k.depth := rfl
@[simp] theorem Ctx.setH_sw (k : Ctx) (n : Nat) (h : Handle) : (k.setH n h).sw = k.sw := rfl
@[simp] theorem Ctx.setH_pword (k : Ctx) (n : Nat) (h : Handle) : (k.setH n h).pword = k.pword := rfl
@[simp] theorem Ctx.setH_deadline (k : Ctx) (n : Nat) (h : Handle) : (k.setH n h).deadline = k.deadline := rfl
@[simp] theorem Ctx.setH_ovfptr (k : Ctx) (n : Nat) (h : Handle) : (k.setH n h).ovfptr = k.ovfptr := rfl
@[simp] theorem Ctx.setH_seed (k : Ctx) (n : Nat) (h : Handle) : (k.setH n h).seed = k.seed := rfl
@[simp] theorem Ctx.setH_dispret (k : Ctx) (n : Nat) (h : Handle) : (k.setH n h).dispret = k.dispret := rfl
@[simp] theorem Ctx.setH_fpctl (k : Ctx) (n : Nat) (h : Handle) : (k.setH n h).fpctl = k.fpctl := rfl
@[simp] theorem Ctx.setH_ctxid (k : Ctx) (n : Nat) (h : Handle) : (k.setH n h).ctxid = k.ctxid := rfl
@[simp] theorem Ctx.setH_duty (k : Ctx) (n : Nat) (h : Handle) : (k.setH n h).duty = k.duty := rfl
@[simp] theorem Ctx.setH_tdepth (k : Ctx) (n : Nat) (h : Handle) : (k.setH n h).tdepth = k.tdepth := rfl
@[simp] theorem Ctx.addFlags_sreg (k : Ctx) (f : Flags) : (k.addFlags f).sreg = k.sreg := rfl
@[simp] theorem Ctx.addFlags_predV (k : Ctx) (f : Flags) : (k.addFlags f).predV = k.predV := rfl
@[simp] theorem Ctx.addFlags_predW (k : Ctx) (f : Flags) : (k.addFlags f).predW = k.predW := rfl
@[simp] theorem Ctx.addFlags_tile (k : Ctx) (f : Flags) : (k.addFlags f).tile = k.tile := rfl
@[simp] theorem Ctx.addFlags_bank (k : Ctx) (f : Flags) : (k.addFlags f).bank = k.bank := rfl
@[simp] theorem Ctx.addFlags_mirror (k : Ctx) (f : Flags) : (k.addFlags f).mirror = k.mirror := rfl
@[simp] theorem Ctx.addFlags_acc (k : Ctx) (f : Flags) : (k.addFlags f).acc = k.acc := rfl
@[simp] theorem Ctx.addFlags_accKind (k : Ctx) (f : Flags) : (k.addFlags f).accKind = k.accKind := rfl
@[simp] theorem Ctx.addFlags_mould (k : Ctx) (f : Flags) : (k.addFlags f).mould = k.mould := rfl
@[simp] theorem Ctx.addFlags_flow (k : Ctx) (f : Flags) : (k.addFlags f).flow = k.flow := rfl
@[simp] theorem Ctx.addFlags_spad (k : Ctx) (f : Flags) : (k.addFlags f).spad = k.spad := rfl
@[simp] theorem Ctx.addFlags_ring (k : Ctx) (f : Flags) : (k.addFlags f).ring = k.ring := rfl
@[simp] theorem Ctx.addFlags_bb (k : Ctx) (f : Flags) : (k.addFlags f).bb = k.bb := rfl
@[simp] theorem Ctx.addFlags_stream (k : Ctx) (f : Flags) : (k.addFlags f).stream = k.stream := rfl
@[simp] theorem Ctx.addFlags_port (k : Ctx) (f : Flags) : (k.addFlags f).port = k.port := rfl
@[simp] theorem Ctx.addFlags_latchV (k : Ctx) (f : Flags) : (k.addFlags f).latchV = k.latchV := rfl
@[simp] theorem Ctx.addFlags_latchS (k : Ctx) (f : Flags) : (k.addFlags f).latchS = k.latchS := rfl
@[simp] theorem Ctx.addFlags_handle (k : Ctx) (f : Flags) : (k.addFlags f).handle = k.handle := rfl
@[simp] theorem Ctx.addFlags_sem (k : Ctx) (f : Flags) : (k.addFlags f).sem = k.sem := rfl
@[simp] theorem Ctx.addFlags_loop (k : Ctx) (f : Flags) : (k.addFlags f).loop = k.loop := rfl
@[simp] theorem Ctx.addFlags_ras (k : Ctx) (f : Flags) : (k.addFlags f).ras = k.ras := rfl
@[simp] theorem Ctx.addFlags_depth (k : Ctx) (f : Flags) : (k.addFlags f).depth = k.depth := rfl
@[simp] theorem Ctx.addFlags_pword (k : Ctx) (f : Flags) : (k.addFlags f).pword = k.pword := rfl
@[simp] theorem Ctx.addFlags_deadline (k : Ctx) (f : Flags) : (k.addFlags f).deadline = k.deadline := rfl
@[simp] theorem Ctx.addFlags_ovfptr (k : Ctx) (f : Flags) : (k.addFlags f).ovfptr = k.ovfptr := rfl
@[simp] theorem Ctx.addFlags_seed (k : Ctx) (f : Flags) : (k.addFlags f).seed = k.seed := rfl
@[simp] theorem Ctx.addFlags_dispret (k : Ctx) (f : Flags) : (k.addFlags f).dispret = k.dispret := rfl
@[simp] theorem Ctx.addFlags_fpctl (k : Ctx) (f : Flags) : (k.addFlags f).fpctl = k.fpctl := rfl
@[simp] theorem Ctx.addFlags_ctxid (k : Ctx) (f : Flags) : (k.addFlags f).ctxid = k.ctxid := rfl
@[simp] theorem Ctx.addFlags_duty (k : Ctx) (f : Flags) : (k.addFlags f).duty = k.duty := rfl
@[simp] theorem Ctx.addFlags_tdepth (k : Ctx) (f : Flags) : (k.addFlags f).tdepth = k.tdepth := rfl
@[simp] theorem Ctx.clearLatches_sreg (k : Ctx) : (k.clearLatches).sreg = k.sreg := rfl
@[simp] theorem Ctx.clearLatches_predV (k : Ctx) : (k.clearLatches).predV = k.predV := rfl
@[simp] theorem Ctx.clearLatches_predW (k : Ctx) : (k.clearLatches).predW = k.predW := rfl
@[simp] theorem Ctx.clearLatches_tile (k : Ctx) : (k.clearLatches).tile = k.tile := rfl
@[simp] theorem Ctx.clearLatches_bank (k : Ctx) : (k.clearLatches).bank = k.bank := rfl
@[simp] theorem Ctx.clearLatches_mirror (k : Ctx) : (k.clearLatches).mirror = k.mirror := rfl
@[simp] theorem Ctx.clearLatches_acc (k : Ctx) : (k.clearLatches).acc = k.acc := rfl
@[simp] theorem Ctx.clearLatches_accKind (k : Ctx) : (k.clearLatches).accKind = k.accKind := rfl
@[simp] theorem Ctx.clearLatches_mould (k : Ctx) : (k.clearLatches).mould = k.mould := rfl
@[simp] theorem Ctx.clearLatches_flow (k : Ctx) : (k.clearLatches).flow = k.flow := rfl
@[simp] theorem Ctx.clearLatches_spad (k : Ctx) : (k.clearLatches).spad = k.spad := rfl
@[simp] theorem Ctx.clearLatches_ring (k : Ctx) : (k.clearLatches).ring = k.ring := rfl
@[simp] theorem Ctx.clearLatches_bb (k : Ctx) : (k.clearLatches).bb = k.bb := rfl
@[simp] theorem Ctx.clearLatches_stream (k : Ctx) : (k.clearLatches).stream = k.stream := rfl
@[simp] theorem Ctx.clearLatches_port (k : Ctx) : (k.clearLatches).port = k.port := rfl
@[simp] theorem Ctx.clearLatches_handle (k : Ctx) : (k.clearLatches).handle = k.handle := rfl
@[simp] theorem Ctx.clearLatches_sem (k : Ctx) : (k.clearLatches).sem = k.sem := rfl
@[simp] theorem Ctx.clearLatches_loop (k : Ctx) : (k.clearLatches).loop = k.loop := rfl
@[simp] theorem Ctx.clearLatches_ras (k : Ctx) : (k.clearLatches).ras = k.ras := rfl
@[simp] theorem Ctx.clearLatches_depth (k : Ctx) : (k.clearLatches).depth = k.depth := rfl
@[simp] theorem Ctx.clearLatches_sw (k : Ctx) : (k.clearLatches).sw = k.sw := rfl
@[simp] theorem Ctx.clearLatches_pword (k : Ctx) : (k.clearLatches).pword = k.pword := rfl
@[simp] theorem Ctx.clearLatches_deadline (k : Ctx) : (k.clearLatches).deadline = k.deadline := rfl
@[simp] theorem Ctx.clearLatches_ovfptr (k : Ctx) : (k.clearLatches).ovfptr = k.ovfptr := rfl
@[simp] theorem Ctx.clearLatches_seed (k : Ctx) : (k.clearLatches).seed = k.seed := rfl
@[simp] theorem Ctx.clearLatches_dispret (k : Ctx) : (k.clearLatches).dispret = k.dispret := rfl
@[simp] theorem Ctx.clearLatches_fpctl (k : Ctx) : (k.clearLatches).fpctl = k.fpctl := rfl
@[simp] theorem Ctx.clearLatches_ctxid (k : Ctx) : (k.clearLatches).ctxid = k.ctxid := rfl
@[simp] theorem Ctx.clearLatches_duty (k : Ctx) : (k.clearLatches).duty = k.duty := rfl
@[simp] theorem Ctx.clearLatches_tdepth (k : Ctx) : (k.clearLatches).tdepth = k.tdepth := rfl

/-- s0 reads as zero, whatever is written (01 R15). -/
@[simp] theorem Ctx.reg_zero (k : Ctx) : k.reg 0 = 0 := rfl
@[simp] theorem Ctx.setReg_zero (k : Ctx) (v : Word) : k.setReg 0 v = k := rfl
theorem Ctx.reg_setReg (k : Ctx) (r : Nat) (v : Word) (h : r ≠ 0) : (k.setReg r v).reg r = v := by
  simp [Ctx.setReg, Ctx.reg, h]
theorem Ctx.reg_setReg_ne (k : Ctx) (r q : Nat) (v : Word) (h : q ≠ r) : (k.setReg r v).reg q = k.reg q := by
  unfold Ctx.setReg Ctx.reg
  by_cases hr : r = 0
  · simp [hr]
  · simp [hr, Tbl.get_set_ne _ _ _ h]
/-- p0 reads V = 1 and W = 1, whatever is written (01 R16). -/
@[simp] theorem Ctx.pv_zero (k : Ctx) : k.pv 0 = true := rfl
@[simp] theorem Ctx.pw_zero (k : Ctx) : k.pw 0 = true := rfl
@[simp] theorem Ctx.setPred_zero (k : Ctx) (v : Bool) : k.setPred 0 v = k := rfl
theorem setBit_same {n : Nat} (x : BitVec n) (i : Nat) (b : Bool) (h : i < n) : (setBit x i b).getLsbD i = b := by
  cases b <;> simp [setBit, h]
theorem setBit_ne {n : Nat} (x : BitVec n) (i j : Nat) (b : Bool) (h : j ≠ i) : (setBit x i b).getLsbD j = x.getLsbD j := by
  by_cases hj : j < n
  · cases b <;> simp [setBit, hj, h, BitVec.getLsbD_twoPow, Ne.symm h]
  · cases b <;> simp [setBit, BitVec.getLsbD_of_ge _ _ (Nat.le_of_not_lt hj)]
theorem Ctx.pv_setPred (k : Ctx) (p : Nat) (v : Bool) (h : p ≠ 0) (hp : p < 16) : (k.setPred p v).pv p = v := by
  simp [Ctx.setPred, Ctx.pv, h, setBit_same _ _ _ hp]
theorem Ctx.pw_setPred (k : Ctx) (p : Nat) (v : Bool) (h : p ≠ 0) (hp : p < 16) : (k.setPred p v).pw p = true := by
  simp [Ctx.setPred, Ctx.pw, h, setBit_same _ _ _ hp]
theorem Ctx.pv_setPred_ne (k : Ctx) (p q : Nat) (v : Bool) (h : q ≠ p) : (k.setPred p v).pv q = k.pv q := by
  unfold Ctx.setPred Ctx.pv
  split <;> simp [setBit_ne _ _ _ _ h]
theorem Ctx.pw_setPred_ne (k : Ctx) (p q : Nat) (v : Bool) (h : q ≠ p) : (k.setPred p v).pw q = k.pw q := by
  unfold Ctx.setPred Ctx.pw
  split <;> simp [setBit_ne _ _ _ _ h]

/-! ### Bytes of a memory -/

theorem Tbl.get_putBytes_ne (l : List Byte) : ∀ (t : Tbl Byte) (a j : Nat), (j < a ∨ a + l.length ≤ j) →
    (t.putBytes a l).get 0 j = t.get 0 j := by
  induction l with
  | nil => intro t a j _; rfl
  | cons b r ih =>
    intro t a j h
    simp only [List.length_cons] at h
    unfold Tbl.putBytes
    rw [ih _ _ _ (by omega), Tbl.get_set_ne _ _ _ (by omega)]
theorem Tbl.get_putBytes (l : List Byte) : ∀ (t : Tbl Byte) (a i : Nat) (h : i < l.length),
    (t.putBytes a l).get 0 (a + i) = l[i] := by
  induction l with
  | nil => intro t a i h; simp at h
  | cons b r ih =>
    intro t a i h
    unfold Tbl.putBytes
    cases i with
    | zero => rw [Tbl.get_putBytes_ne _ _ _ _ (by omega)]; exact Tbl.get_set_same _ _ _ _
    | succ i =>
      have h' : i < r.length := by simpa using h
      have := ih (t.set 0 a b) (a + 1) i h'
      rw [show a + (i + 1) = a + 1 + i by omega, this]; rfl

end Sys2Proof.Machine
end

