-- ==== Sys2Proof/Laws/Ops.lean ====
section
/-! SUPPORT. What committing a unit does, said once: where nothing keeps the unit from committing, its effect is the core's
new state; a fault of its own replaces that effect. -/
namespace Sys2Proof.Machine

@[simp] theorem Core.noteFatal_clear (k : Core) (t : Nat) (h : k.seq.fatal = none) : k.noteFatal t = k := by
  simp [Core.noteFatal, h]

theorem State.setCore_eq {s : State} {c : Nat} {k k' : Core} (h : k = k') : s.setCore c k = s.setCore c k' := by rw [h]
theorem State.onCore_congr {s : State} {c : Nat} {f g : Core → Core} (h : f (s.core c) = g (s.core c)) :
    s.onCore c f = s.onCore c g := by simp [State.onCore, h]

/-- Two updates of one core are one. -/
@[simp] theorem State.onCore_onCore (s : State) (c : Nat) (f g : Core → Core) :
    (s.onCore c f).onCore c g = s.onCore c (fun k => g (f k)) := by
  simp [State.onCore, State.setCore, State.core]

/-- A unit's effect takes place where no fatal cause or trap stands before it and it raises none. -/
theorem commitGate_clear {k k' : Core} (h : k.seq.fatal = none) (h1 : k.seq.trap = none) (h2 : k'.seq.fatal = none)
    (h3 : k'.seq.trap = none) : commitGate k k' = k' := by simp [commitGate, h, h1, h2, h3]
theorem commitCore_clear {s : State} (f : Core → Core) (h : s.clear) (h2 : (f s.self).seq.fatal = none)
    (h3 : (f s.self).seq.trap = none) : commitCore s f = .next (s.onCore s.unit.core f) := by
  refine congrArg _ (State.onCore_congr ?_)
  rw [commitGate_clear h.1 h.2 h2 h3, Core.noteFatal_clear _ _ h2]
/-- A unit that faults leaves its fatal cause alone. -/
theorem commitCore_fault {s : State} (f : Core → Core) (cause detail : Nat) (h : s.clear)
    (h2 : f s.self = s.self.fault s.unit cause detail) : commitCore s f = .next (s.failed cause detail) := by
  refine congrArg _ (State.onCore_congr ?_)
  show (commitGate s.self (f s.self)).noteFatal s.gtick = _
  rw [h2]; simp [commitGate, Core.fault, Core.fatal, h.1, Core.onSeq]
/-- A unit that traps leaves its trap alone; an arithmetic trap sets its flags too. -/
theorem commitCore_trap {s : State} (f : Core → Core) (t : Trap) (h : s.clear) (h2 : f s.self = s.self.trap t)
    (h3 : t.cause ≠ causeArith) : commitCore s f = .next (s.trapped t) := by
  unfold State.trapped State.onSeq
  refine congrArg _ (State.onCore_congr ?_)
  show (commitGate s.self (f s.self)).noteFatal s.gtick = _
  rw [h2]; simp [commitGate, Core.trap, h.1, h.2, Core.onSeq, h3, Core.noteFatal]
theorem commitState_clear {s : State} (f : State → State) (h : s.clear) (h2 : ((f s).core s.unit.core).seq.fatal = none)
    (h3 : ((f s).core s.unit.core).seq.trap = none) : commitState s f = .next (f s) := by
  simp only [State.clear, State.self] at h
  simp [commitState, h.1, h.2, h2, h3]
theorem commitCop_clear {s : State} (f : State → State) (h : s.clear) : commitCop s f = .next (f s) := by
  simp only [State.clear, State.self] at h
  simp [commitCop, h.1, h.2]

/-- A scheduled result raises nothing. -/
@[simp] theorem Core.after_fatal (k : Core) (u : UnitCtx) (l : Nat) (e : LandEff) : (k.after u l e).seq.fatal = k.seq.fatal := rfl
@[simp] theorem Core.after_trap (k : Core) (u : UnitCtx) (l : Nat) (e : LandEff) : (k.after u l e).seq.trap = k.seq.trap := rfl
@[simp] theorem Core.after_ctx (k : Core) (u : UnitCtx) (l : Nat) (e : LandEff) : (k.after u l e).ctx = k.ctx := rfl
@[simp] theorem Core.after_eng (k : Core) (u : UnitCtx) (l : Nat) (e : LandEff) : (k.after u l e).eng = k.eng := rfl
theorem commitCore_after {s : State} (l : Nat) (e : Core → LandEff) (h : s.clear) :
    commitCore s (fun k => k.after s.unit l (e k)) = .next (s.schedule l (e s.self)) := by
  rw [commitCore_clear _ h (by simpa using h.1) (by simpa using h.2)]
  exact congrArg _ (State.onCore_congr rfl)
theorem scalarOp_clear {s : State} (f : SF) (l : Nat) (g : Ctx → Word) (h : s.clear) :
    scalarOp f l g s = .next (s.returns f l (g s.regs)) :=
  commitCore_after l (fun k => .scalar (sDst f) (some s.unit.sLatch) (g k.ctx) none) h
theorem binOp_clear {s : State} (f : SF) (l : Nat) (g : Word → Word → Word) (h : s.clear) :
    binOp f l g s = .next (s.returns f l (g (s.regs.src f.sa) (s.regs.src f.sb))) := scalarOp_clear f l _ h
theorem unOp_clear {s : State} (f : SF) (l : Nat) (g : Word → Word) (h : s.clear) :
    unOp f l g s = .next (s.returns f l (g (s.regs.src f.sa))) := scalarOp_clear f l _ h
theorem predOp_clear {s : State} (p : Nat) (g : Ctx → Bool) (h : s.clear) :
    predOp p g s = .next (s.decides p (g s.regs)) :=
  commitCore_after 1 (fun k => .pred p (g k.ctx) (some s.unit.sLatch)) h

/-- An update of the core in hand leaves everything outside it. -/
theorem State.onCore_onlyCore (s : State) (f : Core → Core) : s.onlyCore (s.onCore s.unit.core f) :=
  ⟨fun c hc => by simp [hc], rfl, rfl, rfl, rfl, rfl, rfl, rfl, rfl, rfl, rfl, rfl, rfl, rfl⟩
/-- The same, read off the next state: the core in hand is what the effect makes of it. -/
theorem commitCore_ok {s : State} (f : Core → Core) (h : s.clear) (h2 : (f s.self).seq.fatal = none)
    (h3 : (f s.self).seq.trap = none) :
    ∃ t, commitCore s f = .next t ∧ t.self = f s.self ∧ s.onlyCore t ∧ t.unit = s.unit :=
  ⟨_, commitCore_clear f h h2 h3, s.onCore_core _ f, s.onCore_onlyCore f, rfl⟩
/-- What a core's parts are after the gate: as before, or as the effect left them. -/
theorem commitGate_keeps {α : Type} (g : Core → α) (hg : ∀ (k : Core) (q : Seqr → Seqr), g (k.onSeq q) = g k) (k k' : Core)
    (h : g k' = g k) : g (commitGate k k') = g k := by
  unfold commitGate Core.raiseFlags
  repeat' split
  all_goals simp [hg, h]
theorem noteFatal_keeps {α : Type} (g : Core → α) (hg : ∀ (k : Core) (q : Seqr → Seqr), g (k.onSeq q) = g k) (k : Core)
    (n : Nat) : g (k.noteFatal n) = g k := by
  unfold Core.noteFatal; split <;> simp [hg]
/-- A unit whose effect moves only the sequencer leaves everything else, whether it commits, faults or traps. -/
theorem commitCore_onlySeq {s t : State} {f : Core → Core} (h1 : (f s.self).ctx = s.self.ctx) (h2 : (f s.self).eng = s.self.eng)
    (h3 : (f s.self).job = s.self.job) (h4 : (f s.self).cgen = s.self.cgen) (h5 : (f s.self).ldq = s.self.ldq)
    (h : commitCore s f = .next t) : s.onlySeq t := by
  injection h with h
  subst h
  have e : (s.onCore s.unit.core (fun k => (commitGate k (f k)).noteFatal s.gtick)).self =
      (commitGate s.self (f s.self)).noteFatal s.gtick := by simp [State.self]
  refine ⟨s.onCore_onlyCore _, ?_, ?_, ?_, ?_, ?_⟩ <;> rw [e]
  · rw [noteFatal_keeps Core.ctx (fun _ _ => rfl), commitGate_keeps Core.ctx (fun _ _ => rfl) _ _ h1]
  · rw [noteFatal_keeps Core.eng (fun _ _ => rfl), commitGate_keeps Core.eng (fun _ _ => rfl) _ _ h2]
  · rw [noteFatal_keeps Core.job (fun _ _ => rfl), commitGate_keeps Core.job (fun _ _ => rfl) _ _ h3]
  · rw [noteFatal_keeps Core.cgen (fun _ _ => rfl), commitGate_keeps Core.cgen (fun _ _ => rfl) _ _ h4]
  · rw [noteFatal_keeps Core.ldq (fun _ _ => rfl), commitGate_keeps Core.ldq (fun _ _ => rfl) _ _ h5]
/-- A scheduled result leaves all but the sequencer of the core in hand. -/
theorem State.schedule_onlySeq (s : State) (l : Nat) (e : LandEff) : s.onlySeq (s.schedule l e) := by
  refine ⟨s.onCore_onlyCore _, ?_, ?_, ?_, ?_, ?_⟩ <;> simp [State.schedule, State.self, State.onSeq, Core.onSeq]

/-! ### Vector operations -/

theorem State.sram_clean (s : State) (c r lo n : Nat) (h : s.mem.sramBad = []) (h2 : s.mem.sramSoft = []) :
    s.sram c r lo n = (s, false) := by simp [State.sram, h, h2]
theorem State.sramAll_clean (s : State) (c r : Nat) (l : List (Nat × Nat)) (h : s.mem.sramBad = []) (h2 : s.mem.sramSoft = []) :
    s.sramAll c r l = (s, false) := by
  unfold State.sramAll
  induction l with
  | nil => rfl
  | cons a l ih => simpa [State.sram_clean, h, h2] using ih
theorem State.operandEcc_clean (s : State) (f : VF) (ws : Nat × Nat × Nat) (h : s.mem.sramBad = []) (h2 : s.mem.sramSoft = []) :
    s.operandEcc f ws = (s, false) := by
  unfold State.operandEcc
  exact s.sramAll_clean _ _ _ h h2

/-- Whether a row may be written does not depend on the row or on the latency. -/
theorem Core.vwrite_fatal (k : Core) (u : UnitCtx) (f : VF) (l l' w : Nat) (v v' : Row) :
    (k.vwrite u f l w v).seq.fatal = (k.vwrite u f l' w v').seq.fatal ∧
      (k.vwrite u f l w v).seq.trap = (k.vwrite u f l' w v').seq.trap := by
  simp only [Core.vwrite]
  split
  · exact ⟨rfl, rfl⟩
  · split
    · exact ⟨rfl, rfl⟩
    · split <;> exact ⟨rfl, rfl⟩
@[simp] theorem Core.keepDraw_fatal (k : Core) (u : UnitCtx) : (k.keepDraw u).seq.fatal = k.seq.fatal := by
  unfold Core.keepDraw; split <;> rfl
@[simp] theorem Core.keepDraw_trap (k : Core) (u : UnitCtx) : (k.keepDraw u).seq.trap = k.seq.trap := by
  unfold Core.keepDraw; split <;> rfl
@[simp] theorem Core.raiseFlags_fatal (k : Core) (u : Nat) (b : BitVec 5) : (k.raiseFlags u b).seq.fatal = k.seq.fatal := by
  unfold Core.raiseFlags; split <;> rfl
@[simp] theorem Core.raiseFlags_trap (k : Core) (u : Nat) (b : BitVec 5) : (k.raiseFlags u b).seq.trap = k.seq.trap := by
  unfold Core.raiseFlags; split <;> rfl

/-- Reading a source moves an operand port or a stream register at most, and may raise a fatal cause. -/
theorem Core.vread_ctx {α : Type} (g : Ctx → α) (hp : ∀ (k : Ctx) p, g { k with port := p } = g k)
    (hs : ∀ (k : Ctx) p, g { k with stream := p } = g k) (k : Core) (u : UnitCtx) (f : VF) (w : Nat) (c : BitVec 6) :
    g (k.vread u f w c).1.ctx = g k.ctx := by
  have hf : ∀ (k : Core) c, (k.fault u c).ctx = k.ctx := by intro k c; simp only [Core.fault, Core.fatal]; split <;> rfl
  have h1 : ∀ n b, g (k.usePort u n b).1.ctx = g k.ctx := by
    intro n b; unfold Core.usePort
    dsimp only
    split
    · rw [hf]
    · split
      · rw [hf]
      · exact hp _ _
  have h2 : ∀ n, g (k.popStream u n).1.ctx = g k.ctx := by
    intro n; unfold Core.popStream
    dsimp only
    split
    · exact hs _ _
    · split
      · rfl
      · rw [hf]
  unfold Core.vread
  dsimp only
  split
  · rfl
  · split
    · rfl
    · split
      · have := h1 (c.toNat - 32) false
        split <;> simp_all
      · split
        · exact h2 _
        · repeat' split
          all_goals rfl
theorem Core.srcs_ctx {α : Type} (g : Ctx → α) (hp : ∀ (k : Ctx) p, g { k with port := p } = g k)
    (hs : ∀ (k : Ctx) p, g { k with stream := p } = g k) (k : Core) (u : UnitCtx) (f : VF) (a b c : Nat) :
    g (k.srcs u f a b c).k.ctx = g k.ctx := by
  simp only [Core.srcs]
  split <;> split <;> split <;> simp [Core.vread_ctx g hp hs]
theorem Core.vwrite_ctx {α : Type} (g : Ctx → α) (hp : ∀ (k : Ctx) p, g { k with port := p } = g k) (k : Core) (u : UnitCtx)
    (f : VF) (l w : Nat) (v : Row) : g (k.vwrite u f l w v).ctx = g k.ctx := by
  have hf : ∀ (k : Core) c, (k.fault u c).ctx = k.ctx := by intro k c; simp only [Core.fault, Core.fatal]; split <;> rfl
  have h1 : ∀ n b, g (k.usePort u n b).1.ctx = g k.ctx := by
    intro n b; unfold Core.usePort
    dsimp only
    split
    · rw [hf]
    · split
      · rw [hf]
      · exact hp _ _
  have ht : ∀ (k : Core) t, (k.tileCheck u t).ctx = k.ctx := by
    intro k t; unfold Core.tileCheck; repeat' split
    all_goals simp [hf]
  simp only [Core.vwrite]
  split
  · simp
  · split
    · simp [ht]
    · have := h1 (f.dst.toNat - 32) true
      split <;> simp_all

/-- What a vector operation does, once it may commit. -/
theorem vecOp_result {s : State} {i : Instr} {f : VF} {l w : Nat} {ws : Nat × Nat × Nat}
    {g : Ctx → UnitCtx → Srcs → Row × Flags} (he : exec i s = vecOp f l w ws g s) (h : s.vectorReady f w ws) :
    let x := s.self.srcs s.unit f ws.1 ws.2.1 ws.2.2
    s.vectorResult i f l w ws (g s.regs s.unit x).1 (g s.regs s.unit x).2 := by
  intro x
  obtain ⟨hc, h1, h2, h3, h4⟩ := h
  have e : ∀ l v, (x.k.vwrite s.unit f l w v).seq.fatal = none ∧ (x.k.vwrite s.unit f l w v).seq.trap = none := fun l v =>
    ⟨((Core.vwrite_fatal _ _ _ _ _ _ _ _).1.trans h3), ((Core.vwrite_fatal _ _ _ _ _ _ _ _).2.trans h4)⟩
  have ht : ∀ l v, (x.k.vwrite s.unit f l w v).ctx.ten = s.regs.ten := fun l v =>
    (Core.vwrite_ctx Ctx.ten (fun _ _ => rfl) _ _ _ _ _ _).trans (Core.srcs_ctx Ctx.ten (fun _ _ => rfl) (fun _ _ => rfl) _ _ _ _ _ _)
  have eq : ∀ (k : Core), (let x := k.srcs s.unit f ws.1 ws.2.1 ws.2.2
      let r := g k.ctx s.unit x
      ((x.k.vwrite s.unit f l w r.1).raise s.unit r.2).keepDraw s.unit) =
      (fun k : Core => (((k.srcs s.unit f ws.1 ws.2.1 ws.2.2).k.vwrite s.unit f l w
        (g k.ctx s.unit (k.srcs s.unit f ws.1 ws.2.1 ws.2.2)).1).raise s.unit
        (g k.ctx s.unit (k.srcs s.unit f ws.1 ws.2.1 ws.2.2)).2).keepDraw s.unit) k := fun _ => rfl
  have ev : exec i s = commitCore s (fun k => (((k.srcs s.unit f ws.1 ws.2.1 ws.2.2).k.vwrite s.unit f l w
        (g k.ctx s.unit (k.srcs s.unit f ws.1 ws.2.1 ws.2.2)).1).raise s.unit
        (g k.ctx s.unit (k.srcs s.unit f ws.1 ws.2.1 ws.2.2)).2).keepDraw s.unit) := by
    rw [he]; simp [vecOp, State.operandEcc_clean _ _ _ h1 h2]
  constructor
  · intro hf
    have hr : ∀ v, (x.k.vwrite s.unit f l w v).raise s.unit (g s.regs s.unit x).2 =
        (x.k.vwrite s.unit f l w v).raiseFlags s.unit.unit (g s.regs s.unit x).2.bits := by
      intro v; simp only [Core.raise, ht, hf]; rfl
    rw [ev, commitCore_clear _ hc]
    · exact congrArg _ (State.onCore_congr (congrArg (fun k : Core => k.keepDraw s.unit) (hr _)))
    · show ((((x.k.vwrite s.unit f l w (g s.regs s.unit x).1).raise s.unit (g s.regs s.unit x).2).keepDraw s.unit)).seq.fatal = none
      rw [hr]; simp [e]
    · show ((((x.k.vwrite s.unit f l w (g s.regs s.unit x).1).raise s.unit (g s.regs s.unit x).2).keepDraw s.unit)).seq.trap = none
      rw [hr]; simp [e]
  · intro hf
    have hr : ∀ v, (x.k.vwrite s.unit f l w v).raise s.unit (g s.regs s.unit x).2 = (x.k.vwrite s.unit f l w v).trap
        ⟨causeArith, s.unit.unit, (g s.regs s.unit x).2.bits.setWidth 64, BitVec.ofNat 64 s.unit.unit⟩ := by
      intro v; simp only [Core.raise, ht, hf]; rfl
    rw [ev]
    refine ⟨_, rfl, ?_⟩
    have hg : ∀ k', k'.seq.fatal = none → k'.seq.trap = some
        (⟨causeArith, s.unit.unit, (g s.regs s.unit x).2.bits.setWidth 64, BitVec.ofNat 64 s.unit.unit⟩ : Trap) →
        ∃ q : Seqr → Seqr, commitGate s.self k' = s.self.onSeq q ∧ (q s.self.seq).fatal = none ∧
          (q s.self.seq).trap = some ⟨causeArith, s.unit.unit, (g s.regs s.unit x).2.bits.setWidth 64, BitVec.ofNat 64 s.unit.unit⟩ := by
      intro k' a b
      simp only [commitGate, hc.1, hc.2, a, b, Option.isSome_none, Bool.false_eq_true, if_false]
      simp only [Core.raiseFlags, if_true]
      split
      · exact ⟨fun q => { q with trap := some _ }, rfl, hc.1, rfl⟩
      · exact ⟨fun q => { q with trap := some _, pend := q.pend ++ [⟨1, q.issue, s.unit.unit, .flags _⟩] }, rfl, hc.1, rfl⟩
    obtain ⟨q, a, b, c⟩ := hg (((x.k.vwrite s.unit f l w (g s.regs s.unit x).1).raise s.unit (g s.regs s.unit x).2).keepDraw s.unit)
      (by rw [hr]; simp [e, Core.trap, Core.onSeq]) (by rw [hr]; simp [Core.trap, Core.onSeq])
    have et : (s.onCore s.unit.core (fun k => (commitGate k ((((k.srcs s.unit f ws.1 ws.2.1 ws.2.2).k.vwrite s.unit f l w
        (g k.ctx s.unit (k.srcs s.unit f ws.1 ws.2.1 ws.2.2)).1).raise s.unit
        (g k.ctx s.unit (k.srcs s.unit f ws.1 ws.2.1 ws.2.2)).2).keepDraw s.unit)).noteFatal s.gtick)) =
        s.onCore s.unit.core (·.onSeq q) := by
      refine State.onCore_congr ?_
      show (commitGate s.self (((x.k.vwrite s.unit f l w (g s.regs s.unit x).1).raise s.unit (g s.regs s.unit x).2).keepDraw
        s.unit)).noteFatal s.gtick = _
      rw [a, Core.noteFatal_clear _ _ (by simpa [Core.onSeq] using b)]
    rw [et]
    refine ⟨⟨s.onCore_onlyCore _, ?_, ?_, ?_, ?_, ?_⟩, ?_⟩ <;> simp [State.self, Core.onSeq]
    exact c

end Sys2Proof.Machine
end

