-- ==== Sys2Proof/Laws/PerInstr.lean ====
section
/-! SUPPORT. What holds of every instruction as syntax: a control transfer is an operation of the S slot
(03_bundle_encoding.md R108, R111). -/
namespace Sys2Proof.Laws

/-- A control transfer has a word, which stands in the S slot. -/
def TransfersAreScalar.Statement (i : Instr) : Prop := i.isTransfer = true → ∃ w, i.slotWord = some (.s, w)

theorem TransfersAreScalar.bundleIssue (c : Nat) : TransfersAreScalar.Statement (.bundleIssue c) := by intro h; cases h
theorem TransfersAreScalar.lockstepResultLand (c : Nat) : TransfersAreScalar.Statement (.lockstepResultLand c) := by intro h; cases h
theorem TransfersAreScalar.loadLand (c k : Nat) : TransfersAreScalar.Statement (.loadLand c k) := by intro h; cases h
theorem TransfersAreScalar.copReplyLand (c k : Nat) : TransfersAreScalar.Statement (.copReplyLand c k) := by intro h; cases h
theorem TransfersAreScalar.commandStart (c q : Nat) : TransfersAreScalar.Statement (.commandStart c q) := by intro h; cases h
theorem TransfersAreScalar.commandRetire (c q k : Nat) : TransfersAreScalar.Statement (.commandRetire c q k) := by intro h; cases h
theorem TransfersAreScalar.mrunPanelReady (c n : Nat) : TransfersAreScalar.Statement (.mrunPanelReady c n) := by intro h; cases h
theorem TransfersAreScalar.copyGranuleComplete (c q k g : Nat) : TransfersAreScalar.Statement (.copyGranuleComplete c q k g) := by intro h; cases h
theorem TransfersAreScalar.rasRefill (c : Nat) : TransfersAreScalar.Statement (.rasRefill c) := by intro h; cases h
theorem TransfersAreScalar.trapEntry (c : Nat) : TransfersAreScalar.Statement (.trapEntry c) := by intro h; cases h
theorem TransfersAreScalar.trapReturn (c : Nat) : TransfersAreScalar.Statement (.trapReturn c) := by intro h; cases h
theorem TransfersAreScalar.preemptionRequest (c slot : Nat) : TransfersAreScalar.Statement (.preemptionRequest c slot) := by intro h; cases h
theorem TransfersAreScalar.deadlineExpiry (c : Nat) : TransfersAreScalar.Statement (.deadlineExpiry c) := by intro h; cases h
theorem TransfersAreScalar.forcedSave (c : Nat) : TransfersAreScalar.Statement (.forcedSave c) := by intro h; cases h
theorem TransfersAreScalar.cooperativeSave (c : Nat) : TransfersAreScalar.Statement (.cooperativeSave c) := by intro h; cases h
theorem TransfersAreScalar.restore (c k : Nat) : TransfersAreScalar.Statement (.restore c k) := by intro h; cases h
theorem TransfersAreScalar.hangWatchdogExpiry (c : Nat) : TransfersAreScalar.Statement (.hangWatchdogExpiry c) := by intro h; cases h
theorem TransfersAreScalar.fatalContextError (c : Nat) : TransfersAreScalar.Statement (.fatalContextError c) := by intro h; cases h
theorem TransfersAreScalar.taskComplete (c : Nat) : TransfersAreScalar.Statement (.taskComplete c) := by intro h; cases h
theorem TransfersAreScalar.taskHandoff (c : Nat) : TransfersAreScalar.Statement (.taskHandoff c) := by intro h; cases h
theorem TransfersAreScalar.timedBlockLaunch (c job node : Nat) : TransfersAreScalar.Statement (.timedBlockLaunch c job node) := by intro h; cases h
theorem TransfersAreScalar.nodeRetire (job node : Nat) : TransfersAreScalar.Statement (.nodeRetire job node) := by intro h; cases h
theorem TransfersAreScalar.branchNodeDecide (job node : Nat) : TransfersAreScalar.Statement (.branchNodeDecide job node) := by intro h; cases h
theorem TransfersAreScalar.hostSignalNode (job node : Nat) : TransfersAreScalar.Statement (.hostSignalNode job node) := by intro h; cases h
theorem TransfersAreScalar.pageWalk (k : Nat) : TransfersAreScalar.Statement (.pageWalk k) := by intro h; cases h
theorem TransfersAreScalar.faultService (k : Nat) : TransfersAreScalar.Statement (.faultService k) := by intro h; cases h
theorem TransfersAreScalar.migration (job va die : Nat) : TransfersAreScalar.Statement (.migration job va die) := by intro h; cases h
theorem TransfersAreScalar.migrationThreshold (job va die : Nat) : TransfersAreScalar.Statement (.migrationThreshold job va die) := by intro h; cases h
theorem TransfersAreScalar.patrolScrub (die addr : Nat) : TransfersAreScalar.Statement (.patrolScrub die addr) := by intro h; cases h
theorem TransfersAreScalar.vatRefill (v : Nat) : TransfersAreScalar.Statement (.vatRefill v) := by intro h; cases h
theorem TransfersAreScalar.spillRequest (v : Nat) : TransfersAreScalar.Statement (.spillRequest v) := by intro h; cases h
theorem TransfersAreScalar.packetAccept (port : Nat) (p : Packet) : TransfersAreScalar.Statement (.packetAccept port p) := by intro h; cases h
theorem TransfersAreScalar.packetCommit (k : Nat) : TransfersAreScalar.Statement (.packetCommit k) := by intro h; cases h
theorem TransfersAreScalar.packetForward (port : Nat) (p : Packet) : TransfersAreScalar.Statement (.packetForward port p) := by intro h; cases h
theorem TransfersAreScalar.ack (p : Packet) : TransfersAreScalar.Statement (.ack p) := by intro h; cases h
theorem TransfersAreScalar.nack (p : Packet) : TransfersAreScalar.Statement (.nack p) := by intro h; cases h
theorem TransfersAreScalar.landed (p : Packet) : TransfersAreScalar.Statement (.landed p) := by intro h; cases h
theorem TransfersAreScalar.query (p : Packet) : TransfersAreScalar.Statement (.query p) := by intro h; cases h
theorem TransfersAreScalar.release (p : Packet) : TransfersAreScalar.Statement (.release p) := by intro h; cases h
theorem TransfersAreScalar.notice (p : Packet) : TransfersAreScalar.Statement (.notice p) := by intro h; cases h
theorem TransfersAreScalar.fecUncorrectable (port : Nat) : TransfersAreScalar.Statement (.fecUncorrectable port) := by intro h; cases h
theorem TransfersAreScalar.trainingRecord (port : Nat) (r : TrainRec) : TransfersAreScalar.Statement (.trainingRecord port r) := by intro h; cases h
theorem TransfersAreScalar.sync (m : ColMsg) : TransfersAreScalar.Statement (.sync m) := by intro h; cases h
theorem TransfersAreScalar.ceil (m : ColMsg) : TransfersAreScalar.Statement (.ceil m) := by intro h; cases h
theorem TransfersAreScalar.raise (m : ColMsg) : TransfersAreScalar.Statement (.raise m) := by intro h; cases h
theorem TransfersAreScalar.confirm (m : ColMsg) : TransfersAreScalar.Statement (.confirm m) := by intro h; cases h
theorem TransfersAreScalar.join (m : ColMsg) : TransfersAreScalar.Statement (.join m) := by intro h; cases h
theorem TransfersAreScalar.admitted (m : ColMsg) : TransfersAreScalar.Statement (.admitted m) := by intro h; cases h
theorem TransfersAreScalar.leave (m : ColMsg) : TransfersAreScalar.Statement (.leave m) := by intro h; cases h
theorem TransfersAreScalar.silent (m : ColMsg) : TransfersAreScalar.Statement (.silent m) := by intro h; cases h
theorem TransfersAreScalar.evict (m : ColMsg) : TransfersAreScalar.Statement (.evict m) := by intro h; cases h
theorem TransfersAreScalar.protectionLimitChange (r : Sensors) (due : Nat) : TransfersAreScalar.Statement (.protectionLimitChange r due) := by intro h; cases h
theorem TransfersAreScalar.launch (d : Datagram) : TransfersAreScalar.Statement (.launch d) := by intro h; cases h
theorem TransfersAreScalar.jobend (d : Datagram) : TransfersAreScalar.Statement (.jobend d) := by intro h; cases h
theorem TransfersAreScalar.inval (d : Datagram) : TransfersAreScalar.Statement (.inval d) := by intro h; cases h
theorem TransfersAreScalar.discard (d : Datagram) : TransfersAreScalar.Statement (.discard d) := by intro h; cases h
theorem TransfersAreScalar.key (d : Datagram) : TransfersAreScalar.Statement (.key d) := by intro h; cases h
theorem TransfersAreScalar.route (d : Datagram) : TransfersAreScalar.Statement (.route d) := by intro h; cases h
theorem TransfersAreScalar.kill (d : Datagram) : TransfersAreScalar.Statement (.kill d) := by intro h; cases h
theorem TransfersAreScalar.start (d : Datagram) : TransfersAreScalar.Statement (.start d) := by intro h; cases h
theorem TransfersAreScalar.regrd (d : Datagram) : TransfersAreScalar.Statement (.regrd d) := by intro h; cases h
theorem TransfersAreScalar.regwr (d : Datagram) : TransfersAreScalar.Statement (.regwr d) := by intro h; cases h
theorem TransfersAreScalar.pcapWrite (d : Datagram) : TransfersAreScalar.Statement (.pcapWrite d) := by intro h; cases h
theorem TransfersAreScalar.hkdutyWrite (d : Datagram) : TransfersAreScalar.Statement (.hkdutyWrite d) := by intro h; cases h
theorem TransfersAreScalar.cerrWrite (d : Datagram) : TransfersAreScalar.Statement (.cerrWrite d) := by intro h; cases h
theorem TransfersAreScalar.hkstatWrite (d : Datagram) : TransfersAreScalar.Statement (.hkstatWrite d) := by intro h; cases h
theorem TransfersAreScalar.reply (d : Datagram) : TransfersAreScalar.Statement (.reply d) := by intro h; cases h
theorem TransfersAreScalar.attest (d : Datagram) : TransfersAreScalar.Statement (.attest d) := by intro h; cases h
theorem TransfersAreScalar.image (d : Datagram) : TransfersAreScalar.Statement (.image d) := by intro h; cases h
theorem TransfersAreScalar.clock (d : Datagram) : TransfersAreScalar.Statement (.clock d) := by intro h; cases h
theorem TransfersAreScalar.datagramReorder (d : Datagram) : TransfersAreScalar.Statement (.datagramReorder d) := by intro h; cases h
theorem TransfersAreScalar.rdmaWrite (k : RdmaKey) (va : Nat) (data : List Byte) : TransfersAreScalar.Statement (.rdmaWrite k va data) := by intro h; cases h
theorem TransfersAreScalar.rdmaRead (k : RdmaKey) (va n : Nat) : TransfersAreScalar.Statement (.rdmaRead k va n) := by intro h; cases h
theorem TransfersAreScalar.tableMiss (unit : Nat) : TransfersAreScalar.Statement (.tableMiss unit) := by intro h; cases h
theorem TransfersAreScalar.add (f : SF) : TransfersAreScalar.Statement (.add f) := by intro h; cases h
theorem TransfersAreScalar.sub (f : SF) : TransfersAreScalar.Statement (.sub f) := by intro h; cases h
theorem TransfersAreScalar.and (f : SF) : TransfersAreScalar.Statement (.and f) := by intro h; cases h
theorem TransfersAreScalar.or (f : SF) : TransfersAreScalar.Statement (.or f) := by intro h; cases h
theorem TransfersAreScalar.xor (f : SF) : TransfersAreScalar.Statement (.xor f) := by intro h; cases h
theorem TransfersAreScalar.andn (f : SF) : TransfersAreScalar.Statement (.andn f) := by intro h; cases h
theorem TransfersAreScalar.shl (f : SF) : TransfersAreScalar.Statement (.shl f) := by intro h; cases h
theorem TransfersAreScalar.shr (f : SF) : TransfersAreScalar.Statement (.shr f) := by intro h; cases h
theorem TransfersAreScalar.sar (f : SF) : TransfersAreScalar.Statement (.sar f) := by intro h; cases h
theorem TransfersAreScalar.rol (f : SF) : TransfersAreScalar.Statement (.rol f) := by intro h; cases h
theorem TransfersAreScalar.mul (f : SF) : TransfersAreScalar.Statement (.mul f) := by intro h; cases h
theorem TransfersAreScalar.mulh (f : SF) : TransfersAreScalar.Statement (.mulh f) := by intro h; cases h
theorem TransfersAreScalar.mulhu (f : SF) : TransfersAreScalar.Statement (.mulhu f) := by intro h; cases h
theorem TransfersAreScalar.div (f : SF) : TransfersAreScalar.Statement (.div f) := by intro h; cases h
theorem TransfersAreScalar.divu (f : SF) : TransfersAreScalar.Statement (.divu f) := by intro h; cases h
theorem TransfersAreScalar.rem (f : SF) : TransfersAreScalar.Statement (.rem f) := by intro h; cases h
theorem TransfersAreScalar.remu (f : SF) : TransfersAreScalar.Statement (.remu f) := by intro h; cases h
theorem TransfersAreScalar.min (f : SF) : TransfersAreScalar.Statement (.min f) := by intro h; cases h
theorem TransfersAreScalar.max (f : SF) : TransfersAreScalar.Statement (.max f) := by intro h; cases h
theorem TransfersAreScalar.minu (f : SF) : TransfersAreScalar.Statement (.minu f) := by intro h; cases h
theorem TransfersAreScalar.maxu (f : SF) : TransfersAreScalar.Statement (.maxu f) := by intro h; cases h
theorem TransfersAreScalar.clz (f : SF) : TransfersAreScalar.Statement (.clz f) := by intro h; cases h
theorem TransfersAreScalar.ctz (f : SF) : TransfersAreScalar.Statement (.ctz f) := by intro h; cases h
theorem TransfersAreScalar.popc (f : SF) : TransfersAreScalar.Statement (.popc f) := by intro h; cases h
theorem TransfersAreScalar.sext (f : SF) : TransfersAreScalar.Statement (.sext f) := by intro h; cases h
theorem TransfersAreScalar.zext (f : SF) : TransfersAreScalar.Statement (.zext f) := by intro h; cases h
theorem TransfersAreScalar.sel (f : SF) : TransfersAreScalar.Statement (.sel f) := by intro h; cases h
theorem TransfersAreScalar.addi (f : SF) : TransfersAreScalar.Statement (.addi f) := by intro h; cases h
theorem TransfersAreScalar.andi (f : SF) : TransfersAreScalar.Statement (.andi f) := by intro h; cases h
theorem TransfersAreScalar.ori (f : SF) : TransfersAreScalar.Statement (.ori f) := by intro h; cases h
theorem TransfersAreScalar.xori (f : SF) : TransfersAreScalar.Statement (.xori f) := by intro h; cases h
theorem TransfersAreScalar.shli (f : SF) : TransfersAreScalar.Statement (.shli f) := by intro h; cases h
theorem TransfersAreScalar.shri (f : SF) : TransfersAreScalar.Statement (.shri f) := by intro h; cases h
theorem TransfersAreScalar.sari (f : SF) : TransfersAreScalar.Statement (.sari f) := by intro h; cases h
theorem TransfersAreScalar.ldi (f : SF) : TransfersAreScalar.Statement (.ldi f) := by intro h; cases h
theorem TransfersAreScalar.ldih (f : SF) : TransfersAreScalar.Statement (.ldih f) := by intro h; cases h
theorem TransfersAreScalar.cmpi (f : SF) : TransfersAreScalar.Statement (.cmpi f) := by intro h; cases h
theorem TransfersAreScalar.cmp (f : SF) : TransfersAreScalar.Statement (.cmp f) := by intro h; cases h
theorem TransfersAreScalar.pand (f : SF) : TransfersAreScalar.Statement (.pand f) := by intro h; cases h
theorem TransfersAreScalar.por (f : SF) : TransfersAreScalar.Statement (.por f) := by intro h; cases h
theorem TransfersAreScalar.pxor (f : SF) : TransfersAreScalar.Statement (.pxor f) := by intro h; cases h
theorem TransfersAreScalar.pnot (f : SF) : TransfersAreScalar.Statement (.pnot f) := by intro h; cases h
theorem TransfersAreScalar.pset (f : SF) : TransfersAreScalar.Statement (.pset f) := by intro h; cases h
theorem TransfersAreScalar.pinv (f : SF) : TransfersAreScalar.Statement (.pinv f) := by intro h; cases h
theorem TransfersAreScalar.jmpr (f : SF) : TransfersAreScalar.Statement (.jmpr f) := fun _ => ⟨_, rfl⟩
theorem TransfersAreScalar.call (f : SF) : TransfersAreScalar.Statement (.call f) := fun _ => ⟨_, rfl⟩
theorem TransfersAreScalar.callr (f : SF) : TransfersAreScalar.Statement (.callr f) := fun _ => ⟨_, rfl⟩
theorem TransfersAreScalar.ret (f : SF) : TransfersAreScalar.Statement (.ret f) := fun _ => ⟨_, rfl⟩
theorem TransfersAreScalar.loop (f : SF) : TransfersAreScalar.Statement (.loop f) := by intro h; cases h
theorem TransfersAreScalar.loopx (f : SF) : TransfersAreScalar.Statement (.loopx f) := by intro h; cases h
theorem TransfersAreScalar.trap (f : SF) : TransfersAreScalar.Statement (.trap f) := by intro h; cases h
theorem TransfersAreScalar.yield (f : SF) : TransfersAreScalar.Statement (.yield f) := fun _ => ⟨_, rfl⟩
theorem TransfersAreScalar.tend (f : SF) : TransfersAreScalar.Statement (.tend f) := fun _ => ⟨_, rfl⟩
theorem TransfersAreScalar.waittask (f : SF) : TransfersAreScalar.Statement (.waittask f) := fun _ => ⟨_, rfl⟩
theorem TransfersAreScalar.gets (f : SF) : TransfersAreScalar.Statement (.gets f) := by intro h; cases h
theorem TransfersAreScalar.sets (f : SF) : TransfersAreScalar.Statement (.sets f) := by intro h; cases h
theorem TransfersAreScalar.blend (f : SF) : TransfersAreScalar.Statement (.blend f) := by intro h; cases h
theorem TransfersAreScalar.tmirror (f : SF) : TransfersAreScalar.Statement (.tmirror f) := by intro h; cases h
theorem TransfersAreScalar.portcfg (f : SF) : TransfersAreScalar.Statement (.portcfg f) := by intro h; cases h
theorem TransfersAreScalar.ringcfg (f : SF) : TransfersAreScalar.Statement (.ringcfg f) := by intro h; cases h
theorem TransfersAreScalar.ld (f : SF) : TransfersAreScalar.Statement (.ld f) := by intro h; cases h
theorem TransfersAreScalar.st (f : SF) : TransfersAreScalar.Statement (.st f) := by intro h; cases h
theorem TransfersAreScalar.lds (f : SF) : TransfersAreScalar.Statement (.lds f) := by intro h; cases h
theorem TransfersAreScalar.sts (f : SF) : TransfersAreScalar.Statement (.sts f) := by intro h; cases h
theorem TransfersAreScalar.atom (f : SF) : TransfersAreScalar.Statement (.atom f) := by intro h; cases h
theorem TransfersAreScalar.fence (f : SF) : TransfersAreScalar.Statement (.fence f) := by intro h; cases h
theorem TransfersAreScalar.trn (f : SF) : TransfersAreScalar.Statement (.trn f) := by intro h; cases h
theorem TransfersAreScalar.hrel (f : SF) : TransfersAreScalar.Statement (.hrel f) := by intro h; cases h
theorem TransfersAreScalar.hinfo (f : SF) : TransfersAreScalar.Statement (.hinfo f) := by intro h; cases h
theorem TransfersAreScalar.probe (f : SF) : TransfersAreScalar.Statement (.probe f) := by intro h; cases h
theorem TransfersAreScalar.rand (f : SF) : TransfersAreScalar.Statement (.rand f) := by intro h; cases h
theorem TransfersAreScalar.semsig (f : SF) : TransfersAreScalar.Statement (.semsig f) := by intro h; cases h
theorem TransfersAreScalar.semwait (f : SF) : TransfersAreScalar.Statement (.semwait f) := by intro h; cases h
theorem TransfersAreScalar.semset (f : SF) : TransfersAreScalar.Statement (.semset f) := by intro h; cases h
theorem TransfersAreScalar.taskq (f : SF) : TransfersAreScalar.Statement (.taskq f) := by intro h; cases h
theorem TransfersAreScalar.tclaim (f : SF) : TransfersAreScalar.Statement (.tclaim f) := by intro h; cases h
theorem TransfersAreScalar.twait (f : SF) : TransfersAreScalar.Statement (.twait f) := by intro h; cases h
theorem TransfersAreScalar.block (f : SF) : TransfersAreScalar.Statement (.block f) := by intro h; cases h
theorem TransfersAreScalar.fst (f : SF) : TransfersAreScalar.Statement (.fst f) := by intro h; cases h
theorem TransfersAreScalar.fatom (f : SF) : TransfersAreScalar.Statement (.fatom f) := by intro h; cases h
theorem TransfersAreScalar.fred (f : SF) : TransfersAreScalar.Statement (.fred f) := by intro h; cases h
theorem TransfersAreScalar.wmwait (f : SF) : TransfersAreScalar.Statement (.wmwait f) := by intro h; cases h
theorem TransfersAreScalar.wmtest (f : SF) : TransfersAreScalar.Statement (.wmtest f) := by intro h; cases h
theorem TransfersAreScalar.vadd (f : VF) : TransfersAreScalar.Statement (.vadd f) := by intro h; cases h
theorem TransfersAreScalar.vsub (f : VF) : TransfersAreScalar.Statement (.vsub f) := by intro h; cases h
theorem TransfersAreScalar.vmul (f : VF) : TransfersAreScalar.Statement (.vmul f) := by intro h; cases h
theorem TransfersAreScalar.vfma (f : VF) : TransfersAreScalar.Statement (.vfma f) := by intro h; cases h
theorem TransfersAreScalar.vfms (f : VF) : TransfersAreScalar.Statement (.vfms f) := by intro h; cases h
theorem TransfersAreScalar.vmax (f : VF) : TransfersAreScalar.Statement (.vmax f) := by intro h; cases h
theorem TransfersAreScalar.vmin (f : VF) : TransfersAreScalar.Statement (.vmin f) := by intro h; cases h
theorem TransfersAreScalar.vabs (f : VF) : TransfersAreScalar.Statement (.vabs f) := by intro h; cases h
theorem TransfersAreScalar.vneg (f : VF) : TransfersAreScalar.Statement (.vneg f) := by intro h; cases h
theorem TransfersAreScalar.vrcp (f : VF) : TransfersAreScalar.Statement (.vrcp f) := by intro h; cases h
theorem TransfersAreScalar.vrsq (f : VF) : TransfersAreScalar.Statement (.vrsq f) := by intro h; cases h
theorem TransfersAreScalar.vexp2 (f : VF) : TransfersAreScalar.Statement (.vexp2 f) := by intro h; cases h
theorem TransfersAreScalar.vlog2 (f : VF) : TransfersAreScalar.Statement (.vlog2 f) := by intro h; cases h
theorem TransfersAreScalar.vand (f : VF) : TransfersAreScalar.Statement (.vand f) := by intro h; cases h
theorem TransfersAreScalar.vor (f : VF) : TransfersAreScalar.Statement (.vor f) := by intro h; cases h
theorem TransfersAreScalar.vxor (f : VF) : TransfersAreScalar.Statement (.vxor f) := by intro h; cases h
theorem TransfersAreScalar.vshl (f : VF) : TransfersAreScalar.Statement (.vshl f) := by intro h; cases h
theorem TransfersAreScalar.vshr (f : VF) : TransfersAreScalar.Statement (.vshr f) := by intro h; cases h
theorem TransfersAreScalar.vsar (f : VF) : TransfersAreScalar.Statement (.vsar f) := by intro h; cases h
theorem TransfersAreScalar.vcmp (f : VF) : TransfersAreScalar.Statement (.vcmp f) := by intro h; cases h
theorem TransfersAreScalar.vsel (f : VF) : TransfersAreScalar.Statement (.vsel f) := by intro h; cases h
theorem TransfersAreScalar.vtest (f : VF) : TransfersAreScalar.Statement (.vtest f) := by intro h; cases h
theorem TransfersAreScalar.vcvt (f : VF) : TransfersAreScalar.Statement (.vcvt f) := by intro h; cases h
theorem TransfersAreScalar.vqmx (f : VF) : TransfersAreScalar.Statement (.vqmx f) := by intro h; cases h
theorem TransfersAreScalar.vdqmx (f : VF) : TransfersAreScalar.Statement (.vdqmx f) := by intro h; cases h
theorem TransfersAreScalar.vpack (f : VF) : TransfersAreScalar.Statement (.vpack f) := by intro h; cases h
theorem TransfersAreScalar.vunpack (f : VF) : TransfersAreScalar.Statement (.vunpack f) := by intro h; cases h
theorem TransfersAreScalar.vrsum (f : VF) : TransfersAreScalar.Statement (.vrsum f) := by intro h; cases h
theorem TransfersAreScalar.vrmax (f : VF) : TransfersAreScalar.Statement (.vrmax f) := by intro h; cases h
theorem TransfersAreScalar.vrmin (f : VF) : TransfersAreScalar.Statement (.vrmin f) := by intro h; cases h
theorem TransfersAreScalar.vargmax (f : VF) : TransfersAreScalar.Statement (.vargmax f) := by intro h; cases h
theorem TransfersAreScalar.vscan (f : VF) : TransfersAreScalar.Statement (.vscan f) := by intro h; cases h
theorem TransfersAreScalar.vbcast (f : VF) : TransfersAreScalar.Statement (.vbcast f) := by intro h; cases h
theorem TransfersAreScalar.vshuf (f : VF) : TransfersAreScalar.Statement (.vshuf f) := by intro h; cases h
theorem TransfersAreScalar.vrot (f : VF) : TransfersAreScalar.Statement (.vrot f) := by intro h; cases h
theorem TransfersAreScalar.vcompress (f : VF) : TransfersAreScalar.Statement (.vcompress f) := by intro h; cases h
theorem TransfersAreScalar.vmov (f : VF) : TransfersAreScalar.Statement (.vmov f) := by intro h; cases h
theorem TransfersAreScalar.vrand (f : VF) : TransfersAreScalar.Statement (.vrand f) := by intro h; cases h
theorem TransfersAreScalar.mmould (f : DF) : TransfersAreScalar.Statement (.mmould f) := by intro h; cases h
theorem TransfersAreScalar.mflow (f : DF) : TransfersAreScalar.Statement (.mflow f) := by intro h; cases h
theorem TransfersAreScalar.minit (f : DF) : TransfersAreScalar.Statement (.minit f) := by intro h; cases h
theorem TransfersAreScalar.mrun (f : DF) : TransfersAreScalar.Statement (.mrun f) := by intro h; cases h
theorem TransfersAreScalar.mruns (f : DF) : TransfersAreScalar.Statement (.mruns f) := by intro h; cases h
theorem TransfersAreScalar.mdrain (f : DF) : TransfersAreScalar.Statement (.mdrain f) := by intro h; cases h
theorem TransfersAreScalar.msave (f : DF) : TransfersAreScalar.Statement (.msave f) := by intro h; cases h
theorem TransfersAreScalar.mrest (f : DF) : TransfersAreScalar.Statement (.mrest f) := by intro h; cases h
theorem TransfersAreScalar.mpop (f : DF) : TransfersAreScalar.Statement (.mpop f) := by intro h; cases h
theorem TransfersAreScalar.mwait (f : DF) : TransfersAreScalar.Statement (.mwait f) := by intro h; cases h
theorem TransfersAreScalar.cpy (f : DF) : TransfersAreScalar.Statement (.cpy f) := by intro h; cases h
theorem TransfersAreScalar.cpyt (f : DF) : TransfersAreScalar.Statement (.cpyt f) := by intro h; cases h
theorem TransfersAreScalar.cgath (f : DF) : TransfersAreScalar.Statement (.cgath f) := by intro h; cases h
theorem TransfersAreScalar.cscat (f : DF) : TransfersAreScalar.Statement (.cscat f) := by intro h; cases h
theorem TransfersAreScalar.cbind (f : DF) : TransfersAreScalar.Statement (.cbind f) := by intro h; cases h
theorem TransfersAreScalar.cring (f : DF) : TransfersAreScalar.Statement (.cring f) := by intro h; cases h
theorem TransfersAreScalar.cbcast (f : DF) : TransfersAreScalar.Statement (.cbcast f) := by intro h; cases h
theorem TransfersAreScalar.cfill (f : DF) : TransfersAreScalar.Statement (.cfill f) := by intro h; cases h
theorem TransfersAreScalar.carm (f : DF) : TransfersAreScalar.Statement (.carm f) := by intro h; cases h
theorem TransfersAreScalar.cwait (f : DF) : TransfersAreScalar.Statement (.cwait f) := by intro h; cases h
theorem TransfersAreScalar.vtcfg (f : CF) : TransfersAreScalar.Statement (.vtcfg f) := by intro h; cases h
theorem TransfersAreScalar.vtenq (f : CF) : TransfersAreScalar.Statement (.vtenq f) := by intro h; cases h
theorem TransfersAreScalar.vtfire (f : CF) : TransfersAreScalar.Statement (.vtfire f) := by intro h; cases h
theorem TransfersAreScalar.vtstat (f : CF) : TransfersAreScalar.Statement (.vtstat f) := by intro h; cases h
theorem TransfersAreScalar.vtclose (f : CF) : TransfersAreScalar.Statement (.vtclose f) := by intro h; cases h
theorem TransfersAreScalar.cbset (f : CF) : TransfersAreScalar.Statement (.cbset f) := by intro h; cases h
theorem TransfersAreScalar.cbput (f : CF) : TransfersAreScalar.Statement (.cbput f) := by intro h; cases h
theorem TransfersAreScalar.cbstat (f : CF) : TransfersAreScalar.Statement (.cbstat f) := by intro h; cases h
theorem TransfersAreScalar.txnorm (f : CF) : TransfersAreScalar.Statement (.txnorm f) := by intro h; cases h
theorem TransfersAreScalar.txenc (f : CF) : TransfersAreScalar.Statement (.txenc f) := by intro h; cases h
theorem TransfersAreScalar.txdec (f : CF) : TransfersAreScalar.Statement (.txdec f) := by intro h; cases h
theorem TransfersAreScalar.grload (f : CF) : TransfersAreScalar.Statement (.grload f) := by intro h; cases h
theorem TransfersAreScalar.gradv (f : CF) : TransfersAreScalar.Statement (.gradv f) := by intro h; cases h
theorem TransfersAreScalar.grmask (f : CF) : TransfersAreScalar.Statement (.grmask f) := by intro h; cases h
theorem TransfersAreScalar.grstat (f : CF) : TransfersAreScalar.Statement (.grstat f) := by intro h; cases h
theorem TransfersAreScalar.stopset (f : CF) : TransfersAreScalar.Statement (.stopset f) := by intro h; cases h
theorem TransfersAreScalar.stopchk (f : CF) : TransfersAreScalar.Statement (.stopchk f) := by intro h; cases h
theorem TransfersAreScalar.cljoin (f : CF) : TransfersAreScalar.Statement (.cljoin f) := by intro h; cases h
theorem TransfersAreScalar.clleave (f : CF) : TransfersAreScalar.Statement (.clleave f) := by intro h; cases h
theorem TransfersAreScalar.clstat (f : CF) : TransfersAreScalar.Statement (.clstat f) := by intro h; cases h
theorem TransfersAreScalar.clceil (f : CF) : TransfersAreScalar.Statement (.clceil f) := by intro h; cases h
theorem TransfersAreScalar.fwin (f : CF) : TransfersAreScalar.Statement (.fwin f) := by intro h; cases h
theorem TransfersAreScalar.fwstat (f : CF) : TransfersAreScalar.Statement (.fwstat f) := by intro h; cases h
theorem TransfersAreScalar.fwclose (f : CF) : TransfersAreScalar.Statement (.fwclose f) := by intro h; cases h
theorem TransfersAreScalar.storePerformed (c k : Nat) : TransfersAreScalar.Statement (.storePerformed c k) := by intro h; cases h
theorem TransfersAreScalar.fabricPayloadRead (c k : Nat) : TransfersAreScalar.Statement (.fabricPayloadRead c k) := by intro h; cases h
theorem TransfersAreScalar.fredLaunchTick (c : Nat) : TransfersAreScalar.Statement (.fredLaunchTick c) := by intro h; cases h
theorem TransfersAreScalar.linkDown (port : Nat) : TransfersAreScalar.Statement (.linkDown port) := by intro h; cases h
theorem TransfersAreScalar.ethernetLinkChange (port : Nat) (up : Bool) : TransfersAreScalar.Statement (.ethernetLinkChange port up) := by intro h; cases h
theorem TransfersAreScalar.faultStampSpread : TransfersAreScalar.Statement (.faultStampSpread) := by intro h; cases h
theorem TransfersAreScalar.jobComplete : TransfersAreScalar.Statement (.jobComplete) := by intro h; cases h
theorem TransfersAreScalar.hostReplyTimeout : TransfersAreScalar.Statement (.hostReplyTimeout) := by intro h; cases h
theorem TransfersAreScalar.accessCounterHalving : TransfersAreScalar.Statement (.accessCounterHalving) := by intro h; cases h
theorem TransfersAreScalar.qseqAdvance : TransfersAreScalar.Statement (.qseqAdvance) := by intro h; cases h
theorem TransfersAreScalar.firingDecision : TransfersAreScalar.Statement (.firingDecision) := by intro h; cases h
theorem TransfersAreScalar.vatSpillStep : TransfersAreScalar.Statement (.vatSpillStep) := by intro h; cases h
theorem TransfersAreScalar.remoteEnqueue : TransfersAreScalar.Statement (.remoteEnqueue) := by intro h; cases h
theorem TransfersAreScalar.remotePut : TransfersAreScalar.Statement (.remotePut) := by intro h; cases h
theorem TransfersAreScalar.holdRelease : TransfersAreScalar.Statement (.holdRelease) := by intro h; cases h
theorem TransfersAreScalar.holdDropVoid : TransfersAreScalar.Statement (.holdDropVoid) := by intro h; cases h
theorem TransfersAreScalar.windowTimeout : TransfersAreScalar.Statement (.windowTimeout) := by intro h; cases h
theorem TransfersAreScalar.retransmitTimeout : TransfersAreScalar.Statement (.retransmitTimeout) := by intro h; cases h
theorem TransfersAreScalar.packetAbandon : TransfersAreScalar.Statement (.packetAbandon) := by intro h; cases h
theorem TransfersAreScalar.holdExpiry : TransfersAreScalar.Statement (.holdExpiry) := by intro h; cases h
theorem TransfersAreScalar.originSlotExpiry : TransfersAreScalar.Statement (.originSlotExpiry) := by intro h; cases h
theorem TransfersAreScalar.watermarkSlotFree : TransfersAreScalar.Statement (.watermarkSlotFree) := by intro h; cases h
theorem TransfersAreScalar.queryResend : TransfersAreScalar.Statement (.queryResend) := by intro h; cases h
theorem TransfersAreScalar.settledCacheExpiry : TransfersAreScalar.Statement (.settledCacheExpiry) := by intro h; cases h
theorem TransfersAreScalar.retrainTimer : TransfersAreScalar.Statement (.retrainTimer) := by intro h; cases h
theorem TransfersAreScalar.heartbeatTimer : TransfersAreScalar.Statement (.heartbeatTimer) := by intro h; cases h
theorem TransfersAreScalar.silenceTimeout : TransfersAreScalar.Statement (.silenceTimeout) := by intro h; cases h
theorem TransfersAreScalar.evictionTimeout : TransfersAreScalar.Statement (.evictionTimeout) := by intro h; cases h
theorem TransfersAreScalar.confirmationRetry : TransfersAreScalar.Statement (.confirmationRetry) := by intro h; cases h
theorem TransfersAreScalar.joinTimeout : TransfersAreScalar.Statement (.joinTimeout) := by intro h; cases h
theorem TransfersAreScalar.ceilingEffective : TransfersAreScalar.Statement (.ceilingEffective) := by intro h; cases h
theorem TransfersAreScalar.powerOn : TransfersAreScalar.Statement (.powerOn) := by intro h; cases h
theorem TransfersAreScalar.powerOff : TransfersAreScalar.Statement (.powerOff) := by intro h; cases h
theorem TransfersAreScalar.wmwaitExpiry : TransfersAreScalar.Statement (.wmwaitExpiry) := by intro h; cases h
theorem TransfersAreScalar.abandonNoticeResend : TransfersAreScalar.Statement (.abandonNoticeResend) := by intro h; cases h
theorem TransfersAreScalar.streamIdleExpiry : TransfersAreScalar.Statement (.streamIdleExpiry) := by intro h; cases h
theorem TransfersAreScalar.outOfStepTimeout : TransfersAreScalar.Statement (.outOfStepTimeout) := by intro h; cases h

end Sys2Proof.Laws
end

