-- ==== Sys2Proof/Tests/Slice0.lean ====
section
/-! SUPPORT. Tests of the model, on terms and words written out from the specification's encodings, and for each
statement with hypotheses a concrete state and operands that meet them. -/
set_option Elab.async false
namespace Sys2Proof.Tests
open Sys2Proof Sys2Proof.Machine

/-! ### Ill-formed terms: each differs in one field from a well-formed one, and each check refuses its own -/

/-- ADD s1, s1, s2 with one field changed: the path (R96), the beats of DIV (R127), DST, SA, SB and IMM (R97). -/
theorem test_wf_scalar_fields : (Instr.add ⟨0, 0, 1, 0, 1, 1, 2, 0⟩).wf = true ∧ (Instr.add ⟨6, 0, 1, 0, 1, 1, 2, 0⟩).wf = false ∧
    (Instr.div ⟨0, 0, 8, 0, 1, 1, 2, 0⟩).wf = true ∧ (Instr.div ⟨0, 0, 7, 0, 1, 1, 2, 0⟩).wf = false ∧
    (Instr.add ⟨0, 0, 1, 0, 32, 1, 2, 0⟩).wf = false ∧ (Instr.add ⟨0, 0, 1, 1, 1, 1, 2, 0⟩).wf = false ∧
    (Instr.add ⟨0, 0, 1, 0, 1, 32, 2, 0⟩).wf = false ∧ (Instr.add ⟨0, 0, 1, 0, 1, 1, 38, 0⟩).wf = false ∧
    (Instr.add ⟨0, 0, 1, 0, 1, 1, 2, 1⟩).wf = false ∧ (Instr.clz ⟨0, 0, 1, 0, 1, 1, 2, 0⟩).wf = false := by decide

/-- The immediate fields' own rules: SEXT's width, CMP's condition, LDI's upper bits, the special register, BLEND's slot and
TMIRROR's unpairing (R130 to R152). -/
theorem test_wf_scalar_immediates : (Instr.sext ⟨0, 0, 1, 0, 1, 1, 0, 2⟩).wf = true ∧ (Instr.sext ⟨0, 0, 1, 0, 1, 1, 0, 3⟩).wf = false ∧
    (Instr.cmp ⟨0, 0, 1, 0, 0, 1, 2, 0x71⟩).wf = true ∧ (Instr.cmp ⟨0, 0, 1, 0, 0, 1, 2, 0x81⟩).wf = false ∧
    (Instr.ldi ⟨0, 0, 1, 0, 1, 0, 7, 0⟩).wf = true ∧ (Instr.ldi ⟨0, 0, 1, 0, 1, 0, 8, 0⟩).wf = false ∧
    (Instr.gets ⟨0, 0, 1, 0, 1, 0, 0, 9⟩).wf = true ∧ (Instr.gets ⟨0, 0, 1, 0, 1, 0, 0, 10⟩).wf = false ∧
    (Instr.blend ⟨0, 0, 1, 0, 0, 0, 0, 0xF⟩).wf = true ∧ (Instr.blend ⟨0, 0, 1, 0, 0, 0, 0, 0x10⟩).wf = false ∧
    (Instr.tmirror ⟨0, 0, 1, 0, 0, 0, 0, 0x101⟩).wf = true ∧ (Instr.tmirror ⟨0, 0, 1, 0, 0, 0, 0, 0x141⟩).wf = false ∧
    (Instr.tend ⟨0, 0, 1, 1, 0, 0, 0, 0⟩).wf = false := by decide

/-- SEM without SE, SX without a narrower size, ATOM's size and operation, FENCE's scope and direction, HREL's handle under
ALL, a count of 0, BLOCK's semaphores without a limit (R157 to R178). -/
theorem test_wf_memory : (Instr.ld ⟨0, 0, 1, 0, 6, 5, 0, 0x18200000⟩).wf = true ∧ (Instr.ld ⟨0, 0, 1, 0, 6, 5, 0, 0x18010000⟩).wf = false ∧
    (Instr.ld ⟨0, 0, 1, 0, 6, 5, 0, 0x1C000000⟩).wf = false ∧ (Instr.lds ⟨0, 0, 1, 0, 6, 5, 0, 0x1C000000⟩).wf = false ∧
    (Instr.atom ⟨0, 0, 1, 0, 6, 5, 1, 0x10009000⟩).wf = true ∧ (Instr.atom ⟨0, 0, 1, 0, 6, 5, 1, 0x1000A000⟩).wf = false ∧
    (Instr.atom ⟨0, 0, 1, 0, 6, 5, 1, 0x08000000⟩).wf = false ∧ (Instr.fence ⟨0, 0, 1, 0, 0, 0, 0, 4⟩).wf = true ∧
    (Instr.fence ⟨0, 0, 1, 0, 0, 0, 0, 5⟩).wf = false ∧ (Instr.fence ⟨0, 0, 1, 0, 0, 0, 0, 0x18⟩).wf = false ∧
    (Instr.hrel ⟨0, 0, 1, 0, 0, 0, 0, 0x11⟩).wf = false ∧ (Instr.semsig ⟨0, 0, 1, 0, 0, 0, 0, 3⟩).wf = false ∧
    (Instr.block ⟨0, 0, 1, 0, 0, 0, 0, 0x10001⟩).wf = true ∧ (Instr.block ⟨0, 0, 1, 0, 0, 0, 0, 1⟩).wf = false := by decide

/-- FST's destination without a watermark, its carried source, three carried watermarks, SEM without SE; FATOM's operation
(R179). -/
theorem test_wf_fabric : (Instr.fst ⟨0, 0, 1, 0, 0xB, 0x16, 0, 4⟩).wf = true ∧ (Instr.fst ⟨0, 0, 1, 0, 0xB, 0x16, 0, 0⟩).wf = false ∧
    (Instr.fst ⟨0, 0, 1, 0, 0, 0x16, 1, 0⟩).wf = false ∧ (Instr.fst ⟨0, 0, 1, 0, 0, 0x16, 1, 3⟩).wf = false ∧
    (Instr.fst ⟨0, 0, 1, 0, 0, 0x16, 0, 0x10⟩).wf = false ∧ (Instr.fatom ⟨0, 0, 1, 0, 0, 0x16, 0, 0x1400⟩).wf = false := by decide

/-- VADD .v0 b0, n5 (column), port 0: the type, RM, a source code, SC, OPX, ROW without a tile, an immediate beside a third
source, two broadcasts (R98 to R100, R188). -/
theorem test_wf_vector : (Instr.vadd ⟨false, 0, 0, 1, 0, 0, 1, 32, 21, 0, 0, 1, 7, 0⟩).wf = true ∧
    (Instr.vadd ⟨false, 0, 0, 1, 0, 3, 1, 32, 21, 0, 0, 1, 7, 0⟩).wf = false ∧ (Instr.vadd ⟨false, 0, 0, 1, 0, 0, 1, 32, 21, 0, 0, 1, 5, 0⟩).wf = false ∧
    (Instr.vmax ⟨false, 0, 0, 1, 0, 0, 1, 32, 21, 0, 0, 1, 0, 0⟩).wf = false ∧
    (Instr.vadd ⟨false, 0, 0, 1, 0, 0, 40, 32, 21, 0, 0, 1, 7, 0⟩).wf = false ∧ (Instr.vadd ⟨false, 0, 0, 1, 0, 0, 1, 54, 21, 0, 0, 1, 7, 0⟩).wf = false ∧
    (Instr.vadd ⟨false, 0, 0, 1, 0, 0, 1, 32, 21, 1, 0, 1, 7, 0⟩).wf = false ∧ (Instr.vadd ⟨false, 0, 0, 1, 0, 0, 1, 32, 21, 0, 0, 1, 7, 1⟩).wf = false ∧
    (Instr.vadd ⟨false, 0, 0, 1, 0, 0, 32, 32, 48, 0, 0, 1, 7, 0⟩).wf = false ∧ (Instr.vfma ⟨false, 0, 0, 1, 0, 0, 1, 53, 2, 3, 0, 0, 7, 0⟩).wf = false ∧
    (Instr.vadd ⟨false, 0, 0, 1, 0, 0, 1, 53, 52, 0, 0, 0, 7, 0⟩).wf = false ∧ (Instr.vtest ⟨false, 0, 0, 1, 1, 0, 0, 1, 0, 0, 0, 0, 7, 0⟩).wf = false := by
  decide

/-- The fields that vector instructions keep for themselves: VCMP's condition, VCVT's part, VQMX's source and part, VPACK's
part, VBCAST's lane (R197 to R205). -/
theorem test_wf_vector_parts : (Instr.vcmp ⟨false, 0, 0, 1, 0, 0, 0, 4, 0x34, 5, 0, 0, 7, 5⟩).wf = true ∧
    (Instr.vcmp ⟨false, 0, 0, 1, 0, 0, 0, 4, 0x34, 8, 0, 0, 7, 5⟩).wf = false ∧ (Instr.vcmp ⟨false, 0, 0, 1, 0, 6, 0, 4, 0x34, 6, 0, 0, 7, 5⟩).wf = false ∧
    (Instr.vcvt ⟨false, 0, 0, 1, 0, 1, 0, 4, 1, 1, 0, 0, 7, 0⟩).wf = true ∧ (Instr.vcvt ⟨false, 0, 0, 1, 0, 1, 0, 4, 1, 2, 0, 0, 7, 0⟩).wf = false ∧
    (Instr.vqmx ⟨false, 0, 0, 1, 0, 5, 1, 0, 0x3F, 7, 0, 0, 0, 0⟩).wf = true ∧ (Instr.vqmx ⟨false, 0, 0, 1, 0, 5, 1, 0, 0x3F, 8, 0, 0, 0, 0⟩).wf = false ∧
    (Instr.vqmx ⟨false, 0, 0, 1, 0, 5, 1, 0, 0x3F, 0, 0, 0, 0, 12⟩).wf = false ∧
    (Instr.vpack ⟨false, 0, 0, 1, 0, 5, 1, 0, 0x3F, 1, 0, 0, 7, 0⟩).wf = true ∧ (Instr.vpack ⟨false, 0, 0, 1, 0, 5, 1, 0, 0x3F, 2, 0, 0, 7, 0⟩).wf = false ∧
    (Instr.vbcast ⟨false, 0, 0, 1, 0, 0, 1, 0, 0, 1, 0, 0, 7, 31⟩).wf = true ∧ (Instr.vbcast ⟨false, 0, 0, 1, 0, 0, 1, 0, 0, 2, 0, 0, 7, 0⟩).wf = false := by
  decide

/-- Decoupled words: a scope without ACQ and REL, a matrix word in a copy slot, CMD bits that no field uses, CK = 3 and a
number without a semaphore, waits with fields of another kind, MRUN's and MDRAIN's combinations (R101, R211 to R240). -/
theorem test_wf_decoupled : (Instr.mrun ⟨false, 0, 0, 1, 0, 0, 0, 0, 0, 0x202200⟩).wf = true ∧ (Instr.mrun ⟨false, 0, 0, 1, 0, 0, 0, 0, 1, 0x202200⟩).wf = false ∧
    (Instr.mrun ⟨true, 0, 0, 1, 0, 0, 0, 0, 0, 0x202200⟩).wf = false ∧ (Instr.mrun ⟨false, 0, 0, 1, 0, 0, 0, 0, 0, 0x202201⟩).wf = false ∧
    (Instr.mrun ⟨false, 0, 0, 1, 0, 0, 0, 0, 0, 0x200202200⟩).wf = false ∧ (Instr.mflow ⟨false, 0, 0, 1, 0, 0, 0, 0, 0, 3⟩).wf = false ∧
    (Instr.mmould ⟨false, 0, 0, 1, 0, 0, 0, 0, 0, 0x64000000⟩).wf = true ∧ (Instr.mmould ⟨false, 0, 0, 1, 0, 0, 0, 0, 0, 0x264000000⟩).wf = false ∧
    (Instr.mdrain ⟨false, 0, 0, 1, 0, 0, 0, 0, 0, 0x100200000⟩).wf = false ∧ (Instr.mdrain ⟨false, 0, 0, 1, 0, 0, 0, 0, 0, 0x10000⟩).wf = false ∧
    (Instr.cpy ⟨false, 0, 0, 1, 0, 0, 0, 0, 0, 0x4200000⟩).wf = true ∧ (Instr.cpy ⟨false, 0, 0, 1, 0, 0, 0, 0, 0, 0xC000000⟩).wf = false ∧
    (Instr.cpy ⟨false, 0, 0, 1, 0, 0, 0, 0, 0, 0x200000⟩).wf = false ∧ (Instr.cgath ⟨false, 0, 0, 1, 0, 0, 0, 0, 0, 0x180000⟩).wf = false ∧
    (Instr.cwait ⟨false, 0, 0, 1, 0, 0, 0, 0, 0, 0x8C00040⟩).wf = true ∧ (Instr.cwait ⟨false, 0, 0, 1, 0, 0, 0, 0, 0, 0x8C00000⟩).wf = false ∧
    (Instr.cwait ⟨false, 0, 0, 1, 0, 0, 0, 0, 0, 0x400000⟩).wf = false ∧ (Instr.cwait ⟨false, 0, 0, 1, 0, 0, 0, 0, 0, 0x10000080⟩).wf = false ∧
    (Instr.cwait ⟨false, 0, 0, 1, 0, 0, 0, 0, 0, 0x18000040⟩).wf = false ∧ (Instr.cwait ⟨false, 0, 0, 1, 0, 0, 0, 0, 0, 0x8C00041⟩).wf = false := by decide

/-- COP words: a reply register past s31, an operand code, an operand that the function lacks, FIELDS bits (R246). -/
theorem test_wf_cop : (Instr.grmask ⟨0, 0, 1, 9, 2, 3, 0x280C⟩).wf = true ∧ (Instr.grmask ⟨0, 0, 1, 32, 2, 3, 0x280C⟩).wf = false ∧
    (Instr.grmask ⟨0, 0, 1, 9, 63, 3, 0x280C⟩).wf = false ∧ (Instr.clstat ⟨0, 0, 1, 9, 2, 1, 0⟩).wf = false ∧
    (Instr.grmask ⟨0, 0, 1, 9, 2, 3, 0x8000⟩).wf = false := by decide

/-- Events name parts that exist: cores, queues, jobs, dies, vats, ports (R2, R369, R445). -/
theorem test_wf_events : (Instr.bundleIssue 128).wf = true ∧ (Instr.bundleIssue 129).wf = false ∧ (Instr.commandStart 0 3).wf = false ∧
    (Instr.nodeRetire 0x100000 0).wf = false ∧ (Instr.patrolScrub 4 0).wf = false ∧ (Instr.vatRefill 2048).wf = false ∧
    (Instr.fecUncorrectable 16).wf = false ∧ (Instr.tableMiss 4).wf = false ∧ (Instr.ethernetLinkChange 2 true).wf = false ∧
    (Instr.rdmaRead ⟨0, 0, 0x100000⟩ 0 0).wf = false ∧ (Instr.rdmaRead ⟨1, 1023, 1⟩ 0 0).wf = true ∧
    (Instr.rdmaRead ⟨2, 0, 1⟩ 0 0).wf = false ∧ (Instr.rdmaWrite ⟨0, 1024, 1⟩ 0 []).wf = false := by decide

/-- What arrives has the widths of its fields: a datagram's job word and payload length (R472), a VC2 flit's code and member count
(R457), a training record of 64 bytes (R452), sensors with a projection for each code (R480). -/
theorem test_wf_arrivals :
    (let d : Datagram := ⟨0x5A57, 1, 0, 0, 1, 0, 0, 0, [], 0⟩
     (Instr.launch d).wf = true ∧ (Instr.launch { d with job := 2 ^ 32 }).wf = false ∧ (Instr.kill { d with len := 2 ^ 32 }).wf = false ∧
      (Instr.datagramReorder { d with tag := 2 ^ 128 }).wf = false) ∧
    (let m : ColMsg := ⟨0, 0, 0, 0, 0, 0, 0, 0, 0, 0, 0, 0, 0, 0⟩
     (Instr.ceil m).wf = true ∧ (Instr.ceil { m with code := 64 }).wf = false ∧ (Instr.sync { m with count := 8192 }).wf = false ∧
      (Instr.join { m with t3 := 2 ^ 64 }).wf = false) ∧
    (Instr.trainingRecord 15 ⟨zeros 64⟩).wf = true ∧ (Instr.trainingRecord 15 ⟨zeros 63⟩).wf = false ∧
    (Instr.protectionLimitChange ⟨4800, 0, 0, 0, 0, List.replicate 37 (0, 0)⟩ 0).wf = true ∧
    (Instr.protectionLimitChange ⟨4800, 0, 0, 0, 0, List.replicate 36 (0, 0)⟩ 0).wf = false ∧
    (Instr.protectionLimitChange ⟨4800, 0, 256, 0, 0, List.replicate 37 (0, 0)⟩ 0).wf = false := by decide

/-- Operations that a lookup or the housekeeping core lacks (R112, R151 to R153, R193). -/
theorem test_kinds : (Instr.mrun ⟨false, 0, 0, 1, 0, 0, 0, 0, 0, 0⟩).onKind .lookup = false ∧
    (Instr.vadd ⟨true, 0, 0, 1, 0, 0, 0, 0, 0, 0, 0, 0, 7, 0⟩).onKind .lookup = false ∧
    (Instr.vadd ⟨false, 0, 0, 1, 0, 0, 0, 50, 0, 0, 0, 0, 7, 0⟩).onKind .lookup = false ∧
    (Instr.blend ⟨0, 0, 1, 0, 0, 0, 0, 4⟩).onKind .lookup = false ∧ (Instr.portcfg ⟨0, 0, 1, 0, 0, 0, 0, 0⟩).onKind .house = false := by decide

/-! ### Words written out from the encodings decode to the operations they stand for -/

/-- Scalar words: [63:57] OP, [56:54] PATH, [53] PIPE, [52:48] BEATS, [47] WS, [46:41] DST, [40:35] SA, [34:29] SB, [28:0] IMM
(R96, R97; the codes of 04, 05 and 98). -/
theorem test_decode_scalar :
    decodeWord .s (0b0000001#7 ++ 0b000#3 ++ 0b0#1 ++ 0b00001#5 ++ 0b0#1 ++ 0b000001#6 ++ 0b000001#6 ++ 0b000010#6 ++ 0#29) =
      some (.add ⟨0, 0, 1, 0, 1, 1, 2, 0⟩) ∧
    decodeWord .s 0x4E01020012345678#64 = some (.ldi ⟨0, 0, 1, 0, 1, 0, 0, 0x12345678⟩) ∧
    decodeWord .s 0x50010208000000AB#64 = some (.ldih ⟨0, 0, 1, 0, 1, 1, 0, 0xAB⟩) ∧
    decodeWord .s 0x8801002000000006#64 = some (.loop ⟨0, 0, 1, 0, 0, 4, 0, 6⟩) ∧
    decodeWord .s 0x8A010A0000000003#64 = some (.loopx ⟨0, 0, 1, 0, 5, 0, 0, 3⟩) ∧
    decodeWord .s 0xA0010C2818A30010#64 = some (.ld ⟨0, 0, 1, 0, 6, 5, 0, 0x18A30010⟩) ∧
    decodeWord .s 0xC201000000000023#64 = some (.semwait ⟨0, 0, 1, 0, 0, 0, 0, 0x23⟩) ∧
    decodeWord .s 0xD00116B000000004#64 = some (.fst ⟨0, 0, 1, 0, 0xB, 0x16, 0, 4⟩) ∧
    decodeWord .s 0xD401005000000000#64 = some (.fred ⟨0, 0, 1, 0, 0, 0xA, 0, 0⟩) := by decide

/-- COP words with their function codes (R246; 98_worked_examples.md). -/
theorem test_decode_cop : decodeWord .s 0xE00112106A80280C#64 = some (.grmask ⟨0, 0, 1, 9, 2, 3, 0x280C⟩) ∧
    decodeWord .s 0xE001121010800000#64 = some (.clstat ⟨0, 0, 1, 9, 2, 0, 0⟩) ∧
    (decodeWord .s 0xE00112106A400000#64).map (fun i => i matches .gradv _) = some true ∧
    (decodeWord .s 0xE001121014000000#64).map (fun i => i matches .fwin _) = some true ∧
    (decodeWord .s 0xE001120841400000#64).map (fun i => i matches .cbset _) = some true ∧
    (decodeWord .s 0xE001120840400000#64).map (fun i => i matches .vtenq _) = some true := by decide

/-- Vector words: [46:43] TYPE, [42:37] DST, [36:31] SA, [30:25] SB, [24:19] SC, [18:12] ROW, [11:8] STEP, [7:5] RM, [4:0] OPX
(R98; 98_worked_examples.md). -/
theorem test_decode_vector :
    decodeWord .v0 0x020100302A0001E0#64 = some (.vadd ⟨false, 0, 0, 1, 0, 0, 1, 32, 21, 0, 0, 1, 7, 0⟩) ∧
    decodeWord .v0 0x40010002682800E5#64 = some (.vcmp ⟨false, 0, 0, 1, 0, 0, 0, 4, 0x34, 5, 0, 0, 7, 5⟩) ∧
    decodeWord .v0 0x620128207E000000#64 = some (.vqmx ⟨false, 0, 0, 1, 0, 5, 1, 0, 0x3F, 0, 0, 0, 0, 0⟩) := by decide

/-- Matrix and copy words: [47] GNEG, [46:43] GPRED, [42] ACQ, [41] REL, [40:38] SCOPE, [37:0] CMD (R101;
98_worked_examples.md). -/
theorem test_decode_decoupled :
    decodeWord .m 0x0801000000202200#64 = some (.mrun ⟨false, 0, 0, 1, 0, 0, 0, 0, 0, 0x202200⟩) ∧
    decodeWord .m 0x0201000064000000#64 = some (.mmould ⟨false, 0, 0, 1, 0, 0, 0, 0, 0, 0x64000000⟩) ∧
    decodeWord .m 0x0601000000200000#64 = some (.minit ⟨false, 0, 0, 1, 0, 0, 0, 0, 0, 0x200000⟩) ∧
    decodeWord .c0 0x0C01000600000000#64 = some (.cring ⟨false, 0, 0, 1, 0, 0, 0, 0, 0, 0x600000000⟩) ∧
    decodeWord .c0 0x0601001CF44C0000#64 = some (.cgath ⟨false, 0, 0, 1, 0, 0, 0, 0, 0, 0x1CF44C0000⟩) ∧
    decodeWord .c1 0x1401000008C00040#64 = some (.cwait ⟨true, 0, 0, 1, 0, 0, 0, 0, 0, 0x8C00040⟩) ∧
    decodeWord .c0 0x0A010008D0000000#64 = some (.cbind ⟨false, 0, 0, 1, 0, 0, 0, 0, 0, 0x8D0000000⟩) := by decide

/-- Reserved words are refused: opcode 0, an unused field that is not zero, a reserved type (R96, R114). -/
theorem test_reserved_words : decodeWord .s 0x0001020840000000#64 = none ∧ decodeWord .s 0x0201020840000001#64 = none ∧
    decodeWord .v0 0x020118302A0001E0#64 = none ∧ decodeWord .m 0x0801000000202201#64 = none := by decide

/-- The bundle of one scalar word, as bytes: header and word, least significant byte first; its round trip (R85, R86). -/
theorem test_bundle : encode (.add ⟨0, 0, 1, 0, 1, 1, 2, 0⟩) = some [0, 0, 0, 0x40, 0, 0, 0, 0x40, 8, 2, 1, 2] ∧
    decodeTableWord 96 (0x0201020840000000 * 2 ^ 32 + 0x40000000) = some (.add ⟨0, 0, 1, 0, 1, 1, 2, 0⟩) := by decide +kernel
/-! ### Witnesses: for each statement with hypotheses, a state and operands that meet them, clause by clause -/

/-- A running module with job 1 on core 0, and states that differ from it in the registers or the sequencer of core 0. -/
def job1 : Job := { Job.blank 1 with ntcb := 8 }
def core1 : Core := { Core.empty with job := some 1, seq := { Seqr.empty with phase := .run } }
def s0 : State := { State.reset with
  cores := [(0, core1)], sched := { Sched.empty with jobs := [(1, some job1)] }, host := { HostIf.reset with stage := 3 } }
def withCtx (f : Ctx → Ctx) : State := s0.onCtx 0 f
def withSeq (f : Seqr → Seqr) : State := s0.onSeq 0 f
def regs (l : Tbl Word) : State := withCtx (fun k => { k with sreg := l })
/-- The word of `op sd, s1, s2` with an immediate. -/
def word (imm : BitVec 29 := 0) (dst : BitVec 6 := 3) : SF := ⟨0, 0, 1, 0, dst, 1, 2, imm⟩
/-- A valid, writable handle of a 64 KiB page of frame `pb` on die 0. -/
def handle (pb : Nat) (wr : Bool := true) : Handle := ⟨BitVec.ofNat 64 (2 ^ 63 + (if wr then 2 ^ 62 else 0) + pb * 2 ^ 16), 0⟩

theorem witness_ArithmeticAndLogicResults : s0.clear := ⟨rfl, rfl⟩

/-- Nothing divided by zero, the most negative number by -1, and -7 by 2. -/
theorem witness_QuotientsExtremesAndBitCounts :
    s0.clear ∧ s0.regs.src 2 = 0 ∧
    (let s := regs [(1, 0x8000000000000000), (2, 0xFFFFFFFFFFFFFFFF)];
      s.clear ∧ (s.regs.src 1).toInt = -2 ^ 63 ∧ (s.regs.src 2).toInt = -1) ∧
    (let s := regs [(1, 0xFFFFFFFFFFFFFFF9), (2, 2)];
      s.clear ∧ s.regs.src 2 ≠ 0 ∧ (s.regs.src 2).toInt ≠ -1) := by
  unfold State.clear; decide +kernel

theorem witness_ExtensionsSelectionsAndCompares : s0.clear ∧
    ((word 0).imm.toNat % 4, 8) ∈ [(0, 8), (1, 16), (2, 32)] ∧ ((word 2).imm.toNat % 4, 32) ∈ [(0, 8), (1, 16), (2, 32)] ∧
    (word 0x70).imm.toNat / 16 % 16 < 8 := by
  unfold State.clear; decide +kernel

theorem witness_EffectsLand : (withCtx (fun k => { k with mirror := [(0, 4), (4, 0)] })).regs.partner 0 = some 4 ∧
    (∀ n ∈ [0, 15], s0.semOk 0 n = true) ∧ (let s := withCtx (fun k => { k with sem := [(15, 65534)] });
      s.semGet 0 15 + 1 ≤ 65535 ∧ 65535 < s.semGet 0 15 + 2 ∧ (s.core 0).seq.fatal = none) ∧
    (let s := { s0 with semOwner := [(15, some 1)], semC := [(15, 65534)] };
      s.semOk 0 31 = true ∧ s.semGet 0 31 + 1 ≤ 65535 ∧ 65535 < s.semGet 0 31 + 2 ∧ clusterOf 1 = clusterOf 0) := by decide +kernel

/-- The bytes `l` as the code of a job, from address 0 on. -/
def program (l : List Byte) : Job :=
  { job1 with code := [(0, 4096)], bytes := l.zipIdx.filterMap (fun e => if e.1 = 0 then none else some (e.2, e.1)) }
/-- Core 0 at the end of the issue cycle of a bundle with one ADD, with `l` in flight. -/
def cycled (l : List Pending) : State :=
  { withSeq (fun q => { q with opened := true, pend := l }) with
    sched := { Sched.empty with jobs := [(1, some (program [0, 0, 0, 0x40, 0, 0, 0, 0x40, 8, 6, 1, 2]))] } }
theorem fetched (s : State) (j k a : Nat) (kd : CoreKind) (h : (match s.fetch j kd a with
    | .ok b => b.branch.isNone && b.rep == k | .error _ => false) = true) : ∃ b, s.fetch j kd a = .ok b ∧ b.branch = none ∧ b.rep = k := by
  split at h
  · rename_i b hb
    simp only [Bool.and_eq_true, Option.isNone_iff_eq_none, beq_iff_eq] at h
    exact ⟨b, hb, h⟩
  · cases h
theorem witness_IssueCycleLandsItsResults :
    (∀ l ∈ [[], [⟨1, 0, 0, .scalar (some 5) (some 0) 7 none⟩]], let k := (cycled l).core 0
      k.seq.opened = true ∧ k.seq.pend = l ∧ k.seq.xfer ≠ some .waittask) ∧
    (let s := cycled []; let k := s.core 0
      (∃ b, s.fetch (k.job.getD fwJob) (kindOf 0) k.seq.pc = .ok b ∧ b.branch = none ∧ b.rep = 0) ∧ k.seq.phase = .run ∧
      k.seq.fatal = none ∧ k.seq.later = none ∧ k.seq.trap = none ∧ k.seq.split = none ∧ k.seq.xfer = none ∧ k.seq.loopSkip = none ∧ k.ctx.loop = []) := by
  exact ⟨by decide +kernel, fetched _ _ _ _ _ (by decide +kernel), by decide +kernel⟩

theorem witness_IssueTouchesOnlyTheSequencer : ∃ t, exec (.trap (word 5)) s0 = .next t := ⟨_, rfl⟩

theorem witness_JumpsCallsAndReturns : (regs [(1, 0x1000)]).clear ∧
    (((regs [(1, 0x1000)]).regs.src 1).toInt + (word 4).imm.toInt) % 2 ^ 57 = 0x1004 ∧
    (((regs [(1, 0x1000)]).regs.src 1).toInt + (word 2).imm.toInt) % 2 ^ 57 = 0x1002 ∧
    (s0.regs.depth ≠ 0xFFFFFFFF ∧ s0.regs.ras.length < 16 ∧ s0.regs.ras = [] ∧ s0.regs.depth = 0) ∧
    (let s := withCtx (fun k => { k with ras := List.replicate 16 8, depth := 527 });
      s.clear ∧ s.regs.ras.length = 16 ∧ s.regs.depth - 16 < 512) ∧
    (let s := withCtx (fun k => { k with ras := [8, 4], depth := 2 }); s.clear ∧ s.regs.ras = 8 :: [4] ∧ 8 % 4 < 2) ∧
    (let s := withCtx (fun k => { k with ras := [9], depth := 1 }); s.clear ∧ s.regs.ras = 9 :: [] ∧ 9 % 4 < 2) := by
  unfold State.clear; decide +kernel

/-- A loop in the code of job 1; its stream register holds two row pointers. -/
def coded : State := { s0 with sched := { Sched.empty with jobs := [(1, some { job1 with code := [(0, 4096)] })] } }
def queued (a b : Nat) : State :=
  coded.onCtx 0 (fun k => { k with stream := [(0, ⟨[BitVec.ofNat 2048 (a + b * 2 ^ 32)], true⟩)] })
theorem witness_LoopsSetTheirCounters :
    (let s := coded.onCtx 0 (fun k => { k with sreg := [(1, 3)] });
      s.clear ∧ (word 6).imm.toNat % 2 ^ 24 < 2 ^ 23 ∧ (s.regs.src 1).toNat % 2 ^ 32 ≠ 0) ∧
    (coded.clear ∧ (coded.regs.src 1).toNat % 2 ^ 32 = 0 ∧
      coded.inCode 1 ((coded.unit.bundle + 4 * ((word 6).imm.toNat % 2 ^ 24)) % 2 ^ 57) = true ∧
      coded.inCode 1 ((coded.unit.bundle + 4 * ((word 2048).imm.toNat % 2 ^ 24)) % 2 ^ 57) = false) ∧
    (∃ v, ((queued 2 5).regs.stream.get Stream.empty 0).vecs = v :: [] ∧ lane 32 v 0 < lane 32 v 1) ∧
    (∃ v, ((queued 5 5).regs.stream.get Stream.empty 0).vecs = v :: [] ∧ lane 32 v 0 = lane 32 v 1) ∧
    (∃ v, ((queued 5 2).regs.stream.get Stream.empty 0).vecs = v :: [] ∧ lane 32 v 1 < lane 32 v 0) := by
  refine ⟨by unfold State.clear; decide +kernel, by unfold State.clear; decide +kernel, ⟨_, rfl, by decide +kernel⟩,
    ⟨_, rfl, by decide +kernel⟩, ⟨_, rfl, by decide +kernel⟩⟩

def task1 : Task := ⟨1, 2, 2, 0, 0, [], 0⟩
theorem witness_TaskFlowAndSpecialRegisters : s0.clear ∧ s0.regs.sw.preq = false ∧ s0.self.seq.task = none ∧ s0.unit.core < 128 ∧
    (withCtx (fun k => { k with sw := { k.sw with preq := true } })).regs.sw.preq = true ∧
    (let s := withSeq (fun q => { q with task := some task1 }); s.clear ∧ s.self.seq.task ≠ none) ∧
    (let s := { s0 with unit := { s0.unit with core := 128 } }; s.clear ∧ s.self.seq.task = none ∧ 128 ≤ s.unit.core) ∧
    (word 9).imm.toNat % 32 = 9 ∧
    (let s := withCtx (fun k => { k with depth := 529 }); s.clear ∧ (word 6).imm.toNat % 32 = 6 ∧ s.regs.depth > 528) := by
  unfold State.clear; decide +kernel

theorem witness_ConfigurationInstructions : s0.clear ∧ (word 0x100).imm.getLsbD 8 = true ∧
    ((word 0x40).imm.getLsbD 8 = false ∧ (0 / 4 ≠ 4 / 4) ∧ s0.regs.partner 0 = none ∧ s0.regs.partner 4 = none) ∧
    ((word 0x10).imm.getLsbD 8 = false ∧ ¬((word 0x10).imm.toNat % 16 / 4 ≠ (word 0x10).imm.toNat / 16 % 16 / 4)) ∧
    (∀ w ∈ [0, 32 * 2 ^ 27 + 1 * 2 ^ 15], w < 2 ^ 33 ∧ w / 2 ^ 27 % 64 ≤ 32 ∧
      256 * (w % 2 ^ 15) + 256 * 1 * (w / 2 ^ 27 % 64) ≤ spadSize 0 s0.regs) ∧
    (32 < 33 * 2 ^ 27 / 2 ^ 27 % 64) ∧
    (let w := 32 * 2 ^ 27; 256 * (w % 2 ^ 15) + 256 * 4096 * (w / 2 ^ 27 % 64) > spadSize 0 s0.regs) := by
  unfold State.clear; decide +kernel

/-- The last byte of the page, one past it, a page without WR, and a misaligned ATOM. -/
theorem witness_LoadsStoresAndAtomicsIssue : s0.clear ∧ (s0.regs.h 0).valid = false ∧
    (let s := withCtx (fun k => { k with handle := [(0, handle 5)], sreg := [(1, 0xFFFF)] });
      s.clear ∧ (s.regs.h 0).valid = true ∧ (s.regs.h 0).writable = true ∧
      (s.regs.src 1).toNat + 2 ^ ((word 0).imm.toNat / 2 ^ 27 % 4) ≤ pageBytes (s.regs.h 0).size ∧
      s.codeHit 0 ((s.regs.h 0).va.toNat + 0xFFFF) 1 = false ∧
      pageBytes (s.regs.h 0).size < (s.regs.src 1).toNat + 2 ^ ((word 0x8000000).imm.toNat / 2 ^ 27 % 4)) ∧
    (let s := withCtx (fun k => { k with handle := [(0, handle 5 false)] });
      s.clear ∧ (s.regs.h 0).valid = true ∧ (s.regs.h 0).writable = false) ∧
    (let s := withCtx (fun k => { k with handle := [(0, handle 5)], sreg := [(1, 2)] });
      s.clear ∧ (s.regs.h 0).valid = true ∧ (s.regs.h 0).writable = true ∧ (s.regs.src 1).toNat % 2 ^ ((word 0x10000000).imm.toNat / 2 ^ 27 % 4) ≠ 0) ∧
    (let s := withCtx (fun k => { k with handle := [(0, handle 5)], sreg := [(1, 8)] });
      (s.regs.src 1).toNat % 2 ^ ((word 0x18000000).imm.toNat / 2 ^ 27 % 4) = 0) ∧
    (let s := { withCtx (fun k => { k with handle := [(0, handle 5)] }) with sched := { Sched.empty with jobs := [(1, some (program []))] } };
      (s.regs.h 0).valid = true ∧ (s.regs.h 0).writable = true ∧ s.codeHit 0 ((s.regs.h 0).va.toNat + 4095) 1 = true ∧
        s.codeHit 0 ((s.regs.h 0).va.toNat + 4096) 1 = false) ∧ s0.semOk 0 15 = true := by
  unfold State.clear; decide +kernel

def load1 (atom : Option (Nat × Nat × Nat)) : Load := ⟨17, 64, ⟨0, 65536, 0, 1⟩, 4, false, some 3, 4, none, atom, 0⟩
def loading (atom : Option (Nat × Nat × Nat)) (m : Mem) : State := { withSeq (fun q => { q with loads := [load1 atom] }) with mem := m }
theorem witness_LoadsAndAtomicsLand :
    (∀ a ∈ [none, some (9, 5, 0)], ∀ m ∈ [Mem.empty, { Mem.empty with discarded := [(1, true)] }, { Mem.empty with bad := [(1024, true)] }],
      ((loading a m).core 0).seq.loads[0]? = some (load1 a) ∧ ((loading a m).core 0).seq.loadOk (load1 a) = true ∧
      ((loading a m).core 0).seq.regIssue.get 0 3 ≤ (load1 a).issue ∧ ((loading a m).core 0).seq.fatal = none) ∧
    (∀ b ∈ blocksOf (load1 none).place.key 4, Mem.empty.gone b = false ∧ Mem.empty.uncorrectable b = false ∧
      Mem.empty.inert (64 * b) = false) ∧
    (∃ b ∈ blocksOf (load1 none).place.key 4, ({ Mem.empty with discarded := [(1, true)] } : Mem).gone b = true) ∧
    ¬(∀ b ∈ blocksOf (load1 none).place.key 4, let m := { Mem.empty with bad := [(1024, true)] };
      m.gone b = false → m.uncorrectable b = false) ∧
    (4 = 4 ∨ 4 = 8) ∧ 0xFFFFFFFF < 2 ^ (8 * 4) := by decide +kernel

def store1 : Store := ⟨17, 64, ⟨0, 65535, 0, 0⟩, [1], none, 0⟩
theorem witness_StoresWriteTheirBytesAlone : let s := withSeq (fun q => { q with stores := [store1] });
    (s.core 0).seq.stores[0]? = some store1 ∧ (s.core 0).seq.storeOk store1 = true ∧ store1.sem = none ∧ store1.bytes ≠ [] ∧
    ∀ b ∈ blocksOf store1.place.key 1, s.mem.uncorrectable b = false ∧ s.mem.inert (64 * b) = false := by decide +kernel

/-- A resident leaf of frame 7, without WR, in the cache of die 0, and no mapping. -/
def leaf7 : Word := 0xE000000000070000
def cached (l : Option Word) : State := { s0 with mem := { Mem.empty with tcache := [⟨0, 1, 0x10000, 0, l, false⟩] } }
theorem witness_ScratchpadTranslationsAndProbes :
    (s0.clear ∧ s0.mem.sramBad = [] ∧ s0.mem.sramSoft = [] ∧ (∀ p ∈ s0.self.seq.pend, ∀ b l, p.eff ≠ .spad b l)) ∧
    (∀ x ∈ [(7471104 - 1, true), (7471104, false)], ((regs [(1, BitVec.ofNat 64 x.1)]).regs.src 1).toNat + 1 ≤ spadSize 0 s0.regs ↔ x.2 = true) ∧
    (cached (some leaf7)).lookup 0 false 0x1FFFF = (0, some (handleOf 0 leaf7 0x1FFFF)) ∧
    (cached (some leaf7)).lookup 0 true 0x1FFFF = (3, none) ∧ (cached none).lookup 0 false 0x10000 = (2, none) ∧
    (word 0x200).imm.getLsbD 9 = true := by
  refine ⟨⟨⟨rfl, rfl⟩, rfl, rfl, by simp [State.self, s0, State.core, Tbl.get, core1, Seqr.empty, UnitCtx.empty, State.reset]⟩, ?_⟩
  decide +kernel

theorem witness_SemaphoresAndTickWaits : s0.clear ∧ s0.semOk 0 0 = true ∧ s0.semOk 0 16 = false ∧
    (withCtx (fun k => { k with sem := [(0, 1)] })).semGet 0 0 = 1 ∧ (word 0x20).imm.toNat / 32 % 65536 ≤ 1 ∧
    (∀ j ∈ List.range 16, (word 0x8000).imm.getLsbD j = true → (withCtx (fun k => { k with sem := [(15, 1)] })).regs.sem.get 0 j ≠ 0) ∧
    (let s := { s0 with unit := { s0.unit with core := 128 } }; s.clear ∧ 128 ≤ s.unit.core) := by
  unfold State.clear; decide +kernel

/-- A span of one page whose leaf stands in the cache can be written. -/
theorem span_of {s : State} {die job va n : Nat} (k : Nat) (h : (decide (va + n ≤ 2 ^ 57) && s.mem.tcache.all (fun x => !x.bad) &&
      (match s.job job with | some j => !j.codeMeets va n | none => true) &&
      (List.range n).all (fun i => !s.mem.marked job (va + i) && (match s.mem.lookup die job (va + i) with
        | some t => (match t.leaf with
          | some e => pteWr e && !s.mem.inert (ptePlace t.size e (va + i)).key
          | none => false)
        | none => false) && s.cachedAt die job (va + i) == some (k + i))) = true) : s.writableSpan die job va n := by
  simp only [Bool.and_eq_true, decide_eq_true_eq, List.all_eq_true, List.mem_range, Bool.not_eq_eq_eq_not, Bool.not_true, beq_iff_eq] at h
  obtain ⟨⟨⟨h1, h2⟩, h3⟩, h4⟩ := h
  refine ⟨h1, h2, fun j hj => by rw [hj] at h3; simpa using h3, fun i hi => ?_, fun i hi m hm e => ?_⟩
  · obtain ⟨⟨hm, hl⟩, -⟩ := h4 i hi
    refine ⟨hm, ?_⟩
    split at hl
    · rename_i t ht
      split at hl
      · rename_i e he
        simp only [Bool.and_eq_true, Bool.not_eq_eq_eq_not, Bool.not_true] at hl
        exact ⟨t, e, ht, he, hl.1, hl.2⟩
      · cases hl
    · cases hl
  · rw [(h4 i hi).2, (h4 m hm).2] at e
    simp only [Option.some.injEq] at e
    omega

/-- Job 1 with a dynamic template (TCB 1) and a claim nest of two tickets (TCB 2), its node ready. -/
def jobT : Job := { job1 with
  tcb := [(1, { Tcb.empty with kind := 3, tmpl := true }), (2, { Tcb.empty with kind := 1, claim := true, levels := [(2, 0)] })],
  node := [(2, { Node.empty with state := 1, live := true })] }
def tasked (j : Job) (l : Tbl Word := []) : State :=
  { regs l with sched := { Sched.empty with jobs := [(1, some j)] } }
/-- Its queue at 0x10000, in a page of frame 7 that the cache of die 0 holds, writable. -/
def leafW : Word := 0xF000000000070000
def paged (j : Job) : State := { tasked j with mem := { Mem.empty with tcache := [⟨0, 1, 0x10000, 0, some leafW, false⟩] } }
theorem paged_span : (paged { jobT with dynq := 0x10000 }).writableSpan 0 1 0x10000 64 := span_of 0x70000 (by decide +kernel)
theorem witness_QueueRecordsAndTickets :
    (let s := tasked jobT;
      s.clear ∧ s.unit.core < 128 ∧ 0 + 32 ≤ spadSize 0 s.regs ∧ s.mem.sramBad = [] ∧ s.mem.sramSoft = [] ∧ s.self.job = some jobT.num ∧
      s.job jobT.num = some jobT ∧ (List.range jobT.dyncap).find? (fun p => !jobT.dyn.any (fun r => r.place = p)) = some 0 ∧
      (word 1).imm.toNat % 2 ^ 20 < jobT.ntcb ∧ (jobT.tcbAt 1).kind = 3 ∧ (s.regs.src 2).toNat < 2 ^ 20) ∧
    (let j := { jobT with dyncap := 0 }; (tasked j).job j.num = some j ∧ (List.range j.dyncap).find? (fun p => !j.dyn.any (fun r => r.place = p)) = none) ∧
    (let s := tasked jobT [(1, 2)];
      s.clear ∧ (s.regs.src 1).toNat = 2 ∧ (∀ e ∈ jobT.node, e.2.cancel = false) ∧ 2 < jobT.ntcb ∧ (jobT.tcbAt 2).kind = 1 ∧ (jobT.tcbAt 2).claim = true ∧
      (jobT.tcbAt 2).tmpl = false ∧ (jobT.nodeAt 2).state = 1 ∧ (jobT.nodeAt 2).ticket (jobT.tcbAt 2) = some 0) ∧
    (let j := { jobT with dynq := 0x10000 }; j.num = 1 ∧ (paged j).sched.writes = [] ∧ (j.dynq + 64 * 0) % 64 = 0) ∧
    ((let b := BitVec.ofNat 64 (2 ^ 63 + 2)
      b.getLsbD 63 = true ∧ b.toNat / 2 ^ 20 % 2 ^ 43 = 0 ∧ b.toNat % 2 ^ 20 < jobT.ntcb) ∧ (jobT.tcbAt 2).isNode = true ∧
      (jobT.nodeAt 2).cancel = false ∧ (jobT.nodeAt 2).state = 1 ∧ (jobT.nodeAt 2).handed = []) ∧
    (¬(jobT.tcbAt 2).kind = 3 ∧ ¬(0x100000 / 2 ^ 20 % 2 ^ 43 = 0)) ∧
    ({ Node.empty with state := 2, next := 2 } : Node).ticket (jobT.tcbAt 2) = none ∧
    (jobT.tcbAt 1).kind ≠ 1 := by
  unfold State.clear; decide +kernel

/-- A descriptor of one byte for module 0, in the scratchpad at 0. -/
def described : State := withCtx (fun k => { k with spad := [(12, 1)] })
theorem witness_FabricInstructionsHandOver : described.clear ∧ described.mem.sramBad = [] ∧ described.mem.sramSoft = [] ∧
    described.fabCause 0 0 (word 4) = none ∧ s0.fabCause 0 1 (word 4) = none ∧ described.fabCause 0 2 (word 4) = none ∧
    (word 4).imm.getLsbD 2 = true ∧ (word 0).imm.getLsbD 2 = false ∧ described.fab.originFull = false := by
  unfold State.clear; decide +kernel

/-- Of a module's own slot, free, void or pending, and of a foreign watermark, landed, void or unknown in the cache. -/
def known (st : Nat) (l : List Settled) : Fabric :=
  { Fabric.empty with origins := [(0, { Origin.empty with state := st, job := 1 })], settled := l }
theorem known_landed : (known 2 [⟨0, true, 0⟩]).known 0 1 = some true := by unfold Fabric.known; split <;> rfl
theorem known_void : (known 3 [⟨0, false, 0⟩]).known 0 1 = some false := by unfold Fabric.known; split <;> rfl
theorem known_open : (known 1 []).known 0 1 = none := by unfold Fabric.known; split <;> rfl
theorem foreign_wm : ∃ wm, wm < 2 ^ 32 ∧ wmModule wm ≠ ownModule := by
  by_cases h : ownModule = 0
  · exact ⟨2 ^ 20, by decide, by rw [h]; decide⟩
  · exact ⟨0, by decide, fun e => h (e.symm.trans (by decide))⟩
def hand (ty : Nat) (p : Option Packet) : Handoff := ⟨0, ty, word 0, List.replicate 32 0, 0, 0, 1, 0, 0, 0, p⟩
def handed (ty : Nat) (p : Option Packet) : State := { s0 with fab := { Fabric.empty with iface := [hand ty p] } }
/-- A bundle of WMWAIT s3, s1 whose watermark is pending, waited for since tick 0. -/
def waitWord : Word := 0xD601060800000000
def expired : State :=
  let j := { job1 with code := [(0, 64)], bytes := (Tbl.putBytes [] 0 (leBytes 12 (waitWord.toNat * 2 ^ 32 + 0x40000000))) }
  { withSeq (fun q => { q with waitTick := some 0 }) with
    sched := { Sched.empty with jobs := [(1, some j)] }, fab := known 1 [], gtick := 2000000 }
def waitF : SF := ⟨0, 0, 1, 0, 3, 1, 0, 0⟩
theorem expired_bundle : ∃ b, expired.fetch 1 .main 0 = .ok b ∧ b.branch = none ∧
    ((expired.core 0).plan 0 b 0 0 0).units.map (fun x => (x.1.core, x.1.unit, x.2)) = [(0, 1, .wmwait waitF)] := by
  have h : (expired.fetch 1 .main 0 matches .ok _) = true := by decide +kernel
  split at h
  · rename_i b hb
    refine ⟨b, hb, ?_⟩
    have : (match expired.fetch 1 .main 0 with
      | .ok b => decide (b.branch = none ∧ ((expired.core 0).plan 0 b 0 0 0).units.map (fun x => (x.1.core, x.1.unit, x.2)) =
          [(0, 1, .wmwait waitF)])
      | .error _ => false) = true := by decide +kernel
    rw [hb] at this; simpa using this
  · cases h
theorem expired_waits : (expired.wmWaits 0).isSome = true := by
  obtain ⟨b, hb, hbr, hu⟩ := expired_bundle
  generalize hp : ((expired.core 0).plan 0 b 0 0 0).units = us at hu
  match us, hu with
  | [(u, i)], hu =>
    simp only [List.map_cons, List.map_nil, List.cons.injEq, Prod.mk.injEq, and_true] at hu
    obtain ⟨hc, hn, rfl⟩ := hu
    have hk : expired.fab.known ((expired.core 0).ctx.src waitF.sa).toNat 1 = none := by
      have : ((expired.core 0).ctx.src waitF.sa).toNat = 0 := by decide +kernel
      rw [this]; exact known_open
    have hw : (expired.waits u (.wmwait waitF)).2 = true := by
      have h2 : ((expired.core 0).ctx.src waitF.sa).toNat % 2 ^ 32 = ((expired.core 0).ctx.src waitF.sa).toNat := by decide +kernel
      have hj : (expired.jobOf u.core).getD fwJob = 1 := by rw [hc]; decide +kernel
      simp only [State.waits]; rw [hj, hc, h2, hk]
    have hs : (expired.unitStall u [] (.wmwait waitF)).2 = true := by
      simp only [State.unitStall, show (Instr.wmwait waitF).slotWord = some (.s, waitWord) by decide +kernel]
      split
      · rfl
      · exact hw
    have hf : (expired.firstStall [] [(u, .wmwait waitF)]).2 = some 1 := by
      unfold State.firstStall
      split
      · simp [hn]
      · rename_i s' h; rw [h] at hs; cases hs
    have hj0 : (expired.jobOf 0).getD fwJob = 1 := by decide +kernel
    have hpc : (expired.core 0).seq.pc = 0 := by decide +kernel
    have hrep : (expired.core 0).seq.rep = 0 ∧ (expired.core 0).seq.resume = 0 := by decide +kernel
    have hx : (expired.examine 0).2 = .wait (.unit 1) ((expired.core 0).plan 0 b 0 0 0) 0 := by
      unfold State.examine
      simp only [hj0, hpc, show kindOf 0 = .main from rfl, hb]
      simp only [hbr, Bool.false_eq_true, if_false, hrep, Core.leafNow, hp]
      generalize hq : expired.firstStall [] [(u, .wmwait waitF)] = q at hf
      obtain ⟨s', r⟩ := q
      subst hf
      simp only
    have hph : ((expired.core 0).seq.phase != .run) = false := by decide +kernel
    unfold State.wmWaits
    simp only [hph, Bool.false_eq_true, if_false, hx, hp, List.find?, hn, decide_true, Option.isSome_some]
  | [], hu => simp at hu
  | _ :: _ :: _, hu => simp at hu
theorem witness_WatermarkWaitsAndPackets : s0.clear ∧
    (let s := { s0 with fab := known 2 [⟨0, true, 0⟩] }; s.clear ∧ s.fab.known ((s.regs.src 1).toNat % 2 ^ 32) 1 = some true) ∧
    (let s := { s0 with fab := known 3 [⟨0, false, 0⟩] }; s.clear ∧ s.fab.known ((s.regs.src 1).toNat % 2 ^ 32) 1 = some false) ∧
    (let s := { s0 with fab := known 1 [] }; s.clear ∧ s.fab.known ((s.regs.src 1).toNat % 2 ^ 32) 1 = none) ∧
    (∃ wm, wm < 2 ^ 32 ∧ wmModule wm ≠ ownModule) ∧
    (let s := handed 0 none;
      (s.fab.iface.filter (fun h => h.core = 0 && h.sent.isNone))[0]? = some (hand 0 none) ∧ s.fab.fredWaits s.gtick (hand 0 none) = false ∧
      s.fab.window ((hand 0 none).packet ((s.core 0).ctx.ldRange (descSrc (hand 0 none).desc) (descLen (hand 0 none).desc))) = true ∧
      s.mem.sramBad = [] ∧ s.mem.sramSoft = []) ∧
    (let s := handed 2 (some pktZero);
      s.fab.iface.find? (fun h => h.core = 0 && h.ty = 2) = some (hand 2 (some pktZero)) ∧ descTick (hand 2 (some pktZero)).desc ≤ s.gtick ∧
      s.fab.window pktZero = true ∧ (s.core 0).cgen = (hand 2 none).cgen ∧ (s.core 0).job = some (hand 2 none).job) ∧
    (expired.cores.find? (fun e =>
      (match e.2.seq.waitTick with | some t => decide (t + expired.fab.expiry (e.2.job.getD fwJob) ≤ expired.gtick) | none => false) &&
        (expired.wmWaits e.1).isSome && e.2.seq.fatal.isNone) = some (0, expired.core 0) ∧ (expired.core 0).job ≠ none ∧ (expired.core 0).seq.opened = false) := by
  refine ⟨⟨rfl, rfl⟩, ⟨⟨rfl, rfl⟩, known_landed⟩, ⟨⟨rfl, rfl⟩, known_void⟩, ⟨⟨rfl, rfl⟩, known_open⟩, foreign_wm,
    ⟨by decide +kernel, by decide +kernel, by decide +kernel, rfl, rfl⟩,
    ⟨by decide +kernel, by decide +kernel, by decide +kernel, by decide +kernel⟩, ?_, by decide +kernel⟩
  have h := expired_waits
  rw [show expired.cores = [(0, expired.core 0)] by decide +kernel, List.find?_cons]
  simp only [h]
  decide +kernel

/-- A unit of slot V0, and a vector word from latches b0, b1 to n0, a register of a bank that V0 holds. -/
def sV : State := { s0 with unit := { s0.unit with unit := 3 } }
def vword (ty : BitVec 4) (sc : BitVec 6 := 50) (opx : BitVec 5 := 0) (dst : BitVec 6 := 0) : VF :=
  ⟨false, 0, 0, 1, 0, ty, dst, 48, 49, sc, 0, 0, 7, opx⟩
def portAt (wr : Bool) : Port := ⟨true, wr, 0, 0, 0, 0⟩
theorem witness_VectorOperandsAndResults :
    (let k := core1.onCtx (fun x => { x with port := [(7, portAt false)], stream := [(7, ⟨[5], true⟩)] });
      ((k.ctx.port.get Port.empty 7).configured = true ∧ (k.ctx.port.get Port.empty 7).write = false ∧
        0 ≤ (k.ctx.port.get Port.empty 7).addr ∧ (k.ctx.port.get Port.empty 7).addr + 256 ≤ spadSize 0 k.ctx) ∧
      ((k.ctx.port.get Port.empty 0).addr = 0 ∧ (let p : Port := { portAt false with base := 29183 }; p.configured = true ∧ p.write = false ∧
        (spadSize 0 k.ctx : Int) < ({ p with base := 0x7FFF } : Port).addr + 256)) ∧
      (k.ctx.port.get Port.empty 0).configured = false ∧ (k.ctx.stream.get Stream.empty 7).vecs = [5] ∧
      (k.ctx.stream.get Stream.empty 0).vecs = [] ∧ (k.ctx.stream.get Stream.empty 0).bound = false ∧ k.seq.fatal = none) ∧
    (core1.seq.fatal = none ∧ (core1.onSeq (fun q => { q with pend := [⟨1, 0, 1, .pair 3 7⟩] })).pairing 3 = true) ∧
    (core1.pairing 15 = false ∧ core1.ctx.mayWrite core1.ctx.bank (sV.unit.slot - 1) 3 = true ∧
      core1.ctx.mayWrite core1.ctx.bank (sV.unit.slot - 1) 15 = false) ∧
    (let k := core1.onCtx (fun x => { x with port := [(7, portAt true)] });
      (k.ctx.port.get Port.empty 7).configured = true ∧ (k.ctx.port.get Port.empty 7).write = true ∧
        0 ≤ (k.ctx.port.get Port.empty 7).addr ∧ (k.ctx.port.get Port.empty 7).addr + 256 ≤ spadSize 0 k.ctx) := by decide +kernel

theorem witness_IntegerAndBitLanes : ∀ x ∈ [(6#4, 8), (7#4, 16), (8#4, 32), (9#4, 32)],
    vType (vword x.1) ∈ [ETy.i8, .i16, .i32, .u32] ∧ sV.vectorReady (vword x.1) x.2 (x.2, x.2, 0) ∧
    sV.vectorReady (vword x.1) x.2 (x.2, x.2, x.2) ∧ sV.vectorReady (vword x.1) x.2 (x.2, 0, 0) := by
  unfold State.vectorReady State.clear; decide +kernel

theorem witness_FloatingPointLanes : ∀ x ∈ [(0#4, 32), (1#4, 16), (2#4, 16)],
    vType (vword x.1) ∈ [ETy.f32, .bf16, .f16] ∧ sV.vectorReady (vword x.1) x.2 (x.2, x.2, 0) ∧
    sV.vectorReady (vword x.1) x.2 (x.2, x.2, x.2) ∧ sV.vectorReady (vword x.1) x.2 (x.2, 0, 0) := by
  unfold State.vectorReady State.clear; decide +kernel

theorem witness_RoundingKeepsRepresentableValues : (0xF < 2 ^ (Fmt.e2m1.mb + Fmt.e2m1.eb + 1) ∧ Fmt.e2m1.val 0xF ≠ .nan) ∧
    (0x7E < 2 ^ (Fmt.e4m3.mb + Fmt.e4m3.eb + 1) ∧ Fmt.e4m3.val 0x7E ≠ .nan) ∧
    (0x80000001 < 2 ^ (Fmt.f32.mb + Fmt.f32.eb + 1) ∧ Fmt.f32.val 0x80000001 ≠ .nan) := by decide +kernel

theorem witness_CompareSelectAndMoveLanes : (∀ x ∈ [(0#4, 32), (6#4, 8), (10#4, 1)],
      sV.vectorReady (vword x.1) x.2 (x.2, x.2, 0) ∧ sV.vectorReady (vword x.1) x.2 (x.2, x.2, x.2) ∧
      sV.vectorReady (vword x.1) x.2 (x.2, 0, 0)) ∧
    (sV.clear ∧ (sV.self.vread sV.unit (vword 0) 32 48).1.seq.fatal = none ∧ (sV.self.vread sV.unit (vword 0) 32 48).1.seq.trap = none) ∧
    ((vword 0 1 31).sc.toNat * 32 + (vword 0 1 31).opx.toNat < 2048 / 32) ∧
    (∀ ty ∈ [0#4, 9#4], sV.vectorReady (vword ty) 32 (0, 0, 0) ∧ vType (vword ty) ∈ [ETy.f32, .u32]) := by
  unfold State.vectorReady State.clear; decide +kernel

/-- Narrowing and widening VCVT, both forms of VQMX at their last part, VDQMX, VPACK and VUNPACK at their last part. -/
theorem witness_ConversionLanes :
    ((vType (vword 1 1 0)).w < (ETy.ofCode ((vword 1 1 0).opx.toNat % 16)).w ∧ (vword 1 1 0).sc.toNat % 32 < 32 / 16 ∧
      sV.vectorReady (vword 1 1 0) 16 (32, 16, 0)) ∧
    ((ETy.ofCode ((vword 0 1 1).opx.toNat % 16)).w ≤ (vType (vword 0 1 1)).w ∧ sV.vectorReady (vword 0 1 1) 32 (16, 0, 0)) ∧
    (sV.vectorReady (vword 5 63 17) 4 (32, 4, 0) ∧ (vword 5 63 17).opx.getLsbD 4 = true ∧ (1 * 64 + 63) * (64 / 32) + 64 / 32 ≤ 256) ∧
    (sV.vectorReady (vword 5 7 0) 4 (32, 4, 0) ∧ (vword 5 7 0).opx.getLsbD 4 = false ∧ 7 * 64 + 64 ≤ 2048 / 4) ∧
    sV.vectorReady (vword 0 0 5) 32 (4, 8, 0) ∧
    (4 < 8 ∧ sV.vectorReady (vword 5 1 0) 4 (8, 4, 0) ∧ (vword 5 1 0).sc.toNat % 8 * 256 + 256 ≤ 2048 / 4 ∧
      sV.vectorReady (vword 5 1 0) 8 (4, 0, 0)) := by
  unfold State.vectorReady State.clear; decide +kernel

theorem witness_ReductionsAndScans : ∀ x ∈ [(6#4, 8), (9#4, 32), (0#4, 32), (2#4, 16)],
    sV.vectorReady (vword x.1) x.2 (x.2, 0, 0) ∧ sV.vectorReady (vword x.1) 32 (x.2, 0, 0) ∧
    vType (vword x.1) ∈ [ETy.i8, .i16, .i32, .u32] ++ [ETy.f32, .bf16, .f16] := by
  unfold State.vectorReady State.clear; decide +kernel

/-- A unit of slot M, of slot C0 on a main core, on a lookup core and on the housekeeping core. -/
def sM (c u : Nat) (w : Word) : State := { s0 with unit := { s0.unit with core := c, unit := u, word := w } }
def dword (cmd : BitVec 38) : DF := ⟨false, 0, 0, 1, 0, 0, 0, 0, 0, cmd⟩
theorem witness_DecoupledCommandsEnterTheirQueues : (∀ c ∈ [0, 64, 128], (sM c 9 0).clear) ∧
    kindOf 0 = .main ∧ kindOf 64 = .lookup ∧ kindOf 128 = .house ∧ unitQueue 7 = 0 ∧ unitQueue 12 = 2 ∧
    (capA 1 1 0 = true ∧ capB 1 1 0 = true ∧ capA 0 8 0 = true ∧ capB 0 6 0 = true) ∧
    ((dword 0).cmd.getLsbD 21 = false ∧ s0.regs.mayWrite s0.regs.bank 2 8 = true ∧ s0.regs.mayWrite s0.regs.bank 2 0 = false ∧
      (dword 0x200000).cmd.getLsbD 21 = true) := by
  unfold State.clear; decide +kernel

/-- A command of queue `q`, with opcode `op` and the low bits of its word. -/
def cmd (q op low : Nat) (ra : Word := 0) : Cmd :=
  { Cmd.empty with q := q, tag := 7, word := BitVec.ofNat 64 (op * 2 ^ 57 + low), guarded := true, ra := ra }
def waitingCmd (d : Cmd) : State := s0.onCore 0 (·.onEng (fun e => { e with queue := [d] }))
/-- The queue's head may start: what COMMAND_START needs of every command. -/
def startable (s : State) (d : Cmd) : Bool :=
  let s0 := s.onCore 0 (·.guardHeads)
  let k := s0.core 0
  k.eng.queue.find? (fun x => x.q = d.q) == some d && !k.engStops && d.guarded && k.engineFree d && k.storesBefore d && !d.acq &&
    !s0.ringWaits 0 d && !s0.ringShut 0 d && !s0.claimAhead 0 d && (!d.isM || s0.mouldPeers 0 == []) && d.signals.isNone &&
    s.mem.sramBad == [] && s.mem.sramSoft == [] && d.prog0 == 0
/-- A block of a copy: its counts, the strides of its dimension 1, and its element type. -/
def block (c0 c1 c2 ty : Nat) (ss ds : Nat := 0) (src dst : Nat := 0) : List Byte :=
  leBytes 8 src ++ leBytes 8 dst ++ leBytes 2 ty ++ zeros 22 ++ leBytes 4 c0 ++ zeros 12 ++ leBytes 4 c1 ++ leBytes 6 ss ++ leBytes 6 ds ++
    leBytes 4 c2 ++ zeros 92
def readyRing : Ring := { Ring.empty with nslot := 1, slotb := 1, ph := 1 }
/-- Core 0 with a command waiting, mould 0 of ROM image 4, ring 0 ready, and a block at 0x400. -/
def staged (d : Cmd) (f : Ctx → Ctx := id) : State :=
  (waitingCmd d).onCtx 0 (fun k => f ({ k with ring := [(0, readyRing)], spad := Tbl.putBytes [] 0x400 (block 256 1 1 6) }.setMould 0
    (romImage 4)))
/-- The start of matrix commands: MMOULD (an image of the ROM, misaligned, past the end, not a mould), MFLOW, MINIT, MRUN and MRUNS (no
mould, no ring, with all), MDRAIN (no accumulator, no such conversion, past the end), MSAVE and MREST, MPOP, and one resumed. -/
theorem witness_CommandsStart :
    (∀ x ∈ [(1, 2 ^ 30, 0), (1, 0, 1), (1, 0, 7471104 - 64), (1, 0, 0), (2, 0, 0), (3, 0, 0), (3, 2 ^ 19, 0), (4, 0, 0), (4, 2 ^ 24, 0), (4, 2 ^ 19, 0),
        (5, 2 ^ 21, 0), (6, 8 * 2 ^ 17, 0), (6, 63 * 2 ^ 22, 0), (6, 0, 0), (6, 2 ^ 21, 0), (7, 0, 0), (7, 0, 1), (7, 63 * 2 ^ 27, 0), (8, 0, 7471104 - 256), (9, 0, 0),
        (9, 1, 0)], let d := cmd 0 x.1 x.2.1 (BitVec.ofNat 64 x.2.2); startable (staged d) d = true ∧ d.started = false ∧ d.isM = true ∧ d.op = x.1) ∧
    startable (staged { cmd 0 2 0 with started := true }) { cmd 0 2 0 with started := true } = true ∧
    (let k := ((staged (cmd 0 2 0)).core 0).ctx
     (Mould.ofImage (romImage 0)).isSome = true ∧ Mould.ofImage (k.ldRange 0 512) = none ∧
      k.accN < 64 ∧ 1 ≤ k.accN ∧ k.mouldAt 1 = none ∧ (k.mouldAt 0).isSome = true ∧ spadSize 0 k < 7471104 - 64 + 512 ∧
      (match (k.mouldAt 0).bind (fun b => Mould.ofImage (mouldBytes b)) with
        | some m => runCheck k (cmd 0 4 (2 ^ 24)).run m == some 4 && runCheck (k.setRg 0 { readyRing with slotb := 64 }) (cmd 0 4 0).run m == none
        | none => false) = true ∧
      (k.kindOfAcc 0 = 0 ∧ drainOk 0 (ETy.ofCode 8) false = true ∧ drainOk 0 (ETy.ofCode 10) false = false ∧
        256 * k.rows < (0 + 1) * (8 * 16 * (16 * 32)) ∧ (0 + 1) * (8 * 1 * (16 * 32)) ≤ 256 * k.rows) ∧
      (k.rg 0).nslot ≠ 0 ∧ (k.rg 1).nslot = 0) := by decide +kernel
/-- The start of CARM (with a limit and past it), of waits of each kind (met, not met, a ring not configured), of copies with a good
block and a misaligned one, of CGATH and CSCAT, of a CRING and of one resumed. -/
theorem witness_CommandsStart_copies :
    (∀ x ∈ [(9, 15 * 2 ^ 17, 0xFFFFFF), (9, 0, 0x1000000), (10, 0, 0), (10, 2 ^ 27, 0), (10, 2 ^ 27 + 2 ^ 6, 0), (10, 2 * 2 ^ 27, 0), (10, 2 * 2 ^ 27 + 2 ^ 6, 0),
        (10, 3 * 2 ^ 27, 0), (10, 3 * 2 ^ 27 + 2 ^ 22, 0), (1, 0, 0x400), (2, 0, 0x400), (5, 0, 0x400), (7, 0, 0x400), (8, 0, 0x400), (1, 0, 1), (3, 0, 0x400), (4, 0, 0x400),
        (6, 2 ^ 18, 0x400)], let d := cmd 1 x.1 x.2.1 (BitVec.ofNat 64 x.2.2);
      let s := staged d (fun k => k.setRg 1 { Ring.empty with nslot := 1, slotb := 1 });
      startable s d = true ∧ d.started = false ∧ d.isM = false ∧ d.op = x.1) ∧
    (let d := { cmd 1 1 0 0x400 with started := true }; startable (staged d) d = true ∧ d.isWait = false) ∧
    (let s := staged (cmd 1 1 0) (fun k => k.setRg 1 { Ring.empty with nslot := 1, slotb := 1 })
     let k := (s.core 0).ctx
     let b := Blk.ofBytes (k.ldRange 0x400 160)
     s.semOk 0 0 = true ∧ (cmd 1 10 (2 ^ 27)).wVal ≤ s.semGet 0 0 ∧ s.semGet 0 0 < (cmd 1 10 (2 ^ 27 + 2 ^ 6)).wVal ∧
      (k.bb.get Barrier.empty 0).phase = decide ((cmd 1 10 (2 * 2 ^ 27)).wVal = 1) ∧ (k.rg 0).ready 0 = true ∧ (k.rg 1).ready 0 = false ∧
      (k.rg 2).nslot = 0 ∧ (∀ op ∈ [1, 2, 3, 4, 5, 6, 7, 8], s.copyCheck 0 (cmd 1 op 0 0x400) b = none) ∧
      s.copyCheck 0 (cmd 1 1 0 1) b = some 0x09 ∧ addr64 (((cmd 1 3 0).rb.toNat : Int) + (cmd 1 3 0).n * b.sstep) % 4 = 0 ∧
      0 + 4 * (b.count 1 * b.count 2) ≤ spadSize 0 k ∧ s.ringCheck 0 (cmd 1 6 (2 ^ 18)) = none ∧ (cmd 1 6 (2 ^ 18)).cont = false ∧
      (cmd 1 6 (2 ^ 18)).slotNo = none) := by decide +kernel

def flying (d : Cmd) : State := s0.onCore 0 (·.onEng (fun e => { e with fly := [d] }))
/-- A matrix command in flight that is not done, on a core whose engines go on. -/
def steppable (s : State) (d : Cmd) : Bool :=
  (s.core 0).flyAt d.q 0 == some d && d.isM && !d.finished && !(s.core 0).engStops && s.mem.sramBad == [] && s.mem.sramSoft == []
/-- MMOULD with ALL on core 0: core 1 is free for it, core 2 uses the mould. -/
def moulding : State :=
  ((flying (cmd 0 1 (2 ^ 25))).setCore 1 core1).setCore 2 (core1.onEng (fun e => { e with fly := [{ cmd 0 3 0 with tag := 9 }] }))
theorem witness_CommandsStepAndRetire :
    (let d := { cmd 1 1 (2 ^ 26 + 15 * 2 ^ 21) with finished := true };
      let s := flying d
      (s.core 0).flyAt 1 0 = some d ∧ d.finished = true ∧ d.rel = false ∧ s.mem.invals = [] ∧ s.host.dues = [] ∧ d.hs.valid = false ∧
      d.hd.valid = false ∧ d.signals = some 15 ∧ 15 < 16 ∧ s.semGet 0 15 < 65535) ∧
    (∀ x ∈ [(1, 2 ^ 25), (3, 0), (6, 8 * 2 ^ 17), (6, 2 ^ 21 + 8 * 2 ^ 17), (7, 0), (8, 0), (9, 0)], let d := { cmd 0 x.1 x.2 with aux := romImage 0 };
      steppable (flying d) d = true ∧ d.op = x.1) ∧
    (moulding.mouldPeers 0 = [1, 2] ∧ (moulding.core 1).eng.fly = [] ∧
      ∃ x ∈ (moulding.core 2).eng.fly, x.usesMould ((cmd 0 1 (2 ^ 25)).bits 31 2) = true) ∧
    (({ cmd 0 3 0 with aux := romImage 0 } : Cmd).mould).isSome = true ∧ readyRing.ready 0 = true ∧
    (let k := (flying (cmd 0 6 (8 * 2 ^ 17))).core 0
     k.ctx.kindOfAcc 0 ≤ 3 ∧ drainOk (k.ctx.kindOfAcc 0) (ETy.ofCode ((cmd 0 6 (8 * 2 ^ 17)).bits 17 4)) (cmdRA (cmd 0 6 (8 * 2 ^ 17)).word != 0) = true ∧
      k.pairing 0 = false) := by
  exact ⟨by decide +kernel, by decide +kernel, by decide +kernel, by decide +kernel, by decide +kernel, by decide +kernel⟩

/-- An MRUN on 8-bit integers, and an MRUNS that keeps one of four, with every ring ready. -/
def running : Cmd := { cmd 0 4 0 with aux := romImage 6, started := true }
def sparse : Cmd := { cmd 0 5 0 with aux := romImage 6, started := true }
def ringed (d : Cmd) : State := (flying d).onCtx 0 (fun k => { k with ring := [(0, readyRing)] })
/-- A granule that has not been delivered of a copy in flight. -/
def granular (s : State) (d : Cmd) (g : Nat) : Bool :=
  let b := Blk.ofBytes d.blk
  (s.core 0).flyAt 1 0 == some d && !d.isM && !d.finished && d.failed.isNone && decide (g < d.prog0) && !d.done.contains g &&
    (s.core 0).inWindow d g && !(s.core 0).engStops && d.ck != 2 && !b.cvt && epKind b.src == 0 && epKind b.dst == 0 &&
    s.mem.sramBad == [] && s.mem.sramSoft == []
def copying (op low n : Nat) (prog : Nat := 1) : Cmd :=
  { cmd 1 op low with blk := block n 1 1 (if op = 2 then 0 else 6), prog0 := prog, started := true, slotNo := if op = 6 then some 0 else none }
theorem witness_PanelsAndGranules :
    (∀ d ∈ [running, sparse], let s := ringed d; let k := s.core 0;
      k.eng.fly.find? (fun d => d.isM && (d.op = 4 || d.op = 5) && !d.finished) = some d ∧ k.engStops = false ∧
      (match d.mould with | some m => decide (m.family = 1 ∧ min 1 (d.run.blocks m - d.prog1) = 1) | none => false) = true ∧ d.dense = [] ∧
      flowPat k.ctx ≠ 2 ∧ s.mem.sramBad = [] ∧ s.mem.sramSoft = [] ∧ (k.ctx.rg d.run.rga).ready 0 = true ∧ (k.ctx.rg d.run.rgb).ready 0 = true) ∧
    (sparse.run.rgm = some 0 ∧ let x := ((ringed sparse).core 0).view sparse;
      metaOk sparse.run (panelRows (x.ldRange (ringSlot (x.rg 0) 0) (128 * sparse.run.pitchM)) sparse.run.pitchM 128) = true) ∧
    (∀ x ∈ [(1, 0, 1), (4, 0, 1), (2, 0, 1), (8, 0, 1), (7, 2 ^ 13, 1), (6, 0, 1), (6, 0, 256)], let d := copying x.1 x.2.1 x.2.2;
      let s := ringed d; let b := Blk.ofBytes d.blk; granular s d 0 = true ∧ d.op = x.1 ∧
      granuleSegs 257 d b 0 = [(0, 0, if x.1 = 2 then 4 else x.2.2)] ∧ addr64 (srcAt d b 0 + 0) + 256 ≤ spadSize 0 (s.core 0).ctx ∧
      addr64 (dstAt d b 0 + 0) + 256 ≤ spadSize 0 (s.core 0).ctx) ∧
    ((ETy.ofCode (Blk.ofBytes (copying 2 0 1).blk).sty).w ∈ [8, 16, 32] ∧ (copying 7 (2 ^ 13) 1).castCores 0 = [0] ∧
      (copying 7 (2 ^ 13) 1).word.getLsbD 12 = false ∧ readyRing.slotBytes = 256 ∧ readyRing.full.get none 0 = none ∧ readyRing.cnt.get 0 0 = 0) ∧
    (let d := copying 5 0 256; let b := Blk.ofBytes d.blk; granular (ringed d) d 0 = true ∧ d.op = 5 ∧
      vectorSegs d b ((vectorOrder d b).getD 0 0) = [(0, 0, 256)] ∧ (((ringed d).core 0).ctx.stream.get Stream.empty 0).vecs.length < 8) ∧
    (let d := copying 3 0 1; let b := Blk.ofBytes d.blk; granular (ringed d) d 0 = true ∧ d.op = 3 ∧ 0 = d.done.length ∧ d.pool = 0 ∧
      b.count 0 ≤ 256 ∧ 0 < b.count 0 ∧ d.rows = [] ∧ b.count 1 = 1) ∧
    (∀ j, 0 < (Blk.ofBytes (copying 1 0 1).blk).count j) := by
  refine ⟨by decide +kernel, by decide +kernel, by decide +kernel, by decide +kernel, by decide +kernel, by decide +kernel, fun j => ?_⟩
  have h : ∀ d ∈ (Blk.ofBytes (copying 1 0 1).blk).dims, 0 < d.count := by decide +kernel
  simp only [Blk.count, Blk.dim, List.getD_eq_getElem?_getD]
  cases e : (Blk.ofBytes (copying 1 0 1).blk).dims[j]? with
  | none => decide
  | some d => exact h d (List.mem_of_getElem? e)

/-! Traps, saves and restores: core 0 drains into a handler, from the deepest level, and back. -/
def seqJob (j : Job) (f : Seqr → Seqr) (g : Ctx → Ctx := id) : State := ((tasked j).onSeq 0 f).onCtx 0 g
def trapping (h d : Nat) : State :=
  seqJob { job1 with trapv := h } (fun q => { q with phase := .trapDrain, trap := some ⟨5, 3, 0, 0⟩ }) (fun k => { k with tdepth := d })
def returning (d : Nat) : State := seqJob job1 (fun q => { q with phase := .trapRet }) (fun k => { k with tdepth := d })
theorem witness_TrapsEnterAndReturn :
    (∀ y ∈ [(4096, 2), (4096, 3), (0, 0)], let s := trapping y.1 y.2; let k := s.core 0;
      k.seq.phase = .trapDrain ∧ k.seq.opened = false ∧ k.drained = true ∧ k.seq.fatal = none ∧ k.seq.trap = some ⟨5, 3, 0, 0⟩ ∧
      k.ctx.ras.length < 16 ∧ k.ctx.depth ≠ 0xFFFFFFFF ∧ (y.2 = 2 → k.ctx.tdepth < 3 ∧ s.handlerOf 0 5 ≠ 0) ∧
      (y.2 ≠ 2 → k.ctx.tdepth = 3 ∨ s.handlerOf 0 5 = 0)) ∧
    (∀ d ∈ [0, 1, 3], let k := (returning d).core 0;
      k.seq.phase = .trapRet ∧ k.seq.opened = false ∧ k.enginesDone = true ∧ k.repliesIn = true ∧ k.seq.fatal = none ∧
      (d ≠ 0 → recordBad (k.ctx.ld (spadSize 0 k.ctx - 4096 - 4096 * k.ctx.tdepth) 4096) = false)) ∧
    (let k := ((returning 1).onCtx 0 (fun k => { k with spad := [(spadSize 0 k - 8192 + 8, 13)] })).core 0;
      k.seq.phase = .trapRet ∧ k.seq.opened = false ∧ k.enginesDone = true ∧ k.repliesIn = true ∧ k.seq.fatal = none ∧
      k.ctx.tdepth ≠ 0 ∧ recordBad (k.ctx.ld (spadSize 0 k.ctx - 4096 - 4096 * k.ctx.tdepth) 4096) = true) := by decide +kernel

/-- An item of class 0 is ready while core 0 runs a task of class 2, a save slot being free. -/
def jobP : Job := { job1 with saveslots := 1, tcb := [(2, { Tcb.empty with kind := 1, levels := [(2, 0)], mcores := 1 })],
                              node := [(2, { Node.empty with state := 1, live := true, cset := [0] })] }
def holding : State := seqJob jobP (fun q => { q with task := some task1 })
/-- Core 0 with its countdown over, at an issue of an empty bundle and in TEND. -/
def overdue (ph : Phase) (w : List Byte) (f : Ctx → Ctx := id) : State :=
  seqJob { job1 with code := [(0, 4096)], bytes := w.zipIdx.filterMap (fun e => if e.1 = 0 then none else some (e.2, e.1)) }
    (fun q => { q with phase := ph, preempt := some 0 }) f
/-- A job whose addresses are one page of 1 GiB at HBM address 2^30, and core 0 with a task, its save slot reserved. -/
def jobS : Job := { jobP with slots := [0] }
def table (l : List (Nat × Nat)) : Tbl Byte := l.foldl (fun t e => Tbl.putBytes t e.1 (leBytes 8 e.2)) []
def root : List (Nat × Nat) := [(0, 2 ^ 63 + 2 ^ 62 + 4096), (4096, 2 ^ 63 + 2 ^ 62 + 2 ^ 61 + 2 ^ 60 + 2 ^ 30)]
def tables : Mem := { Mem.empty with hbm := table root }
/-- The leaf of that page, writable, as a cache holds it, and a state whose caches hold it alone, with no error anywhere. -/
def page30 : TEntry := ⟨0, 1, 0, 2, some 0xF000000040000000, false⟩
structure Smooth (s : State) : Prop where
  migs : s.mem.migs = []
  cache : s.mem.tcache = [page30]
  errors : s.mem.poison = [] ∧ s.mem.soft = [] ∧ s.mem.bad = [] ∧ s.mem.discarded = []
theorem Smooth.lookup {s : State} (hs : Smooth s) (va : Nat) (h : va < 2 ^ 30) : s.mem.lookup 0 1 va = some page30 := by
  have h2 : pageOf 2 va = 0 := by
    have : va / 1073741824 = 0 := Nat.div_eq_of_lt (by omega)
    simp only [pageOf, pageBytes, this, Nat.zero_mul]
  have : (page30.die = 0 && !page30.bad && page30.covers 1 va) = true := by simp [page30, TEntry.covers, h2]
  simp [Mem.lookup, hs.cache, this]
theorem Smooth.marked {s : State} (hs : Smooth s) (va : Nat) : s.mem.marked 1 va = false := by simp [Mem.marked, hs.migs]
theorem key30 (va : Nat) (h : va < 2 ^ 30) : (ptePlace 2 0xF000000040000000 va).key = 2 ^ 30 + va := by
  have h1 : va % 1073741824 = va := Nat.mod_eq_of_lt (by omega)
  unfold ptePlace
  simp only [pageBytes, show pteDie 0xF000000040000000 = 0 by decide, show ptePbase 0xF000000040000000 = 16384 by decide, h1, Place.key, hbmKey]
  omega
theorem Smooth.span {s : State} (hs : Smooth s) (n : Nat) (h : n ≤ 2 ^ 30) (hc : ∀ j, s.job 1 = some j → j.codeMeets 0 n = false) :
    s.writableSpan 0 1 0 n := by
  have hk : ∀ i < n, s.cachedAt 0 1 (0 + i) = some (2 ^ 30 + i) := fun i hi => by
    have hm : (0 + i) % 2 ^ 57 = i := by rw [Nat.zero_add]; exact Nat.mod_eq_of_lt (by omega)
    unfold State.cachedAt
    rw [hm, hs.lookup i (by omega)]
    simp only [page30, Option.bind_some, Option.map_some, key30 i (by omega)]
  refine ⟨by omega, by simp [hs.cache, page30], hc, fun i hi => ⟨hs.marked _, page30, 0xF000000040000000, hs.lookup _ (by omega), rfl, by decide, ?_⟩, ?_⟩
  · have : (16384 ≤ (2 ^ 30 + i) / 65536) ∧ (2 ^ 30 + i) / 65536 < 32768 := by omega
    rw [Nat.zero_add, show page30.size = 2 from rfl, key30 i (by omega)]
    have hu : unitFrame ((2 ^ 30 + i) / 65536) = false := by
      simp only [unitFrame, frameId, Bool.or_eq_false_iff, Bool.and_eq_false_iff]
      exact ⟨Or.inl (decide_eq_false (by omega)), Or.inl (decide_eq_false (by omega))⟩
    simp only [Mem.inert, Mem.gone, hs.errors, Tbl.get, frameOf, hu, Bool.or_false]
  · intro i hi k hk' e
    rw [hk i hi, hk k hk'] at e
    simpa using e
theorem blockwaits (x : Next) (h : (match x with | .wait (.unit 2) p _ => p.clash.isNone && p.opening = some 1 | _ => false) = true) :
    ∃ p leaf, x = .wait (.unit 2) p leaf ∧ p.clash = none ∧ p.opening = some 1 := by
  split at h
  · rename_i p leaf; exact ⟨p, leaf, rfl, by simpa using h⟩
  · cases h
def saving (ph : Phase) : State :=
  { seqJob jobS (fun q => { q with phase := ph, slot := some 0, task := some task1 }) with mem := { tables with tcache := [page30] } }
/-- An issue of a BLOCK at S pipe 0, or at S pipe 1 after the ADD of S pipe 0, and a BLOCK before the SEMWAIT that waits. -/
def blocking (pipes : Tbl Pipe) (w : List Byte) : State := (overdue .run ([0, 0, 0, 0x40] ++ w)).onSeq 0 (fun q => { q with pipes := pipes })
def pipe1 (w : Word) : Tbl Pipe := [(1, { Pipe.empty with mem := true, word := w })]
def blockP0 : State := blocking [] [0, 0, 1, 0, 0, 0, 1, 0xCC]
def blockP1 : State := blocking (pipe1 0x0201060840000000) [0, 0, 1, 0, 0, 0, 0x21, 0xCC]
def blockWait : State := blocking (pipe1 0xCC01000000010000) [0x20, 0, 0, 0, 0, 0, 0x21, 0xC2]
def opensAt (v : Nat) (e : Bool) : Next → Bool
  | .issue _ p _ => p.opening = some v && (p.units.filter (fun x => x.1.unit < v)).isEmpty == e
  | _ => false
theorem opens_at (v : Nat) (e : Bool) (x : Next) (h : opensAt v e x = true) : ∃ b p leaf, x = .issue b p leaf ∧ p.opening = some v ∧
    (p.units.filter (fun x => x.1.unit < v)).isEmpty = e := by
  unfold opensAt at h
  split at h
  · rename_i b p leaf
    simp only [Bool.and_eq_true, decide_eq_true_eq, beq_iff_eq] at h
    exact ⟨b, p, leaf, rfl, h.1, h.2⟩
  · cases h
def waitsAt (u : Nat) : Next → Bool
  | .wait (.unit v) p _ => v = u && p.clash.isNone && (p.units.filter (fun x => x.1.unit < u)).isEmpty == (u == 1)
  | _ => false
theorem waits_at (u : Nat) (x : Next) (h : waitsAt u x = true) : ∃ p leaf, x = .wait (.unit u) p leaf ∧ p.clash = none ∧
    ((p.units.filter (fun x => x.1.unit < u)).isEmpty = (u == 1)) := by
  unfold waitsAt at h
  split at h
  · rename_i v p leaf
    simp only [Bool.and_eq_true, decide_eq_true_eq, beq_iff_eq, Option.isNone_iff_eq_none] at h
    exact ⟨p, leaf, by rw [h.1.1], h.1.2, h.2⟩
  · cases h
theorem issues_at (x : Next) (h : (match x with | .issue _ p _ => p.opening.isNone | _ => false) = true) :
    ∃ b p leaf, x = .issue b p leaf ∧ p.opening = none := by
  split at h
  · rename_i b p leaf; exact ⟨b, p, leaf, rfl, by simpa using h⟩
  · cases h
theorem branches_at (x : Next) (h : (match x with | .wait .branch _ _ => true | _ => false) = true) :
    ∃ p leaf, x = .wait .branch p leaf := by
  split at h
  · rename_i p leaf; exact ⟨p, leaf, rfl⟩
  · cases h
/-- SEMWAIT on S pipe 1 holds the bundle back after the ADD that S pipe 0 goes on with. -/
def splitting : State :=
  (overdue .run [0, 0, 0, 0x40, 0x20, 0, 0, 0, 0, 0, 0x21, 0xC2]).onSeq 0
    (fun q => { q with pipes := [(1, { Pipe.empty with mem := true, word := 0x0201060840000000 })] })
theorem span_saving (ph : Phase) : (saving ph).writableSpan 0 1 0 (((saving ph).core 0).ctx.imageLen 0) := by
  have hl : ((saving ph).core 0).ctx.imageLen 0 ≤ 2 ^ 30 := by cases ph <;> decide +kernel
  refine Smooth.span ⟨rfl, rfl, rfl, rfl, rfl, rfl⟩ _ hl (fun j hj => ?_)
  have : (saving ph).job 1 = some jobS := by cases ph <;> rfl
  rw [this, Option.some.injEq] at hj
  subst hj
  simp [Job.codeMeets, jobS, jobP, job1, Job.blank]
theorem witness_PreemptionAndSaves :
    (∃ x, holding.jobOf 0 = some jobP.num ∧ holding.job jobP.num = some jobP ∧ jobP.items holding.gtick = [] ++ x :: [] ∧
      x.cores = [0] ∧ (holding.core 0).offered = false ∧ (∀ e ∈ holding.cores, e.2.job = some jobP.num → e.2.seq.preItem ≠ some x.id) ∧
      (holding.core 0).seq.slot = none ∧ (holding.core 0).seq.task = some task1 ∧ x.cls < task1.cls ∧
      0 < jobP.saveslots ∧ 0 ∉ jobP.slots) ∧
    (∀ s ∈ [overdue .ending [], overdue .run [0, 0, 0, 0x40, 0, 0, 0, 0x40, 8, 6, 1, 2],
        overdue .run [0, 0, 0, 0x40, 0x20, 0, 0, 0, 0, 0, 1, 0xC2], splitting, overdue .run [0, 0, 0, 0x80, 0, 0, 0, 0x40, 0, 0, 0x80, 0x10] (fun k => { k with predW := 0 }),
        blockP0, blockP1, blockWait],
      let k := s.core 0; (s.examine 0).1.mem.sramBad = [] ∧ (s.examine 0).1.mem.sramSoft = [] ∧
      (k.seq.phase = .run ∨ k.seq.phase = .ending) ∧ k.seq.preempt = some 0 ∧ k.seq.blk = none ∧ k.seq.fatal = none ∧ k.seq.opened = false) ∧
    (∃ b p leaf, ((overdue .run [0, 0, 0, 0x40, 0, 0, 0, 0x40, 8, 6, 1, 2]).examine 0).2 = .issue b p leaf ∧ p.opening = none) ∧
    (∃ p leaf, ((overdue .run [0, 0, 0, 0x40, 0x20, 0, 0, 0, 0, 0, 1, 0xC2]).examine 0).2 = .wait (.unit 1) p leaf ∧ p.clash = none ∧
      (p.units.filter (fun x => x.1.unit < 1)).isEmpty = true) ∧
    (∃ p leaf, (splitting.examine 0).2 = .wait (.unit 2) p leaf ∧ p.clash = none ∧
      (p.units.filter (fun x => x.1.unit < 2)).isEmpty = false) ∧
    (∃ p leaf, ((overdue .run [0, 0, 0, 0x80, 0, 0, 0, 0x40, 0, 0, 0x80, 0x10] (fun k => { k with predW := 0 })).examine 0).2 = .wait .branch p leaf) ∧
    (∀ y ∈ [(blockP0, 1, true), (blockP1, 2, false)], ∃ b p leaf, (y.1.examine 0).2 = .issue b p leaf ∧ p.opening = some y.2.1 ∧
      (p.units.filter (fun x => x.1.unit < y.2.1)).isEmpty = y.2.2) ∧
    (∃ p leaf, (blockWait.examine 0).2 = .wait (.unit 2) p leaf ∧ p.clash = none ∧ p.opening = some 1) ∧
    (∀ ph, jobS.slotVa 0 % 65536 = 0 ∧ (saving ph).writableSpan (dieOf 0) jobS.num (jobS.slotVa 0) (((saving ph).core 0).ctx.imageLen 0)) ∧
    (∀ ph ∈ [Phase.saveDrain, .yielding], let s := saving ph; let k := s.core 0;
      k.job = some jobS.num ∧ s.job jobS.num = some jobS ∧ k.seq.slot = some 0 ∧ k.seq.task = some task1 ∧ k.seq.opened = false ∧
      k.drained = true ∧ k.seq.stores = [] ∧ s.remoteClaims 0 = false ∧ k.seq.fatal = none ∧ s.mem.sramBad = [] ∧ s.mem.sramSoft = [] ∧
      min 16 k.ctx.depth ≤ k.ctx.ras.length ∧ k.enginesDone = true ∧
      (s.jobCheck jobS.num (coreReq 0) true (jobS.slotVa 0) (k.ctx.imageLen 0) (spanFuel (k.ctx.imageLen 0))).2 = .ok) := by
  exact ⟨⟨(jobP.items 0).headD ⟨0, false, 0, 0, 0, [], 0, .dyn 0⟩, by decide +kernel⟩, by decide +kernel,
    issues_at _ (by decide +kernel), waits_at 1 _ (by decide +kernel), waits_at 2 _ (by decide +kernel), branches_at _ (by decide +kernel),
    by simp only [List.forall_mem_cons]; exact ⟨opens_at 1 true _ (by decide +kernel), opens_at 2 false _ (by decide +kernel), by simp⟩,
    blockwaits _ (by decide +kernel), fun ph => ⟨rfl, span_saving ph⟩, by decide +kernel⟩

/-- Core 0 waits for work; the first item is a task saved in slot 0, whose image has a header and zeros. -/
def jobR : Job := { jobS with node := [], saved := [⟨0, task1, 0, 0, none, .main, [], [], []⟩] }
def imaged : Mem := { Mem.empty with hbm := table [(2 ^ 30, 0x4C535643 + 2 ^ 32), (2 ^ 30 + 16, 0x601)], tcache := [page30] }
def restoring : State := { seqJob jobR (fun q => { q with phase := .run, waiting := true }) with mem := imaged }
def itemR : Item := ((jobR.items 0).headD ⟨0, false, 0, 0, 0, [], 0, .dyn 0⟩)
theorem Smooth.kept {s : State} (hs : Smooth s) (va : Nat) : s.onMem (·.dropBad 0 1 va) = s := by
  simp [Mem.dropBad, hs.cache, page30, State.onMem]
theorem Smooth.access {s : State} (hs : Smooth s) (va n : Nat) (h : va < 2 ^ 30) :
    s.access 1 (coreReq 0) va n false = (s, .ok (ptePlace 2 0xF000000040000000 va)) := by
  have h1 : va % 2 ^ 57 = va := Nat.mod_eq_of_lt (by omega)
  unfold State.access
  simp only [h1, show (coreReq 0).die = 0 from rfl, hs.kept, hs.marked, hs.lookup va h, Bool.false_eq_true, if_false]
  rfl
theorem Smooth.ecc {s : State} (hs : Smooth s) (r : Nat) (ctxid : Word) (bs : List Nat) : s.ecc r ctxid bs = (s, false) := by
  unfold State.ecc
  induction bs with
  | nil => rfl
  | cons b l ih =>
    have h : s.eccBlock r ctxid b = (s, false) := by simp [State.eccBlock, Mem.uncorrectable, hs.errors, Tbl.get]
    simpa [h] using ih
theorem Smooth.readHbm {s : State} (hs : Smooth s) (r : Nat) (ctxid : Word) (key n : Nat) :
    s.readHbm r ctxid key n = (s, s.mem.rd key n, false, false) := by
  have h : (blocksOf key n).any s.mem.gone = false := List.any_eq_false.mpr (fun _ _ => by simp [Mem.gone, hs.errors, Tbl.get])
  simp [State.readHbm, h, hs.ecc]
theorem Smooth.jobRead {s : State} (hs : Smooth s) (r : Nat) (by_ : Option Nat) (ctxid : Word) (f va n : Nat) (h : va + n ≤ 2 ^ 30) :
    ∃ l, s.jobRead 1 (coreReq 0) r by_ ctxid va n f = (s, .ok l) := by
  induction f generalizing va n with
  | zero => exact ⟨_, rfl⟩
  | succ f ih =>
    unfold State.jobRead
    by_cases hn : n = 0
    · exact ⟨[], by rw [if_pos hn]⟩
    · have hp := hs.access va (min n (65536 - va % 65536)) (by omega)
      obtain ⟨l', hl'⟩ := ih (va + min n (65536 - va % 65536)) (n - min n (65536 - va % 65536)) (by omega)
      simp only [if_neg hn, hp, hs.readHbm, hl', Bool.false_eq_true, if_false]
      split
      · exact ⟨_, rfl⟩
      · exact ⟨_, rfl⟩
theorem pieces_in (x : Ctx) (e : Nat × (Unit → List Byte)) (h : e ∈ x.pieces 0) : e.1 + pieceLen 0 x e.1 ≤ 2 ^ 30 := by
  have hr : x.rows ≤ 128 := by unfold Ctx.rows; split <;> decide
  have ha : x.accN < 128 := by unfold Ctx.accN; omega
  have hs : spadSize 0 x ≤ 8388608 := by simp only [spadSize, show kindOf 0 = .main from rfl]; omega
  have ht : x.tileBytes ≤ 524288 := by unfold Ctx.tileBytes; omega
  have hl : pieceLen 0 x e.1 ≤ 65536 := by
    simp only [pieceLen, show kindOf 0 = .main from rfl, if_true]
    split
    · omega
    · split <;> omega
  have he : e.1 ≤ 2 ^ 29 := by
    simp only [Ctx.pieces, show kindOf 0 = .main from rfl, List.mem_append, List.mem_map, List.mem_range, if_true] at h
    rcases h with (⟨n, hn, rfl⟩ | ⟨n, hn, rfl⟩) | ⟨n, hn, rfl⟩
    · have : 256 * x.rows * n ≤ 256 * 128 * 16 := Nat.mul_le_mul (by omega) (by omega)
      simp only; omega
    · simp only; omega
    · simp only; omega
  omega
theorem fold_some {s : State} {α : Type} (f : State × Option Ctx → α → State × Option Ctx) (l : List α)
    (h : ∀ y, ∀ e ∈ l, ∃ z, f (s, some y) e = (s, some z)) (y : Ctx) : ∃ z, l.foldl f (s, some y) = (s, some z) := by
  induction l generalizing y with
  | nil => exact ⟨y, rfl⟩
  | cons e r ih =>
    obtain ⟨z, hz⟩ := h y e (List.mem_cons_self ..)
    rw [List.foldl_cons, hz]
    exact ih (fun y e he => h y e (List.mem_cons_of_mem _ he)) z
theorem Smooth.jobCheck {s : State} (hs : Smooth s) (f va n : Nat) (h : va + n ≤ 2 ^ 30) :
    s.jobCheck 1 (coreReq 0) false va n f = (s, .ok) := by
  induction f generalizing va n with
  | zero => rfl
  | succ f ih =>
    unfold State.jobCheck
    by_cases hn : n = 0
    · rw [if_pos hn]
    · simp only [if_neg hn, hs.access va (min n (65536 - va % 65536)) (by omega)]
      exact ih _ _ (by omega)
theorem Smooth.readImage {s : State} (hs : Smooth s) (j : Job) (v : Saved) (l : List Byte) (hj : j.num = 1) (hv : j.slotVa v.slot = 0)
    (hn : (s.core 0).ctx.imageLen 0 ≤ 2 ^ 30)
    (hr : s.jobRead 1 (coreReq 0) 9 (some 0) (s.core 0).ctx.ctxid (0 + 0) 0x8000 (spanFuel 0x8000) = (s, .ok l))
    (hg : (num l 0 4 != 0x4C535643 || num l 4 2 != 1 || BitVec.ofNat 64 (num l 16 8) != (s.core 0).ctx.pword) = false) :
    ∃ y, s.readImage 0 j v = (s, .ok y (slice l 0x1000 4096) (slice l 512 256)) := by
  have hc := hs.jobCheck (spanFuel ((s.core 0).ctx.imageLen 0)) 0 ((s.core 0).ctx.imageLen 0) (by omega)
  unfold State.readImage
  simp only [hj, hv, hc, hr, hg, Bool.false_eq_true, if_false]
  generalize Ctx.ofImage _ _ _ _ = x
  generalize hf : List.foldl _ _ _ = q
  have hq : ∃ z, q = (s, some z) := by
    rw [← hf]
    refine fold_some _ _ (fun y e he => ?_) _
    obtain ⟨b, hb⟩ := hs.jobRead 9 (some 0) (s.core 0).ctx.ctxid (spanFuel (pieceLen 0 x e.1)) (0 + e.1) (pieceLen 0 x e.1)
      (by have := pieces_in x e he; omega)
    simp only [hb]
    exact ⟨_, rfl⟩
  obtain ⟨z, rfl⟩ := hq
  exact ⟨z, rfl⟩
def saved1 : Saved := ⟨0, task1, 0, 0, none, .main, [], [], []⟩
def restoring0 : State := restoring.onCtx 0 (fun x => { x with sw := { x.sw with disc := false } })
theorem smooth : Smooth restoring0 := ⟨rfl, rfl, rfl, rfl, rfl, rfl⟩
def header1 : List Byte := restoring0.mem.rd (ptePlace 2 0xF000000040000000 0).key 0x8000
theorem Smooth.header {s : State} (hs : Smooth s) (ctxid : Word) : s.jobRead 1 (coreReq 0) 9 (some 0) ctxid (0 + 0) 0x8000 (spanFuel 0x8000) =
    (s, .ok (s.mem.rd (ptePlace 2 0xF000000040000000 (0 + 0)).key 0x8000)) := by
  rw [show spanFuel 0x8000 = 1 + 1 from rfl, State.jobRead]
  simp [show min 0x8000 (65536 - (0 + 0) % 65536) = 0x8000 from rfl, hs.access (0 + 0) 0x8000 (by decide), hs.readHbm]
theorem header_good : (num header1 0 4 != 0x4C535643 || num header1 4 2 != 1 ||
    BitVec.ofNat 64 (num header1 16 8) != (restoring0.core 0).ctx.pword) = false ∧ recordBad (slice header1 0x1000 4096) = false := by
  decide +kernel
def rehandled (s : State) (l : List Byte) : Bool :=
  match s.rehandles 1 (coreReq 0) l with
  | (s2, some _) => (match s2.job 1 with | some j2 => j2.num = 1 | none => false)
  | _ => false
theorem rehandled_ok {s : State} {l : List Byte} (h : rehandled s l = true) :
    ∃ s2 hs j2, s.rehandles 1 (coreReq 0) l = (s2, some hs) ∧ s2.regrips 1 (coreReq 0) [] = (s2, some []) ∧ s2.job 1 = some j2 ∧ j2.num = 1 := by
  unfold rehandled at h
  split at h
  · rename_i s2 hs hy
    split at h
    · rename_i j2 hz; exact ⟨s2, hs, j2, hy, rfl, hz, by simpa using h⟩
    · cases h
  · cases h
theorem reads_back : ∃ y r hl s2 hs s3 kept j2, restoring0.readImage 0 jobR saved1 = (restoring0, .ok y r hl) ∧
    restoring0.rehandles jobR.num (coreReq 0) hl = (s2, some hs) ∧ s2.regrips jobR.num (coreReq 0) saved1.kept = (s3, some kept) ∧
    s3.job jobR.num = some j2 ∧ j2.num = jobR.num ∧ recordBad r = false := by
  obtain ⟨y, hy⟩ := smooth.readImage jobR saved1 header1 rfl rfl (by decide +kernel) (smooth.header _) header_good.1
  obtain ⟨s2, hs, j2, h1, h2, h3, h4⟩ := rehandled_ok (s := restoring0) (l := slice header1 512 256) (by decide +kernel)
  exact ⟨y, _, _, s2, hs, s2, [], j2, hy, h1, h2, h3, h4, header_good.2⟩
def stalled (u : Stall) : State := seqJob job1 (fun q => { q with stall := some u, idleCycles := 2 ^ 40 })
def dying (cause : Nat) : State := seqJob job1 (fun q => { q with phase := .fatal, fatal := some ⟨cause, 0, 0, 4⟩ })
theorem witness_RestoresAndContextEnds :
    (∃ v, let s := restoring; let k := s.core 0;
      (k.offered = true ∧ s.firstItem 0 = some itemR ∧ itemR.work = .saved 0 ∧ s.lowest 0 itemR = true ∧ k.seq.opened = false ∧
      k.enginesDone = true ∧ k.drained = true ∧ k.seq.fatal = none ∧ k.job = some jobR.num ∧ s.job jobR.num = some jobR ∧
      jobR.saved[0]? = some v) ∧ ∃ s1 y r hl s2 hs s3 kept j2,
        (s.onCtx 0 (fun x => { x with sw := { x.sw with disc := false } })).readImage 0 jobR v = (s1, .ok y r hl) ∧
        s1.rehandles jobR.num (coreReq 0) hl = (s2, some hs) ∧ s2.regrips jobR.num (coreReq 0) v.kept = (s3, some kept) ∧
        s3.job jobR.num = some j2 ∧ j2.num = jobR.num ∧ recordBad r = false) ∧
    (∀ u ∈ [Stall.branch, .unit 1, .unit 12], let k := (stalled u).core 0;
      k.job = some job1.num ∧ (stalled u).job job1.num = some job1 ∧ job1.hangLimit ≤ k.seq.idleCycles ∧ k.seq.fatal = none ∧
      k.seq.opened = false ∧ k.seq.phase = .run ∧ k.seq.stall = some u) ∧
    (∀ cause ∈ [0x0F, 0x13], let s := dying cause; let k := s.core 0;
      k.job = some job1.num ∧ s.job job1.num = some job1 ∧ k.seq.phase = .fatal ∧ k.seq.opened = false ∧ k.drained = true ∧
      k.seq.stores = [] ∧ k.seq.fatal = some ⟨cause, 0, 0, 4⟩) := by
  exact ⟨⟨saved1, by decide +kernel, restoring0, reads_back⟩, by decide +kernel, by decide +kernel⟩

/-- Core 0 in TEND with the last iteration of node 2 handed to it, `d` of the two done before, and core 0 waiting while a loop
nest (at its iteration 1) or a timed block is ready. -/
def jobE (d : Nat) : Job := { job1 with
  tcb := [(2, { Tcb.empty with kind := 1, levels := [(2, 0)] })],
  node := [(2, { Node.empty with state := 2, live := true, doneN := d, handed := [(0, 1)] })] }
def ended (d : Nat) : State := seqJob (jobE d) (fun q => { q with phase := .ending, task := some task1 })
theorem uncancelled (d m : Nat) : ((jobE d).nodeAt m).cancel = false := by
  by_cases h : 2 = m
  · subst h; rfl
  · simp [Job.nodeAt, jobE, Tbl.get, h, Node.empty]
theorem workless (d m : Nat) (h : 2 ≠ m) : ((jobE d).complete_ 0).workDone m = false := by
  simp [Job.workDone, Job.tcbAt, Job.complete_, jobE, Tbl.get, h, Tcb.empty, Tcb.isNode]
def jobH (kind l : Nat) : Job := { jobP with
  tcb := [(2, { Tcb.empty with kind := kind, levels := if kind = 1 then [(2, 0)] else [], mcores := 1, tick := 100 })],
  node := [(2, { Node.empty with state := if l = 0 then 1 else 2, live := true, cset := [0], gone := List.range l })] }
def offering (kind l : Nat) : State :=
  { seqJob (jobH kind l) (fun q => { q with waiting := true }) with
    gtick := 100, clk := { Clock.reset with lateUntil := 101 }, host := { HostIf.reset with stage := 3 } }
def itemH (kind l : Nat) : Item := (((jobH kind l).items 100).headD ⟨0, false, 0, 0, 0, [], 0, .dyn 0⟩)
theorem witness_TasksAreHandedOverAndCompleted :
    (∀ d ∈ [0, 1], let s := ended d; let k := s.core 0; let j := jobE d;
      k.job = some j.num ∧ s.job j.num = some j ∧ k.seq.phase = .ending ∧ k.seq.opened = false ∧ k.enginesDone = true ∧
      k.repliesIn = true ∧ k.writesDone = true ∧ k.seq.fatal = none ∧ k.seq.task = some task1 ∧ task1.kind ≠ 3 ∧ task1.kind ≠ 5 ∧
      (j.complete_ 0).workDone 2 = decide (d = 1) ∧ (j.tcbAt 2).kind = 1) ∧
    (∀ d m, ((jobE d).nodeAt m).cancel = false) ∧ (∀ d m, m ≠ 2 → ((jobE d).complete_ 0).workDone m = false) ∧
    (∀ y ∈ [(1, 0), (1, 1), (2, 0)], let s := offering y.1 y.2; let j := jobH y.1 y.2; let k := s.core 0; let x := itemH y.1 y.2;
      k.job = some j.num ∧ s.job j.num = some j ∧ k.offered = true ∧ s.firstItem 0 = some x ∧ s.lowest 0 x = true ∧
      x.work = .node 2 y.2 ∧ x.tcb = 2 ∧ (j.tcbAt 2).levels.length ≤ 6 ∧ (j.tcbAt 2).kind = y.1) ∧
    (((jobH 2 0).tcbAt 2).tick ≠ 0 ∧ ((offering 2 0).core 0).seq.waitFrom ≤ ((jobH 2 0).tcbAt 2).tick ∧
      (offering 2 0).outStep = true) := by
  exact ⟨by decide +kernel, uncancelled, fun d m h => workless d m (Ne.symm h), by decide +kernel, by decide +kernel⟩

/-- A job whose graph has a loop nest (1), a while node (2), a branch without continuation (3), a host signal (4), and the
successors 5 and 6. -/
def graph : Tbl Tcb := [(1, { Tcb.empty with kind := 1, levels := [(2, 0)], succ := [5] }),
  (2, { Tcb.empty with kind := 5, body := 6, nbody := 1, back := 1, cond := 64 }), (3, { Tcb.empty with kind := 4, cond := 64 }),
  (4, { Tcb.empty with kind := 7, value := 9 }), (5, { Tcb.empty with kind := 1, levels := [(1, 0)], pcount0 := 1 }),
  (6, { Tcb.empty with kind := 1, levels := [(1, 0)] })]
def jobG (n : Node) : Job := { job1 with tcb := graph, node := [(1, n), (2, n), (3, n), (4, n), (5, { Node.empty with pcount := 1 })] }
def graphed (n : Node) (m : Mem := tables) : State := { tasked (jobG n) with mem := m }
def worked (w : Word) : Node := { Node.empty with state := 2, live := true, doneN := 2, cond := w }
def asked : Node := { Node.empty with state := 1, live := true }
/-- A branch node (1) with the successors 5 and 6, and a while node (2) with the body 6 and 7, their work done. -/
def forked (w : Word) (b : Node) : Job := { job1 with
  tcb := [(1, { Tcb.empty with kind := 4, ntrue := 1, succ := [5, 6], entry := 4 }), (2, { Tcb.empty with kind := 5, entry := 4, body := 6, nbody := 2, back := 1 }),
    (5, { Tcb.empty with kind := 1, levels := [(1, 0)], pcount0 := 1 }), (6, { Tcb.empty with kind := 1, levels := [(1, 0)], pcount0 := 1 }),
    (7, { Tcb.empty with kind := 1, levels := [(1, 0)], pcount0 := 1 })],
  node := [(1, { worked w with decided := true, doneN := 1 }), (2, { worked w with decided := true, doneN := 1 }),
    (5, { Node.empty with pcount := 1 }), (6, b), (7, b)] }
/-- A chain 1, 5, 6 and 7, in which 6 still runs a task. -/
def chained : Job := { job1 with
  tcb := [1, 5, 6, 7].map (fun n => (n, { Tcb.empty with kind := 1, levels := [(1, 0)], succ := if n = 1 then [5] else if n = 7 then [] else [n + 1] })),
  node := [(1, asked), (5, { Node.empty with pcount := 1 }), (6, { asked with state := 2, handed := [(0, 0)] }), (7, { Node.empty with pcount := 1 })] }
def stamp1 : Stamp := ⟨6, 7, 0, 1, 64, 0, 0⟩
def stamped : Job := { chained with stamps := [(stamp1, some 1)], frozen := true }
theorem reaches_all : (∀ m ∈ [5, 6, 7], stamped.StampReaches 1 m) := by
  have h5 : stamped.StampReaches 1 5 := .first (by decide +kernel) (by decide) (by decide +kernel) (by decide +kernel)
  have h6 : stamped.StampReaches 1 6 := h5.next (by decide +kernel) (by decide) (by decide +kernel) (by decide +kernel)
  have h7 : stamped.StampReaches 1 7 := h6.next (by decide +kernel) (by decide) (by decide +kernel) (by decide +kernel)
  simpa using ⟨h5, h6, h7⟩
theorem reads_ok {s : State} {j : Job} (h : (match s.jobRead j.num (nodeReq j.num 3) 7 none 0 64 8 2 with
    | (s1, .ok _) => s1.job j.num = some j | _ => false) = true) :
    ∃ s1 l, s.jobRead j.num (nodeReq j.num 3) 7 none 0 64 8 2 = (s1, .ok l) ∧ s1.job j.num = some j := by
  split at h
  · rename_i s1 l hx; exact ⟨s1, l, hx, by simpa using h⟩
  · cases h
theorem reads_none {s : State} {j : Job} (h : (match s.jobRead j.num (nodeReq j.num 3) 7 none 0 64 8 2 with
    | (s1, .none_) => s1.job j.num = some j | _ => false) = true) :
    ∃ s1, s.jobRead j.num (nodeReq j.num 3) 7 none 0 64 8 2 = (s1, .none_) ∧ s1.job j.num = some j := by
  split at h
  · rename_i s1 hx; exact ⟨s1, hx, by simpa using h⟩
  · cases h
theorem reads_bad {s : State} {j : Job} (h : (match s.jobRead j.num (nodeReq j.num 3) 7 none 0 64 8 2 with
    | (s1, .bad) => s1.job j.num = some j | _ => false) = true) :
    ∃ s1, s.jobRead j.num (nodeReq j.num 3) 7 none 0 64 8 2 = (s1, .bad) ∧ s1.job j.num = some j := by
  split at h
  · rename_i s1 hx; exact ⟨s1, hx, by simpa using h⟩
  · cases h
theorem witness_NodesStampsAndJobs :
    (∀ x ∈ [0, 1], let w := BitVec.ofNat 64 x; let j := jobG (worked w); (graphed (worked w)).job j.num = some j ∧ j.workDone 1 = true ∧
      ({ j with node := [(2, { worked w with doneN := 1 })] } : Job).workDone 2 = true) ∧
    (let j := jobG (worked 0); let x := j.tcbAt 1; x.kind = 1 ∧ x.succ = [5] ∧ (j.tcbAt 5).isNode = true ∧ (j.nodeAt 5).state = 0 ∧
      (j.nodeAt 5).pcount = 1) ∧
    (∀ w ∈ [0, 1], let j := forked (BitVec.ofNat 64 w) Node.empty; let x := j.tcbAt 1;
      (tasked j).job j.num = some j ∧ j.workDone 1 = true ∧ x.kind = 4 ∧ x.ntrue = 1 ∧ x.succ = [5, 6] ∧ (5 ≠ 6) ∧
      (j.tcbAt 5).isNode = true ∧ (j.nodeAt 5).state = 0 ∧ (j.nodeAt 5).pcount = 1 ∧ (j.nodeAt 5).live = false ∧ (j.tcbAt 5).pcount0 ≠ 0 ∧ (j.tcbAt 5).succ = []) ∧
    (let j := forked 1 { Node.empty with pcount := 1 }; (j.tcbAt 6).isNode = true ∧ (j.nodeAt 6).state = 0 ∧ (j.nodeAt 6).pcount = 1 ∧
      (j.nodeAt 6).live = false ∧ (j.tcbAt 6).pcount0 ≠ 0 ∧ (j.tcbAt 6).succ = []) ∧
    (∀ b ∈ [Node.empty, asked], let j := forked 1 b; let x := j.tcbAt 2; (tasked j).job j.num = some j ∧ j.workDone 2 = true ∧
      x.kind = 5 ∧ (j.nodeAt 2).cond ≠ 0 ∧ x.body = 6 ∧ x.nbody = 2 ∧ (∀ n ∈ [6, 7], (j.tcbAt n).isNode = true ∧ (j.nodeAt n).state = b.state)) ∧
    (∀ n ∈ [2, 3], let j := jobG asked; 4 ≤ (j.tcbAt n).kind ∧ (j.tcbAt n).kind ≤ 6 ∧ (j.nodeAt n).state = 1 ∧
      (j.nodeAt n).decided = false ∧ (j.nodeAt n).cancel = false ∧ (j.tcbAt n).cond = 64) ∧
    (∃ s1 l, (graphed asked).jobRead 1 (nodeReq 1 3) 7 none 0 64 8 2 = (s1, .ok l) ∧ s1.job 1 = some (jobG asked)) ∧
    (∃ s1, (graphed asked Mem.empty).jobRead 1 (nodeReq 1 3) 7 none 0 64 8 2 = (s1, .none_) ∧ s1.job 1 = some (jobG asked)) ∧
    (∃ s1, (graphed asked { tables with poison := [(blockOf (2 ^ 30 + 64), true)] }).jobRead 1 (nodeReq 1 3) 7 none 0 64 8 2 = (s1, .bad) ∧
      s1.job 1 = some (jobG asked)) ∧
    (let j := jobG asked; (j.tcbAt 4).kind = 7 ∧ (j.nodeAt 4).state = 1 ∧ (j.nodeAt 4).cancel = false) ∧
    (let s := tasked stamped; s.liveJobs.find? (fun j => !j.stamps.isEmpty && j.stampEv.isNone) = some stamped ∧
      s.job stamped.num = some stamped ∧ (stamped.tcbAt 1).isNode = true ∧ (stamped.nodeAt 1).state < 3 ∧
      (∀ n ∈ [5, 7], (stamped.nodeAt n).state ≠ 2) ∧ (stamped.nodeAt 6).state = 2 ∧ (stamped.nodeAt 6).handed ≠ [] ∧ stamped.stampSent = false) ∧
    (∀ m ∈ [5, 6, 7], stamped.StampReaches 1 m) ∧
    (let j := jobG { asked with state := 4 }; let j := { j with tcb := [(1, Tcb.empty)] };
      (tasked j).liveJobs.find? (tasked j).jobDone = some j ∧ (tasked j).job j.num = some j) := by
  exact ⟨by decide +kernel, by decide +kernel, by decide +kernel, by decide +kernel, by decide +kernel, by decide +kernel, reads_ok (j := jobG asked) (by decide +kernel),
    reads_none (j := jobG asked) (by decide +kernel), reads_bad (j := jobG asked) (by decide +kernel), by decide +kernel, by decide +kernel, reaches_all, by decide +kernel⟩

/-- Tables down to a leaf of 64 KiB at HBM address 12288, resident or to be served by hardware, or malformed, or none. -/
def down : List (Nat × Nat) := [(0, 2 ^ 63 + 2 ^ 62 + 4096), (4096, 2 ^ 63 + 2 ^ 62 + 8192), (8192, 2 ^ 63 + 2 ^ 62 + 12288)]
def leafBits : Nat := 2 ^ 62 + 2 ^ 61 + 2 ^ 60
def tabled (e : Nat) : State := { s0 with mem := { Mem.empty with hbm := table (down ++ [(12288, e)]), walks := [⟨0, 1, 5, 0⟩] } }
def served (die : Nat) : State :=
  let s := tabled (leafBits + 2 ^ 56)
  { s with mem := { s.mem with walks := [], services := [⟨1, 0, 0, 12288, 0, none, []⟩], released := [⟨die, 99, 0, 1⟩] } }
theorem takes {s : State} {j : Job} {die pb : Nat} (h : (s.takeFrame j die).2 = some pb) : ∃ s1, s.takeFrame j die = (s1, some pb) :=
  ⟨_, Prod.ext rfl h⟩
def quar1 (job : Nat) : Quar := ⟨0, 77, 0, job⟩
theorem witness_WalksServicesAndFrames :
    (∀ e ∈ [2 ^ 63 + leafBits + 2 ^ 16 * 77, leafBits + 2 ^ 56, 0, 2 ^ 62], let s := tabled e;
      s.mem.walks[0]? = some ⟨0, 1, 5, 0⟩ ∧ s.job 1 = some job1 ∧ (s.mem.poison = [] ∧ s.mem.soft = [] ∧ s.mem.bad = [] ∧ s.mem.discarded = []) ∧
      s.mem.marked 1 5 = false ∧ s.mem.oldLeaf 1 5 = none) ∧
    (job1.walk (tabled (2 ^ 63 + leafBits + 2 ^ 16 * 77)).mem 5 = .leaf 12288 0 0xF0000000004D0000 ∧ ptePres 0xF0000000004D0000 = true) ∧
    (job1.walk (tabled (leafBits + 2 ^ 56)).mem 5 = .leaf 12288 0 0x7100000000000000 ∧ ptePres 0x7100000000000000 = false) ∧
    (job1.walk (tabled 0).mem 5 = .nomap ∧ job1.walk (tabled (2 ^ 62)).mem 5 = .malformed) ∧
    ((served 0).mem.services[0]? = some ⟨1, 0, 0, 12288, 0, none, []⟩ ∧ (served 0).job 1 = some job1 ∧
      job1.walk (served 0).mem 0 = .leaf 12288 0 0x7100000000000000 ∧ hwService (served 0) 1 0 0x7100000000000000 = true ∧
      (∃ s1, (served 0).takeFrame job1 0 = (s1, some 99)) ∧ (served 0).noneWait ∧
      (∀ x ∈ (served 0).mem.services, x.job = 1 → x = ⟨1, 0, 0, 12288, 0, none, []⟩)) ∧
    (∀ x ∈ [(0, 1), (15, 527)], let k := (withCtx (fun k => { k with ras := List.replicate x.1 4, depth := x.2 })).regs;
      k.ras.length < 16 ∧ k.ras.length < k.depth ∧ k.depth - k.ras.length - 1 < 512) ∧ s0.mem.sramBad = [] ∧ s0.mem.sramSoft = [] ∧
    (s0.mem.quar = [] ∧ s0.mem.invals = []) ∧
    (∀ x ∈ [(1, true), (2, false)], let s := { s0 with gtick := 1024, mem := { Mem.empty with quar := [quar1 x.1] } };
      s.mem.quar = [quar1 x.1] ∧ s.mem.invals = [] ∧ s.births = [] ∧ (quar1 x.1).stamp < s.mem.qseq + (s.gtick / 1024 - s.mem.qdiv / 1024) ∧
      (s.job x.1).isSome = x.2) ∧
    (let a := 0x240000 * 65536 - 1; let b := blockOf (hbmKey 3 a); 3 ≤ 3 ∧ a < 0x240000 * 65536 ∧
      ({ Mem.empty with bad := [(b, true)] } : Mem).uncorrectable b = true ∧
      ({ Mem.empty with soft := [(b, true)] } : Mem).uncorrectable b = false ∧ ({ Mem.empty with soft := [(b, true)] } : Mem).soft.get false b = true) := by
  refine ⟨by decide +kernel, by decide +kernel, by decide +kernel, by decide +kernel, ⟨by decide +kernel, by decide +kernel, by decide +kernel,
    by decide +kernel, takes (by decide +kernel), ⟨rfl, rfl, rfl, rfl, by decide +kernel⟩, by decide +kernel⟩, by decide +kernel, rfl, rfl, ⟨rfl, rfl⟩, by decide +kernel, by decide +kernel⟩

/-- The page at 0 of a job with MIGTHRESH 3 or its host's migration duty, asked for three times from die 1. -/
def jobM (duty : Word) : Job := { job1 with migthresh := 3, duty := duty }
def counted (duty : Word) : State := { tasked (jobM duty) with mem := { Mem.empty with
  hbm := table (down ++ [(12288, 2 ^ 63 + leafBits + 2 ^ 16 * 77)]), acc := [(4 * 77 + 1, 3)], released := [⟨1, 99, 0, 1⟩] } }
def mig1 : Mig := ⟨1, 0, 12288, 0, 77, 1, 99⟩
def moving : State := { counted 0 with mem := { (counted 0).mem with released := [], migs := [mig1] } }
theorem witness_PagesMigrate :
    (∀ x ∈ [(0, false), (1, true)], let j := jobM (BitVec.ofNat 64 x.1); let s := counted (BitVec.ofNat 64 x.1);
      let e := 0xF0000000004D0000#64; let p := ptePlace 0 e 0;
      s.job j.num = some j ∧ j.walk s.mem 0 = .leaf 12288 0 e ∧ ptePres e = true ∧ j.migthresh ≠ 0 ∧
      j.migthresh ≤ s.mem.acc.get 0 (4 * frameOf p.key + 1) ∧ 1 ≠ p.die ∧ s.mem.marked j.num 0 = false ∧ s.dutyBit j.num 0 = x.2 ∧
      s.pinned (frameOf p.key) 1 = false) ∧
    (∃ s1, (counted 0).takeFrame (jobM 0) 1 = (s1, some 99)) ∧
    (moving.mem.migs.find? (fun x => x.job = mig1.job && x.page = 0 % 2 ^ 57 / 65536 * 65536 && x.toDie = mig1.toDie) = some mig1 ∧
      moving.pinned (frameOf (hbmKey mig1.fromDie (65536 * mig1.fromPb))) 1 = false ∧ moving.cleanHbm ∧ moving.noneWait ∧ Inv moving) ∧
    (∀ h ∈ [[], [(3, true)]], let s := { s0 with gtick := 2 ^ 20, mem := { Mem.empty with acc := [(3, 5)], held := h, pins := [(0, 1)] } };
      s.mem.halved / 2 ^ 20 < s.gtick / 2 ^ 20 ∧ Tbl.wf 0 s.mem.acc ∧ (s.mem.held.get false 3 && s.pinned (3 / 4) 1) = !h.isEmpty) := by
  refine ⟨by decide +kernel, takes (by decide +kernel), ⟨by decide +kernel, by decide +kernel, ⟨rfl, rfl, rfl, rfl⟩, ⟨rfl, rfl, rfl, rfl, by decide +kernel⟩, ?_⟩, by decide +kernel⟩
  unfold Inv; decide +kernel

/-- The COP instruction of registers s1 and s2, and job 1 with vat 2047 in a given state. -/
def cf (fields : BitVec 22 := 0) : CF := ⟨0, 0, 1, 3, 1, 2, fields⟩
def vat1 (st n : Nat) (owner : Nat := 1) : Vat := { Vat.empty with state := st, owner := owner, age := 1000, threshold := 256, chip := List.replicate n 0 }
def jobV : Job := { jobG asked with ntcb := 8 }
def vatted (x : Vat) (l : Tbl Word) : State := { tasked jobV l with vat := { VatUnit.empty with vats := [(2047, x)] } }
/-- Open and closed vats, empty and not, of the job and of another, and operands at both sides of their limits. -/
theorem witness_VatFunctions :
    (∀ x ∈ [(Vat.empty, 1000), (vat1 1 0, 4000000)], let s := vatted x.1 [(1, 2 ^ 22 - 1), (2, BitVec.ofNat 64 (x.2 * 2 ^ 20 + 1))];
      s.clear ∧ s.freshCops ∧ kindOf s.unit.core ≠ .lookup ∧ (s.regs.src 1).toNat < 2 ^ 22 ∧ (s.regs.src 2).toNat < 2 ^ 42 ∧
      ((s.vatAt 2047).state = 0 ∨ (s.vatAt 2047).state = 1 ∧ (s.vatAt 2047).owner = 1) ∧ 1000 ≤ (s.regs.src 2).toNat / 2 ^ 20 ∧
      (s.regs.src 2).toNat / 2 ^ 20 ≤ 4000000 ∧ s.job 1 = some jobV ∧ 1 < jobV.ntcb ∧ (jobV.tcbAt 1).kind = 1) ∧
    (let s := vatted (vat1 1 0) [(1, 7471104 - 32), (2, 2047)];
      (s.regs.src 2).toNat < 2 ^ 11 ∧ (s.regs.src 1).toNat + 32 ≤ spadSize 0 s.regs ∧ (s.regs.src 1).toNat % 32 = 0 ∧
      recReserved (BitVec.ofNat 256 (ofLe (s.self.spadNow.ld (s.regs.src 1).toNat 32))) = false ∧ (s.vatAt 2047).state ≠ 0 ∧
      (s.vatAt 2047).owner = 1 ∧ (s.vatAt 2047).closing = none ∧ (s.vatAt 2047).spill = [] ∧ s.vat.poolFree ≠ 0 ∧ s.mem.sramBad = [] ∧ s.mem.sramSoft = []) ∧
    (∀ n ∈ [0, 1], let s := vatted (vat1 1 n) [(1, 2047)];
      s.clear ∧ s.freshCops ∧ (s.regs.src 1).toNat < 2 ^ 11 ∧ (s.vatAt 2047).owner = 1 ∧ (s.vatAt 2047).state = 1 ∧
      (s.vatAt 2047).total = n ∧ (s.vatAt 2047).forced = [] ∧ (s.vatAt 2047).closing = none ∧ (cf).fields.getLsbD 0 = false) ∧
    (2 ^ 22 ≤ (regs [(1, 2 ^ 22)]).regs.src 1 ∧ 2 ^ 11 ≤ ((regs [(1, 2 ^ 11)]).regs.src 1).toNat) ∧
    (let s := vatted (vat1 1 0 9) [(1, 2047)]; (s.vatAt 2047).state ≠ 0 ∧ (s.vatAt 2047).owner ≠ 1) ∧
    (let s := { vatted (vat1 1 0) [] with unit := { s0.unit with core := 64 } }; s.clear ∧ s.freshCops ∧ kindOf s.unit.core = .lookup) := by
  unfold State.clear State.freshCops; decide +kernel

/-- A vat past its threshold; a pool that is low, at both thresholds; a record and one with a reserved bit for vat 2047. -/
def low (n : Nat) : State := { vatted (vat1 1 n) [] with vat := { VatUnit.empty with vats := [(2047, vat1 1 n)], spilling := true, low := [1] } }
theorem low_free (n : Nat) : (low n).vat.poolFree = 65536 - n := by
  simp [low, VatUnit.poolFree, vat1]
theorem low_victim : victim (low 61441).gtick (fun x => x.state != 0 && !(low 61441).dutyBit x.owner 2) (low 61441).vat.vats =
    some (61441, 2047) := by
  have hd : (low 61441).dutyBit 1 2 = false := by decide +kernel
  have hr : recAge 0 0 < (vat1 1 61441).age := by decide +kernel
  have hm : (vat1 1 61441).movable 0 = 61185 := by
    rw [Vat.movable, show (vat1 1 61441).chip = List.replicate 61441 0 from rfl]
    simp only [List.drop_replicate, List.reverse_replicate, List.takeWhile_replicate]
    rw [if_pos (decide_eq_true hr), List.length_replicate]
  simp only [show (low 61441).vat.vats = [(2047, vat1 1 61441)] from rfl, show (low 61441).gtick = 0 from rfl, victim, hm]
  simp only [show (vat1 1 61441).owner = 1 from rfl, hd, show (vat1 1 61441).state = 1 from rfl,
    show (vat1 1 61441).chip.length = 61441 from by simp only [vat1, List.length_replicate]]
  decide
theorem low_fills (n : Nat) : (low (n + 1)).vat.fills 1 ≠ [] := by
  simp [low, VatUnit.fills, vat1, List.replicate_succ]
def parted (vat : Nat) (bytes : List Byte) : State :=
  { vatted (vat1 1 0) [] with vat := { VatUnit.empty with vats := [(2047, vat1 1 0)], parts := [⟨vat, 1, bytes⟩] } }
/-- A vat with an on-chip record and two spilled ones, in entries of the spill region, its first entry struck or not. -/
def spilledV : Vat := { vat1 1 1 with spill := [0, 1], ent := [16777215, 3] }
def spilt (bad : Bool) (n : Nat) : State :=
  { vatted { spilledV with spill := spilledV.spill.take n, ent := spilledV.ent.take n } [] with
    mem := { Mem.empty with bad := if bad then [(entryBlock 16777215, true)] else [] } }
theorem witness_VatsFireSpillAndRefill :
    (∀ n ∈ [256, 257], let s := vatted (vat1 1 n) []; (firstRank s.gtick s.vat.vats).map (·.2) = some 2047 ∧ s.vat.lastFire = none ∧ s.job (s.vatAt 2047).owner = some jobV ∧ jobV.num = (s.vatAt 2047).owner) ∧
    (∀ n ∈ [256, 257], (vatted (vat1 1 n) []).spillSound (vat1 1 n)) ∧ (spilt false 2).spillSound ((spilt false 2).vatAt 2047) ∧
    (let s := spilt true 1; let x := s.vatAt 2047; x.spill = [0] ∧ x.ent = [16777215] ∧
      min (min (256 - x.chip.length) x.spill.length) (s.vat.poolFree - 4095) = 1 ∧ s.mem.uncorrectable (entryBlock 16777215) = true) ∧
    ((low 61441).vat.spilling = true ∧ (∀ x, (low 61441).vat.lastSpill = some x → x + 64 ≤ (low 61441).gtick) ∧
      (low 61441).vat.orders = [] ∧ (low 61441).vat.poolFree < 4096 ∧ (low 61441).vat.spillFree ≠ 0 ∧
      victim (low 61441).gtick (fun x => x.state != 0 && !(low 61441).dutyBit x.owner 2) (low 61441).vat.vats = some (61441, 2047)) ∧
    ((low 64513).vat.low.contains 1 = true ∧ (low 64513).vat.fills 1 ≠ []) ∧
    (∀ x ∈ [(0, false), (0x80, true)], let s := parted 2047 (List.replicate 7 0 ++ [BitVec.ofNat 8 x.1] ++ List.replicate 24 0);
      let y := s.vatAt 2047;
      ∃ p, s.vat.parts = [p] ∧ p.vat < 2048 ∧ p.bytes.length = 32 ∧ recReserved (BitVec.ofNat 256 (ofLe p.bytes)) = x.2 ∧
        y.state ≠ 0 ∧ y.owner = p.job ∧ y.closing = none ∧ y.spill = [] ∧ s.vat.poolFree ≠ 0) := by
  refine ⟨by decide +kernel, by unfold State.spillSound; decide +kernel, by unfold State.spillSound; decide +kernel, by decide +kernel, ⟨rfl, by simp [low, VatUnit.empty], rfl, by rw [low_free]; decide, by decide +kernel, low_victim⟩,
    ⟨rfl, low_fills 64512⟩, ?_⟩
  · intro x hx
    simp only [List.mem_cons, List.not_mem_nil, or_false] at hx
    rcases hx with rfl | rfl
    · exact ⟨_, rfl, by decide +kernel⟩
    · exact ⟨_, rfl, by decide +kernel⟩

/-- Core 0 opens slot 65535 for its own semaphore 31, puts rank 1 of 2 into it, and opens window 4095 with the FP32 mould. -/
def slot1 (k : Nat) : Slot46 := { Slot46.empty with k := k, owner := 1, len := 4096 }
def slotted (k : Nat) (l : Tbl Word := []) : State :=
  { regs l with mem := tables, comb := { slots := [(65535, slot1 k)], waiting := [], putting := false } }
def windowed (st : Nat) (len : Nat := 4) : State :=
  { withCtx (fun k => { k with sreg := [(1, 4095)], mould := [(3, some 0x10100)],
                               spad := Tbl.putBytes [] 4096 (leBytes 32 (4095 * 2 ^ 64 + 2 ^ 80 + len * 2 ^ 96 + 0x9F * 2 ^ 136 + 2 ^ 160)) }) with
    mem := tables, fab := { Fabric.empty with windows := [(4095, { Window.empty with state := st, job := 1 })] } }
def part1 (mask : BitVec 8) : State :=
  { slotted 2 with comb := { slots := [(65535, { slot1 2 with mask := mask, len := 1 })], waiting := [], putting := false },
                   vat := { VatUnit.empty with parts := [⟨2048, 1, leBytes 16 (65535 * 2 ^ 64 + 2 ^ 80)⟩] } }
theorem read_ok {x : State × JRead} (h : (match x.2 with | .ok _ => true | _ => false) = true) : ∃ l, x.2 = .ok l := by
  split at h
  · rename_i l hl; exact ⟨l, hl⟩
  · cases h
/-- Core 0 puts the last rank of slot 65535: 64 bytes from 0x10000, the row at 0x10100, in a page of which the cache of die 1 holds
the leaf. -/
def lastPut : State :=
  { (regs [(1, 0x10000), (2, 65535 + 2 ^ 16)]).onCore 1 (fun k => { k with job := some 1 }) with
    mem := { Mem.empty with tcache := [⟨1, 1, 0x10000, 0, some leafW, false⟩], hbm := Tbl.putBytes [] 0x70000 (leBytes 4 0x7FC12345) },
    comb := { slots := [(65535, { slot1 2 with mask := 1, row := 0x10100, len := 16, target := some (1, 15),
                                               stage := [(0, List.replicate 16 0x3F800000)] })], waiting := [], putting := false } }
theorem put_span : lastPut.writableSpan 1 1 0x10100 64 := span_of 0x70100 (by decide +kernel)
theorem witness_CombineSlotsAndWindows :
    (let s := slotted 0 [(1, 65535 + 7 * 2 ^ 16 + 31 * 2 ^ 26), (2, 2 ^ 30 - 16384)]; let a := s.regs.src 1; let b := s.regs.src 2;
      s.clear ∧ s.freshCops ∧ kindOf s.unit.core ≠ .lookup ∧ s.comb.waiting = [] ∧ s.comb.putting = false ∧ a.toNat < 2 ^ 43 ∧ b.toNat < 2 ^ 57 ∧
      a.getLsbD 19 = false ∧ s.jobOf (a.toNat / 2 ^ 20 % 2 ^ 6) = some 1 ∧ (s.slotAt (a.toNat % 2 ^ 16)).k = 0 ∧
      (s.jobMapped 1 combReq.die b.toNat (4 * rowLen (a.toNat / 2 ^ 31)) true (spanFuel (4 * rowLen (a.toNat / 2 ^ 31)))).2 = true ∧
      ({ s with mem := Mem.empty }.jobMapped 1 combReq.die b.toNat (4 * rowLen (a.toNat / 2 ^ 31)) true (spanFuel (4 * rowLen (a.toNat / 2 ^ 31)))).2 = false) ∧
    (let s := { slotted 0 with comb := { (slotted 0).comb with putting := true } };
      s.clear ∧ s.freshCops ∧ kindOf s.unit.core ≠ .lookup ∧ s.comb.putting = true) ∧
    (let s := slotted 8 [(1, 0), (2, 7 * 2 ^ 16 + 65535)]; let b := s.regs.src 2; let y := s.slotAt (b.toNat % 2 ^ 16);
      b.toNat < 2 ^ 19 ∧ y.k ≠ 0 ∧ y.owner = 1 ∧ b.toNat / 2 ^ 16 < y.k ∧ y.mask.getLsbD (b.toNat / 2 ^ 16) = false ∧
      (setBit y.mask (b.toNat / 2 ^ 16) true).toNat ≠ 2 ^ y.k - 1) ∧
    (let s := lastPut; let b := s.regs.src 2; let y := s.slotAt 65535; let mask := setBit y.mask 1 true;
      s.clear ∧ s.freshCops ∧ s.comb.waiting = [] ∧ b.toNat < 2 ^ 19 ∧ y.k ≠ 0 ∧ y.owner = 1 ∧ 1 < y.k ∧ y.mask.getLsbD 1 = false ∧
      mask.toNat = 2 ^ y.k - 1 ∧ (s.mem.poison = [] ∧ s.mem.soft = [] ∧ s.mem.bad = [] ∧ s.mem.discarded = []) ∧
      (∀ i < 64, s.mem.marked 1 (0x10000 + i) = false ∧ (s.cachedAt 1 1 (0x10000 + i)).isSome = true) ∧
      (y.target = some (1, 15) ∧ 1 ≠ s.unit.core ∧ s.jobOf 1 = some y.owner ∧ (s.core 1).cgen = y.cgen ∧ s.semOk 1 15 = true ∧ s.semGet 1 15 < 65535)) ∧
    (∃ l, (lastPut.jobRead 1 combReq 7 (some 0) lastPut.regs.ctxid 0x10000 64 (spanFuel 64)).2 = .ok l) ∧ lastPut.writableSpan 1 1 0x10100 64 ∧
    (∃ l, ((part1 0).jobRead 1 combReq 7 none 0 0 4 (spanFuel 4)).2 = .ok l) ∧
    (∀ k ∈ [0, 8], let s := slotted k [(1, 65535)]; (s.regs.src 1).toNat < 2 ^ 16 ∧ (s.slotAt (s.regs.src 1).toNat).k = k ∧
      (s.slotAt (s.regs.src 1).toNat).owner = 1) ∧
    (∀ len ∈ [4, 2 ^ 24], let s := (windowed 0 len).onCtx 0 (fun k => { k with sreg := [(1, 4096)] }); let a := s.regs.src 1;
      let d := WinDesc.of (s.self.spadNow.ld a.toNat 32);
      s.clear ∧ s.freshCops ∧ kindOf s.unit.core = .main ∧ a.toNat + 32 ≤ spadSize s.unit.core s.regs ∧ a.toNat % 32 = 0 ∧
      s.mem.sramBad = [] ∧ s.mem.sramSoft = [] ∧ s.regs.mouldAt (3 % 4) = some 0x10100 ∧ d.zero = true ∧ d.win = 4095 ∧ d.len = len ∧
      (s.windowAt d.win).state = 0 ∧ d.len % 4 = 0 ∧ d.count = 1 ∧ d.timeout ≠ 0 ∧ s.fab.waiting = [] ∧
      (s.jobMapped 1 winCmdReq.die d.result d.len true (spanFuel d.len)).2 = true ∧
      ({ s with mem := Mem.empty }.jobMapped 1 winCmdReq.die d.result d.len true (spanFuel d.len)).2 = false) ∧
    ((Mould.ofImage (leBytes 512 (0x10100 : BitVec 4096).toNat)).map (opMatches 0) = some true) ∧
    (∀ st ∈ [0, 1, 2, 3], let s := windowed st; let w := s.windowAt (s.regs.src 1).toNat;
      (s.regs.src 1).toNat < 2 ^ 12 ∧ w.state = st ∧ w.job = 1 ∧ s.fab.waiting = []) ∧
    (∀ x ∈ [(0, false), (2, true)], let s := part1 (BitVec.ofNat 8 x.1);
      ∃ p, s.vat.parts = [p] ∧ s.comb.waiting = [] ∧ s.comb.putting = false ∧ p.vat = 2048 ∧ p.bytes.length = 16 ∧ (let g := putFields p.bytes; let y := s.slotAt g.2.1;
        g = (0, 65535, 1, false) ∧ y.k ≠ 0 ∧ y.owner = p.job ∧ g.2.2.1 < y.k ∧ y.mask.getLsbD g.2.2.1 = x.2 ∧
        (setBit y.mask g.2.2.1 true).toNat ≠ 2 ^ y.k - 1)) := by
  refine ⟨by unfold State.clear State.freshCops; decide +kernel, by unfold State.clear State.freshCops; decide +kernel, by decide +kernel, by unfold State.clear State.freshCops; decide +kernel, read_ok (by decide +kernel), put_span, read_ok (by decide +kernel), by decide +kernel,
    by unfold State.clear State.freshCops; decide +kernel, by decide +kernel, by decide +kernel, ?_⟩
  intro x hx
  simp only [List.mem_cons, List.not_mem_nil, or_false] at hx
  rcases hx with rfl | rfl
  · exact ⟨_, rfl, by decide +kernel⟩
  · exact ⟨_, rfl, by decide +kernel⟩

/-- A grammar table at 65536 (state 0 takes token 0 of 2 to state 1, state 1 takes none, state 2 is absent), a token table at
131072 (token 0 is "ab"), and entry 4095 of die 0. -/
def textTables : Mem := { Mem.empty with tcache := [page30], hbm := table (root ++
  [(0, 0x4D524D47 + 2 ^ 32 + 2 ^ 48), (8, 3), (16, 2 + 2 ^ 32), (24, 64), (64, 112), (72, 1 + 2 ^ 32), (88, 0), (104, 2 ^ 33), (112, 0), (120, 1)].map
    (fun e => (2 ^ 30 + 65536 + e.1, e.2)) ++
  [(0, 0x4B4F5444 + 2 ^ 32), (8, 1), (16, 64), (24, 80), (64, 2 ^ 33), (80, 0x6261)].map (fun e => (2 ^ 30 + 131072 + e.1, e.2))) }
def entry1 (st : Nat) (str : Byte) : Entry := { Entry.empty with
  bound := true, owner := 1, table := 65536, state := st, strings := [[str]], lens := [0], stopTable := 131072 }
def texted (st : Nat) (str : Byte) (tok : Word) : State :=
  { regs [(1, 4095), (2, tok)] with mem := textTables, text := [(0, { TextUnit.empty with entries := [(4095, entry1 st str)] })] }
def gives {α : Type} (x : State × TRes α) (w : State) (p : α → Bool) : Bool :=
  match x with | (w', .ok v) => p v && decide (w'.cores = w.cores) | _ => false
theorem gives_ok {α : Type} {x : State × TRes α} {w : State} {p : α → Bool} (h : gives x w p = true) :
    ∃ w' v, x = (w', .ok v) ∧ p v = true ∧ w'.cores = w.cores := by
  unfold gives at h
  split at h
  · rename_i w' v; simp only [Bool.and_eq_true, decide_eq_true_eq] at h; exact ⟨w', v, rfl, h.1, h.2⟩
  · cases h
def refuses {α : Type} (x : State × TRes α) (w : State) (r : Nat) : Bool :=
  match x with | (w', .err e) => e = r && decide (w'.cores = w.cores) | _ => false
theorem refuses_err {α : Type} {x : State × TRes α} {w : State} {r : Nat} (h : refuses x w r = true) :
    ∃ w', x = (w', .err r) ∧ w'.cores = w.cores := by
  unfold refuses at h
  split at h
  · rename_i w' e; simp only [Bool.and_eq_true, decide_eq_true_eq] at h; exact ⟨w', by rw [h.1], h.2⟩
  · cases h
def misses {α : Type} (x : State × TRes α) (w : State) : Bool :=
  match x with | (w', .miss _ _) => decide (w'.cores = w.cores) | _ => false
theorem misses_at {α : Type} {x : State × TRes α} {w : State} (h : misses x w = true) :
    ∃ w' t n, x = (w', .miss t n) ∧ w'.cores = w.cores := by
  unfold misses at h
  split at h
  · rename_i w' t n; simp only [decide_eq_true_eq] at h; exact ⟨w', t, n, rfl, h⟩
  · cases h
def adv : Instr := .gradv (cf)
def cop1 : Cop := ⟨0, 31, 4, some 5, [], 0, 0, some (15, true), 0⟩
def landing : State := withSeq (fun q => { q with cops := [cop1], copNext := 1 })
def miss1 : Miss := ⟨{ (texted 2 0x62 0).copCmd (cf) adv with id := 0 }, 65536, 2, none, none⟩
def missing (duty : Word) : State := { landing with
  sched := { Sched.empty with jobs := [(1, some { job1 with duty := duty })] }, text := [(0, { TextUnit.empty with miss := some miss1 })] }
theorem witness_TextCommandsAreAnswered :
    (let s := texted 0 0x62 0; let u := s.text.get TextUnit.empty (dieOf s.unit.core);
      s.clear ∧ s.freshCops ∧ kindOf s.unit.core = .main ∧ u.queue = [] ∧ u.miss = none) ∧
    (let s := texted 0 0x62 0; let w := s.textSent (cf) adv;
      ∃ w' v, gradv (s.copCmd (cf) adv) w = (w', .ok v) ∧ (v != copErr 6) = true ∧ w'.cores = w.cores) ∧
    (let s := texted 0 0x62 1; let w := s.textSent (cf) adv; ∃ w', gradv (s.copCmd (cf) adv) w = (w', .err 7) ∧ w'.cores = w.cores) ∧
    (let s := texted 2 0x62 0; let w := s.textSent (cf) adv; ∃ w' t n, gradv (s.copCmd (cf) adv) w = (w', .miss t n) ∧ w'.cores = w.cores) ∧
    (let s := texted 0 0x62 31; let w := s.textSent (cf 15) (.grmask (cf 15));
      ∃ w' m, grmask (s.copCmd (cf 15) (.grmask (cf 15))) 15 (s.regs.mayWrite s.regs.bank 3 (15 % 16)) w = (w', .ok m) ∧
        decide (m.rows.length = 4) = true ∧ w'.cores = w.cores) ∧
    (landing.comb.waiting = [] ∧ landing.fab.waiting = [] ∧ (∀ d, (landing.text.get TextUnit.empty d).queue = []) ∧
      (landing.core 0).seq.cops[0]? = some cop1 ∧ cop1.answer = some 5 ∧ 5 ≠ copErr 6 ∧ cop1.dst < 32 ∧ cop1.rows = []) ∧
    (∀ x ∈ [(0, false), (32, true)], let s := missing (BitVec.ofNat 64 x.1);
      (s.text.get TextUnit.empty 0).miss = some miss1 ∧ miss1.ok = none ∧ miss1.ev = none ∧ s.dutyBit miss1.cmd.job 5 = x.2 ∧
      (s.text.get TextUnit.empty 0).queue = [] ∧ (s.core miss1.cmd.core).seq.cops.find? (fun y => y.id = miss1.cmd.id) = some cop1 ∧ cop1.dst ≠ 0) := by
  refine ⟨by unfold State.clear State.freshCops; decide +kernel, gives_ok (by decide +kernel), refuses_err (by decide +kernel),
    misses_at (by decide +kernel), gives_ok (by decide +kernel), ⟨rfl, rfl, fun d => rfl, by decide +kernel, rfl, by decide, by decide, rfl⟩,
    by decide +kernel⟩

def same {α : Type} [DecidableEq α] (x : State × TRes α) (w : State) (v : α) : Bool :=
  match x with | (w', .ok u) => decide (u = v) && decide (w' = w) | _ => false
theorem same_ok {α : Type} [DecidableEq α] {x : State × TRes α} {w : State} {v : α} (h : same x w v = true) : x = (w, .ok v) := by
  unfold same at h
  split at h
  · simp only [Bool.and_eq_true, decide_eq_true_eq] at h; rw [h.1, h.2]
  · cases h
def gives1 {α : Type} (x : State × TRes α) (v : α → Bool) : Bool := match x with | (_, .ok u) => v u | _ => false
theorem gives1_ok {α : Type} {x : State × TRes α} {v : α → Bool} (h : gives1 x v = true) : ∃ w' u, x = (w', .ok u) ∧ v u = true := by
  unfold gives1 at h
  split at h
  · rename_i w' u; exact ⟨w', u, rfl, h⟩
  · cases h
/-- Eight bytes at addresses of the job's page. -/
def placed (l : List (Nat × Nat)) : List (Nat × Nat) := l.map (fun e => (2 ^ 30 + e.1, e.2))
/-- Text descriptors at 2048, 2112 and 2176 (token table, merge table, normalisation table; input 2304, output 2560), a merge table of
16 slots (token 0 for every byte but b, token 2; 0 and 0 give 1 at rank 5; a word ends between a and b), and a normalisation table whose
block 0 is identity and whose block 1 has the entries of U+0100 to U+0103 and which composes U+0041 and U+0100. -/
def textMem (kind ntok cap : Nat) : Mem := { Mem.empty with tcache := [page30], hbm := table (placed (
  match kind with
  | 0 => [(131072, 0x4B4F5444 + 2 ^ 32), (131080, 1), (131088, 64), (131096, 80), (131136, 2 ^ 33), (131152, 0x6261),
      (2048, 2304), (2056, ntok + cap * 2 ^ 32), (2064, 2560), (2072, 131072)]
  | 1 => [(2112, 2400), (2120, 3 + cap * 2 ^ 32), (2128, 2560), (2136, 196608), (2400, 0x626161),
      (196608, 0x4752454D + 2 ^ 32), (196616, 4 + 4 * 2 ^ 32), (196624, 64), (196632, 320), (196672, 2 ^ 31), (196680, 5 + 2 ^ 32),
      (196608 + 320 + 4 * 0x62, 2), (196608 + 320 + 1024 + 0x60, 2 ^ 16), (196608 + 320 + 1280, 2)]
  | _ => [(2176, 2400), (2184, 3 + cap * 2 ^ 32), (2192, 2560), (2200, 262144), (2400, 0x626161),
      (262144, 0x4D524F4E + 2 ^ 32), (262152, 1 + 4 * 2 ^ 32), (262160, 64), (262168, 20480), (262176, 24576), (262208, 0xFFFFFFFE + 20 * 2 ^ 32),
      (262144 + 40960, 230 * 2 ^ 56), (262144 + 40968, 3 * 2 ^ 54), (262144 + 40976, 2 ^ 54 + 0x41), (262144 + 40984, 2 ^ 55 + 2 * 2 ^ 48),
      (262144 + 24576, 0x41 + 0x100 * 2 ^ 32), (262144 + 20480 + 16, 2 ^ 31 + 0x41 + 0x100 * 2 ^ 32), (262144 + 20480 + 24, 0x1EA)])) }
def texting (a ntok cap : Nat) : State := { regs [(1, BitVec.ofNat 64 a)] with mem := textMem ((a - 2048) / 64) ntok cap }
def cmdT (a : Nat) : UnitCmd := (texting a 2 3).copCmd (cf) (.txdec (cf))
def mergeT : MergeTab := ⟨196608, 4, 4, 64, (List.range 1312).map (fun i => if i = 392 ∨ i = 1280 then 2 else if i = 1122 then 1 else 0)⟩
/-- A merge table of one slot, of which every key finds the entry or none. -/
def merge0 : MergeTab := { mergeT with s := 0 }
def entry0 : List Byte := (textMem 1 2 3).rd (2 ^ 30 + 196672) 16
def find0 (x y : Nat) : Option (List Byte) := if num entry0 0 4 % 2 ^ 18 = x && num entry0 4 4 = y then some entry0 else none
theorem finds0 : ∀ x y, hashFind (cmdT 2112) (merge0.base + merge0.hash) merge0.s 18 x y (texting 2112 2 3) = (texting 2112 2 3, .ok (find0 x y)) := by
  intro x y
  have hr : tmRead (cmdT 2112) (merge0.base + merge0.hash + 16 * 0) 16 (texting 2112 2 3) = (texting 2112 2 3, .ok entry0) := same_ok (by decide +kernel)
  have hv : ¬num entry0 0 4 < 2 ^ 31 := by decide +kernel
  have hh : hashHome x y merge0.s = 0 := by
    simp only [hashHome, show merge0.s = 0 from rfl, Nat.sub_zero]
    exact Nat.div_eq_of_lt (Nat.mod_lt _ (by decide))
  rw [hashFind, hh, show (2 : Nat) ^ merge0.s = 0 + 1 from rfl]
  simp only [hashProbe, tmBind, hr, hv, if_false, find0]
  split <;> rfl
def normT : NormTab := ⟨262144, true, 4, 64, 20480, 24576⟩
def entryC : List Byte := (textMem 2 2 3).rd (2 ^ 30 + 262144 + 20496) 16
theorem witness_TextResults_decoded :
    (∀ y ∈ [(2, 3, 1), (2, 4, 2)], let w := texting 2048 y.1 y.2.1; let d := cmdT 2048; let x : TextDesc := ⟨2304, y.1, y.2.1, 2560, 131072⟩;
      let t : TokTab := ⟨131072, 1, 64, 80⟩; let upto := fun n => (List.range n).flatMap (fun _ => [(0x61 : Byte), 0x62]);
      same (textDesc d w) w x && same (tokTab d x.table w) w t && same (tmRead d x.inp 8 w) w (List.replicate 8 0) &&
      same (tokBytes d t 0 w) w [0x61, 0x62] && same (tableRegion d t.base t.eoff (8 * t.vocab) w) w () && (upto y.2.2).length ≤ x.cap &&
      (y.2.2 = x.inLen || x.cap < (upto (y.2.2 + 1)).length) && gives1 (tmWrite d x.out (upto y.2.2) w) (fun _ => true)) := by decide +kernel
theorem witness_TextResults_refused_token :
    (let w := { texting 2048 1 3 with mem := { textMem 0 1 3 with hbm := Tbl.putBytes (textMem 0 1 3).hbm (2 ^ 30 + 2304) [1] } }; let d := cmdT 2048;
      same (textDesc d w) w ⟨2304, 1, 3, 2560, 131072⟩ && same (tmRead d 2304 4 w) w [1, 0, 0, 0]) := by decide +kernel
theorem witness_TextResults_finds :
    (∀ x y, hashFind (cmdT 2112) (merge0.base + merge0.hash) merge0.s 18 x y (texting 2112 2 3) = (texting 2112 2 3, .ok (find0 x y))) := finds0
theorem witness_TextResults_merges0 :
    ((∀ x ∈ ([0x61, 0x61, 0x62] : List Byte).map (fun c => num merge0.bmap (4 * c.toNat) 4), x < merge0.vocab) ∧
      (∀ x y e, find0 x y = some e → num e 12 4 < merge0.vocab) ∧ find0 0 0 = some entry0) := by
  refine ⟨by decide +kernel, fun x y e h => ?_, by decide +kernel⟩
  unfold find0 at h
  split at h
  · rw [← Option.some.inj h]; decide +kernel
  · cases h
theorem witness_TextResults_probed :
    (∀ i < 16, ∃ e, tmRead (cmdT 2112) (196672 + 16 * i) 16 (texting 2112 2 3) = (texting 2112 2 3, .ok e)) := by
  have h : ∀ i < 16, same (tmRead (cmdT 2112) (196672 + 16 * i) 16 (texting 2112 2 3)) (texting 2112 2 3)
      ((textMem 1 2 3).rd (2 ^ 30 + 196672 + 16 * i) 16) = true := by decide +kernel
  exact fun i hi => ⟨_, same_ok (h i hi)⟩
theorem witness_TextResults_probes :
    (let e := fun i => (textMem 1 2 3).rd (2 ^ 30 + 196672 + 16 * i) 16; 2 ^ 31 ≤ num (e 0) 0 4 ∧ num (e 0) 0 4 % 2 ^ 18 = 0 ∧ num (e 0) 4 4 = 0 ∧
      ¬2 ^ 31 ≤ num (e 1) 0 4) := by decide +kernel
theorem witness_TextResults_encoded :
    (∀ y ∈ [(1, 1), (2, 2)], let w := texting 2112 2 y.1; let d := cmdT 2112; let x : TextDesc := ⟨2400, 3, y.1, 2560, 196608⟩;
      Machine.wordsOf mergeT 0 [] [0x61, 0x61, 0x62] = [(0, [0x61, 0x61]), (2, [0x62])] ∧
      (same (textDesc d w) w x && same (mergeTab d x.table w) w mergeT && same (tmRead d x.inp 3 w) w [0x61, 0x61, 0x62] &&
      same (encWord d mergeT [0x61, 0x61] w) w [1] && same (encWord d mergeT [0x62] w) w [2] &&
      gives1 (tmWrite d x.out (([1, 2].take y.2).flatMap (leBytes 4)) w) (fun _ => true)) = true) := by decide +kernel
theorem witness_TextResults_mapped :
    (let w := texting 2176 2 3; let d := cmdT 2176;
      same (normEntry d normT 0x41 w) w none && same (normEntry d normT 0x100 w) w (some (230 * 2 ^ 56)) &&
      same (normEntry d normT 0x101 w) w (some (3 * 2 ^ 54)) && same (normEntry d normT 0x102 w) w (some (2 ^ 54 + 0x41)) &&
      same (normEntry d normT 0x103 w) w (some (2 ^ 55 + 2 * 2 ^ 48)) && same (normClass d normT 0x41 w) w (0x41, 0) &&
      same (tmNum d (normT.base + normT.pool) 4 w) w 0x41 && same (tmNum d (normT.base + normT.pool + 4) 4 w) w 0x100 &&
      same (normClass d normT 0x100 w) w (0x100, 230)) := by decide +kernel
theorem witness_TextResults_composed :
    (let w := texting 2176 2 3; let d := cmdT 2176;
      same (hashFind d (normT.base + normT.ch) normT.cs 21 0x41 0x100 w) w (some entryC) && decide (num entryC 8 4 = 0x1EA) &&
      same (hashFind d (normT.base + normT.ch) normT.cs 21 0x41 0x42 w) w none && same (hashFind d (normT.base + normT.ch) normT.cs 21 0x1EA 0x42 w) w none) := by decide +kernel
theorem witness_TextResults_normalised :
    (∀ y ∈ [(2, 2), (3, 3)], let w := texting 2176 2 y.1; let d := cmdT 2176; let x : TextDesc := ⟨2400, 3, y.1, 2560, 262144⟩;
      utf8Decode [0x61, 0x61, 0x62] 0 0 = [(0, 0x61), (1, 0x61), (2, 0x62)] ∧
      (same (textDesc d w) w x && same (normTab d x.table w) w normT && same (tmRead d x.inp 3 w) w [0x61, 0x61, 0x62] &&
      same (normEntry d normT 0x61 w) w none && same (normEntry d normT 0x62 w) w none &&
      gives1 (tmWrite d x.out (([0x61, 0x61, 0x62] : List Byte).take y.2) w) (fun _ => true)) = true) := by decide +kernel
def grammar1 : GramTab := ⟨65536, true, false, 3, 0, 2, 1, 64⟩
def trans1 : Trans := ⟨0, 0, 1, 0, 0, 0⟩
def tokens1 : TokTab := ⟨131072, 1, 64, 80⟩
/-- Stop blocks at 4096: none, sixteen strings of one byte, seventeen, and one of length 0. -/
def stopStrings : Nat → List Byte
  | 0 => []
  | n + 1 => 1 :: 0x61 :: (List.replicate 62 0 ++ stopStrings n)
def stopBlock (y : Nat) : List Byte :=
  leBytes 8 131072 ++ ([if y = 0 then 0 else if y = 1 then 16 else if y = 2 then 17 else 1] ++ (List.replicate 55 0 ++
    (if y = 1 then stopStrings 16 else List.replicate 1024 0)))
def stopping (y : Nat) : State :=
  let bytes := (stopBlock y).zipIdx.filterMap (fun e => if e.1 = 0 then none else some (2 ^ 30 + 4096 + e.2, e.1))
  { texted 0 0x62 4096 with mem := { Mem.empty with tcache := [page30], hbm := bytes } }
/-- After each string of a block there is nothing but zeros. -/
def chunks : Nat → List Byte → Bool
  | 0, _ => true
  | n + 1, [] => chunks n []
  | n + 1, k :: r => ((r.take 63).drop k.toNat).all (· == 0) && chunks n (r.drop 63)
theorem chunks_zero (n : Nat) (l : List Byte) (h : chunks n l = true) (s i : Nat) (hs : s < n) (hk : (l.getD (64 * s) 0).toNat ≤ i) (hi : i < 63) :
    l.getD (64 * s + 1 + i) 0 = 0 := by
  induction n generalizing l s with
  | zero => omega
  | succ n ih =>
    match l with
    | [] => simp
    | k :: r =>
      simp only [chunks, Bool.and_eq_true, List.all_eq_true, beq_iff_eq] at h
      cases s with
      | zero =>
        simp only [Nat.mul_zero, List.getD_cons_zero] at hk
        rw [show 64 * 0 + 1 + i = i + 1 by omega, List.getD_cons_succ, List.getD_eq_getElem?_getD]
        by_cases hl : i < r.length
        · have hm : r[i] ∈ (r.take 63).drop k.toNat := by
            rw [List.mem_iff_getElem]
            refine ⟨i - k.toNat, by simp only [List.length_drop, List.length_take]; omega, ?_⟩
            simp only [List.getElem_drop, List.getElem_take]
            congr 1; omega
          rw [List.getElem?_eq_getElem hl]
          exact h.1 _ hm
        · rw [List.getElem?_eq_none (by omega)]; rfl
      | succ s =>
        have hd : ∀ j, (r.drop 63).getD j 0 = (k :: r).getD (64 + j) 0 := fun j => by
          simp only [List.getD_eq_getElem?_getD, List.getElem?_drop, show 64 + j = (63 + j) + 1 by omega, List.getElem?_cons_succ]
        have := ih (r.drop 63) h.2 s (by omega) (by rw [hd, show 64 + 64 * s = 64 * (s + 1) by omega]; exact hk)
        rw [hd] at this
        rw [show 64 * (s + 1) + 1 + i = 64 + (64 * s + 1 + i) by omega]
        exact this
theorem stop_zero (y : Nat) (h : y < 4) : ∀ s < min ((stopBlock y).getD 8 0).toNat 16, ∀ i, ((stopBlock y).getD (64 + 64 * s) 0).toNat ≤ i → i < 63 →
    (stopBlock y).getD (65 + 64 * s + i) 0 = 0 := by
  have hc : ∀ y < 4, chunks 16 ((stopBlock y).drop 64) = true := by decide +kernel
  intro s hs i hk hi
  have hd : ∀ j, ((stopBlock y).drop 64).getD j 0 = (stopBlock y).getD (64 + j) 0 := fun j => by
    simp only [List.getD_eq_getElem?_getD, List.getElem?_drop]
  have := chunks_zero 16 _ (hc y h) s i (by omega) (by rw [hd]; exact hk) hi
  rw [hd] at this
  rw [show 65 + 64 * s + i = 64 + (64 * s + 1 + i) by omega]
  exact this
theorem witness_GrammarsStepAndStringsStop_set :
    (∀ y ∈ [0, 1, 2, 3], let w := stopping y; let d := w.copCmd (cf) adv; let l := stopBlock y;
      (same (tmRead d d.b.toNat 1088 w) w l && decide (l.length = 1088) && decide (num l 0 8 < 2 ^ 57) &&
        ((l.take 64).drop 9).all (· == 0) && decide (d.b.toNat % 64 = 0)) = true) ∧
    (∀ y < 4, ∀ s < min ((stopBlock y).getD 8 0).toNat 16, ∀ i, ((stopBlock y).getD (64 + 64 * s) 0).toNat ≤ i → i < 63 →
      (stopBlock y).getD (65 + 64 * s + i) 0 = 0) ∧
    ([0, 1, 2, 3].map (fun y => ((stopBlock y).getD 8 0, (stopBlock y).getD 64 0)) = [(0, 0), (16, 1), (17, 0), (1, 0)]) ∧
    (∀ s < 16, (stopBlock 1).getD (64 + 64 * s) 0 = 1) := ⟨by decide +kernel, stop_zero, by decide +kernel, by decide +kernel⟩
theorem witness_GrammarsStepAndStringsStop :
    (let w := texted 0 0x62 0; let d := w.copCmd (cf) adv; let e := w.entryAt (dieOf d.core) (d.a.toNat % 2 ^ 12);
      d.a.toNat < 2 ^ 12 ∧ e.bound = true ∧ e.owner = d.job ∧ e.table ≠ 0 ∧ e.dead = false ∧
      gramTab d e.table w = (w, .ok grammar1) ∧ gramState d grammar1 e.state w = (w, .ok (true, [trans1])) ∧ d.b.toNat < 2 ^ 18 ∧
      matchTok [trans1] e.stack d.b.toNat = some trans1 ∧ trans1.applies e.stack = true ∧
      gramState d grammar1 trans1.next w = (w, .ok (false, [])) ∧ matchTok [trans1] e.stack (2 ^ 18 - 1) = none) ∧
    (let w := texted 0 0x62 31; let d := w.copCmd (cf) adv; d.b.toNat < 2 ^ 10 ∧ d.b.toNat % 32 + (d.b.toNat / 32 + 1) ≤ 32 ∧
      4 * (d.b.toNat / 32 + 1) ≤ d.rows ∧ grammar1.fin < 2 ^ 20) ∧
    (let w := texted 0 0x62 0; let d := w.copCmd (cf) adv; let e := w.entryAt (dieOf d.core) (d.a.toNat % 2 ^ 12);
      d.b.toNat < tokens1.vocab ∧ e.stopped = false ∧ tokTab d e.stopTable w = (w, .ok tokens1) ∧
      tokBytes d tokens1 d.b.toNat w = (w, .ok [0x61, 0x62]) ∧ (stopScan e.strings 0 e.lens [0x61, 0x62]).2 = some (1, 0)) ∧
    ((stopScan (entry1 0 0x63).strings 0 (entry1 0 0x63).lens [0x61, 0x62]).2 = none) ∧
    (∀ y ∈ [(0, 0), (1, 4096), (1, 4097)], let w := texted 0 0x62 (BitVec.ofNat 64 y.2); let d := w.copCmd (cf) adv;
      let e := w.entryAt (dieOf d.core) (d.a.toNat % 2 ^ 12);
      d.a.toNat < 2 ^ 12 ∧ e.bound = true ∧ e.owner = d.job ∧ (d.b = 0 ↔ y.1 = 0) ∧ d.b.toNat < 2 ^ 57 ∧ e.stack.length ≤ 64 ∧
      e.stack.headD 0 < 2 ^ 16 ∧ e.state < 2 ^ 20) ∧
    (let w := texted 0 0x62 65536; let d := w.copCmd (cf) adv; gramTab d d.b.toNat w = (w, .ok grammar1) ∧
      gramState d grammar1 grammar1.start w = (w, .ok (true, [trans1])) ∧ { d with job := 9 }.b.toNat < 2 ^ 57 ∧
      (w.entryAt 0 4095).owner ≠ { d with job := 9 }.job) ∧
    (∀ c ∈ [0, 0x7F, 0x80, 0xD7FF, 0xE000, 0x10FFFF], c < 0x110000 ∧ (c < 0xD800 ∨ 0xE000 ≤ c)) := by
  refine ⟨⟨by decide +kernel, by decide +kernel, by decide +kernel, by decide +kernel, by decide +kernel, ?_, ?_, by decide +kernel,
    by decide +kernel, by decide +kernel, ?_, by decide +kernel⟩, by decide +kernel, ⟨by decide +kernel, by decide +kernel, ?_, ?_, by decide +kernel⟩,
    by decide +kernel, by decide +kernel, ⟨?_, ?_, by decide +kernel, by decide +kernel⟩, by decide +kernel⟩
  all_goals exact same_ok (by decide +kernel)

/-! The clock unit: this module and the modules 5000 and 6000, which are no number of it. -/
theorem own_lt : ownModule < 5000 := by
  have : ownModule < 2 ^ 12 := Config.moduleNumber.isLt
  omega
theorem own_ne : ownModule ≠ 5000 ∧ ownModule ≠ 6000 ∧ 5000 ≠ ownModule ∧ 6000 ≠ ownModule := by
  have := own_lt; omega
def own1 : Member := { Member.empty with present := true, ceil := 36 }
def peer1 : Member := { Member.empty with present := true, ceil := 20, seq := some 4 }
def cop5 : Cop := ⟨3, 5, 4, none, [], 0, 0, none, 0⟩
/-- Core 128 of a module whose clock unit holds some members, at tick 10,000,000. -/
def clockS (l : Tbl Member) (f : Clock → Clock := id) (v : Word := 0) (duty : Byte := 16) : State :=
  let s := (State.reset.onCtx 128 (fun k => { k with sreg := [(1, v)] })).onSeq 128 (fun q => { q with copNext := 4, cops := [cop5] })
  { s with unit := { s.unit with core := 128 }, gtick := 10000000, host := { s.host with hkduty := duty },
           fab := { Fabric.empty with groupKey := some 7 }, clk := f { Clock.reset with members := l } }
def trio (a b c : Member) : Tbl Member := [(ownModule, a), (5000, b), (6000, c)]
theorem wf_trio {a b c : Member} (h : a ≠ Member.empty ∧ b ≠ Member.empty ∧ c ≠ Member.empty) : (trio a b c).wf Member.empty := by
  refine ⟨?_, by simp [trio, h]⟩
  have := own_lt
  simp only [trio, List.pairwise_cons, List.mem_cons, List.not_mem_nil, or_false, forall_eq_or_imp, forall_eq, List.Pairwise.nil]
  refine ⟨⟨by omega, by omega⟩, by decide, ?_⟩
  simp
theorem wf_own {a : Member} (h : a ≠ Member.empty) : Tbl.wf Member.empty [(ownModule, a)] := by simp [Tbl.wf, h]
theorem mem_own (k : Clock) (a : Member) (r : Tbl Member) (h : k.members = (ownModule, a) :: r) : k.mem ownModule = a := by
  simp [Clock.mem, h, Tbl.get]
theorem mem_peer (k : Clock) (a b c : Member) (h : k.members = trio a b c) : k.mem 5000 = b := by
  simp [Clock.mem, h, trio, Tbl.get, own_ne]
theorem mem_third (k : Clock) (a b c : Member) (h : k.members = trio a b c) : k.mem 6000 = c := by
  simp [Clock.mem, h, trio, Tbl.get, own_ne]
theorem no_mem (k : Clock) (h : k.members = []) : k.mem ownModule = Member.empty := by simp [Clock.mem, h, Tbl.get]
/-- The rounds of a module that is a member are at rest: none is open, or one that another member has still to confirm, or that a
pending ceiling of its own holds. -/
theorem rest_of {c : Clock} {a : Member} {r : Tbl Member} (hm : c.members = (ownModule, a) :: r) (he : ∀ e ∈ (ownModule, a) :: r, e.2.evictBy = none ∨ e.2.present = false ∧ e.2.evictBy = some 5000)
    (hr : c.round = none ∨ ∃ x, c.round = some x ∧ ((∃ m ∈ c.present, m ≠ ownModule ∧ x.confirmed.contains m = false) ∨ (x.kind ≠ 1 ∧ a.pending.isSome = true)))
    (hi : c.rise = none ∨ c.round.isSome = true ∨ a.pending.isSome = true) (hl : c.leaving = none ∨ c.round.isSome = true ∨ a.leaveAt.isSome = true) :
    c.atRest = true := by
  have ho : c.own = a := mem_own c a r hm
  have h1 : (match c.round with | some r => !(c.allConfirmed r && (r.kind = 1 || c.own.pending.isNone)) | none => true) = true := by
    rcases hr with h | ⟨x, hx, ⟨m, hp, hn, hc⟩ | ⟨hk, ha⟩⟩
    · rw [h]
    · rw [hx]
      have hall : c.allConfirmed x = false := by
        simp only [Clock.allConfirmed, List.all_eq_false]
        exact ⟨m, hp, by simpa [hn] using hc⟩
      simp [hall]
    · rw [hx, ho]
      have : a.pending.isNone = false := by cases h : a.pending with | none => rw [h] at ha; cases ha | some _ => rfl
      simp [this, hk]
  have h2 : (c.rise.isNone || !c.calm) = true := by
    rcases hi with h | h | h
    · simp [h]
    · have : c.round.isNone = false := by cases hx : c.round with | none => rw [hx] at h; cases h | some _ => rfl
      simp [Clock.calm, this]
    · have : a.pending.isNone = false := by cases hx : a.pending with | none => rw [hx] at h; cases h | some _ => rfl
      simp [Clock.calm, ho, this]
  have h3 : (!(c.calm && c.members.any (fun e => e.2.evictBy = some ownModule && e.2.goneAt.isNone))) = true := by
    have : c.members.any (fun e => e.2.evictBy = some ownModule && e.2.goneAt.isNone) = false := by
      rw [List.any_eq_false, hm]
      intro e hx
      rcases he e hx with h | ⟨-, h⟩ <;> simp [h, own_ne]
    simp [this]
  have h4 : (c.leaving.isNone || c.round.isSome || c.own.leaveAt.isSome) = true := by
    rcases hl with h | h | h
    · simp [h]
    · simp [h]
    · simp [ho, h]
  exact Bool.and_eq_true_iff.mpr ⟨Bool.and_eq_true_iff.mpr ⟨Bool.and_eq_true_iff.mpr ⟨h1, h2⟩, h3⟩, h4⟩
theorem settled_of {s : State} {a : Member} {r : Tbl Member} (hm : s.clk.members = (ownModule, a) :: r)
    (hs : ∀ e ∈ (ownModule, a) :: r, e.2.settle s.gtick = e.2) (he : ∀ e ∈ (ownModule, a) :: r, e.2.evictBy = none ∨ e.2.present = false ∧ e.2.evictBy = some 5000)
    (hw : Tbl.wf Member.empty s.clk.members) (hb : s.host.clockBusy = []) (hc : ∀ e ∈ s.fab.links, e.2.col = [])
    (ha : s.clk.atRest = true) : s.settled := by
  refine ⟨?_, fun _ => ha, hw, fun e h hp => (he e (hm ▸ h)).resolve_right (fun hx => by rw [hp] at hx; cases hx.1), hb, fun e h m hx => (by rw [hc e h] at hx; cases hx)⟩
  have h1 : s.clk.members.map (fun e => (e.1, e.2.settle s.gtick)) = s.clk.members := by
    rw [hm]; exact (List.map_congr_left (fun e he => by rw [hs e he])).trans (List.map_id' _)
  rw [h1, List.filter_eq_self.mpr]
  intro e he; simpa using hw.2 e he
theorem settled_none {s : State} (hm : s.clk.members = []) (hb : s.host.clockBusy = []) (hc : ∀ e ∈ s.fab.links, e.2.col = [] := by intro e he; cases he) : s.settled := by
  have h2 : s.clk.isMember = false := by rw [Clock.isMember, no_mem _ hm]; rfl
  refine ⟨by rw [hm]; rfl, fun h => (by rw [h2] at h; cases h), by rw [hm]; exact ⟨List.Pairwise.nil, by simp⟩, by simp [hm], hb,
    fun e h m hx => (by rw [hc e h] at hx; cases hx)⟩
/-- The clock unit in step, with three members, and the state before a join. -/
def grouped (a b c : Member) (f : Clock → Clock := id) (v : Word := 0) (duty : Byte := 16) : State := clockS (trio a b c) f v duty
def lone (f : Clock → Clock := id) (v : Word := 0) : State := clockS [] f v
def third1 : Member := { Member.empty with present := true, ceil := 30 }
theorem grouped_settled {a b c : Member} {f : Clock → Clock} {v : Word} {duty : Byte} (hm : (f { Clock.reset with members := trio a b c }).members = trio a b c)
    (h : a.settle 10000000 = a ∧ b.settle 10000000 = b ∧ c.settle 10000000 = c ∧ a ≠ Member.empty ∧ b ≠ Member.empty ∧ c ≠ Member.empty)
    (he : a.evictBy = none ∧ b.evictBy = none ∧ (c.evictBy = none ∨ c.present = false ∧ c.evictBy = some 5000))
    (hr : let k := f { Clock.reset with members := trio a b c }
      k.round = none ∨ ∃ x, k.round = some x ∧ ((∃ m ∈ k.present, m ≠ ownModule ∧ x.confirmed.contains m = false) ∨ (x.kind ≠ 1 ∧ a.pending.isSome = true))
      := by exact Or.inl rfl)
    (hi : let k := f { Clock.reset with members := trio a b c }; k.rise = none ∨ k.round.isSome = true ∨ a.pending.isSome = true := by exact Or.inl rfl)
    (hl : let k := f { Clock.reset with members := trio a b c }; k.leaving = none ∨ k.round.isSome = true ∨ a.leaveAt.isSome = true := by exact Or.inl rfl) :
    (grouped a b c f v duty).settled := by
  have he' : ∀ e ∈ (ownModule, a) :: [(5000, b), (6000, c)], e.2.evictBy = none ∨ e.2.present = false ∧ e.2.evictBy = some 5000 := by
    intro e hx
    simp only [List.mem_cons, List.not_mem_nil, or_false] at hx
    rcases hx with rfl | rfl | rfl
    · exact Or.inl he.1
    · exact Or.inl he.2.1
    · exact he.2.2
  refine settled_of (a := a) (r := [(5000, b), (6000, c)]) hm ?_ he' ?_ rfl (by intro e he; cases he) (rest_of hm he' hr hi hl)
  · intro e he
    simp only [List.mem_cons, List.not_mem_nil, or_false] at he
    rcases he with rfl | rfl | rfl
    · exact h.1
    · exact h.2.1
    · exact h.2.2.1
  · rw [show (grouped a b c f v duty).clk.members = trio a b c from hm]; exact wf_trio h.2.2.2
/-- Of three members one is still to confirm a round. -/
theorem waits_for {k : Clock} {a b c : Member} {x : Round} (hm : k.members = trio a b c) (hx : k.round = some x) (hb : b.present = true)
    (hc : x.confirmed.contains 5000 = false) :
    k.round = none ∨ ∃ x, k.round = some x ∧ ((∃ m ∈ k.present, m ≠ ownModule ∧ x.confirmed.contains m = false) ∨ (x.kind ≠ 1 ∧ a.pending.isSome = true)) := by
  refine Or.inr ⟨x, hx, Or.inl ⟨5000, ?_, own_ne.2.2.1, hc⟩⟩
  simp [Clock.present, hm, trio, hb]
theorem other_module : ∃ v, v < 4096 ∧ v ≠ ownModule := by
  by_cases h : ownModule = 0
  · exact ⟨1, by decide, by rw [h]; decide⟩
  · exact ⟨0, by decide, fun e => h e.symm⟩
def cmd128 : UnitCmd := (clockS []).copCmd (cf) (.cljoin (cf))
def round1 (confirmed : List Nat) : Round := ⟨0, 20, confirmed, 0, 0, [{ cmd128 with id := 3 }]⟩
theorem grouped_in (a b c : Member) (f : Clock → Clock) (hm : (f { Clock.reset with members := trio a b c }).members = trio a b c)
    (h : a.present = true) : (grouped a b c f).clk.isMember = true := by
  exact (congrArg Member.present (mem_own (grouped a b c f).clk a _ hm)).trans h
def rising1 : Clock → Clock := fun k => { k with local_ := 10, clceil := 10, rise := some [{ cmd128 with id := 3 }], round := some (round1 [] |> fun r => { r with kind := 1 }) }
theorem witness_ClockFunctions :
    (s0.clear ∧ s0.freshCops ∧ s0.self.seq.copNext ≠ clockId ∧ kindOf s0.unit.core ≠ .house) ∧
    (∀ v ∈ [2, 4096, 0, 1, 4095, 37, 63, 64, 36, 10050000], let s := lone id (BitVec.ofNat 64 v);
      s.clear ∧ s.freshCops ∧ s.self.seq.copNext ≠ clockId ∧ (s.regs.src 1).toNat = v ∧ kindOf s.unit.core = .house) ∧
    (∀ v, (lone id v).settled) ∧
    ((grouped own1 peer1 third1).clk.isMember = true ∧ (grouped own1 peer1 third1).settled) ∧
    ((lone id (BitVec.ofNat 64 ownModule)).regs.src 1).toNat = ownModule ∧ (lone).clk.isMember = false ∧ (lone).clk.joining = none ∧
    (∃ v, v < 4096 ∧ v ≠ ownModule) ∧ (lone).fab.groupKey = some 7 ∧
    ((grouped own1 peer1 third1).clk.leaving = none ∧ (grouped own1 peer1 third1).clk.round = none ∧
      (grouped own1 peer1 third1).gtick + 50000 ≤ 10050000 ∧ (grouped own1 peer1 third1).clk.present = [ownModule, 5000, 6000] ∧
      (clockS [(ownModule, own1)]).clk.present = [ownModule]) ∧
    ((grouped own1 peer1 third1).host.hkduty.getLsbD 4 = true ∧ (grouped own1 peer1 third1 id 0 0).host.hkduty.getLsbD 4 = false) ∧
    (∀ x ∈ [36, 35], min (grouped own1 peer1 third1).clk.prot x ≤ (grouped own1 peer1 third1).clk.local_) ∧
    (let s := grouped own1 peer1 third1 (fun k => { k with local_ := 10, clceil := 10 });
      s.settled ∧ s.clk.isMember = true ∧ s.clk.round = none ∧ s.clk.rise = none ∧ s.clk.local_ < min s.clk.prot 11 ∧ (s.clk.mem ownModule).pending = none) ∧
    (let s := grouped { own1 with pending := some (10, 10000001) } peer1 third1 (fun k => { k with local_ := 10, clceil := 10 });
      s.settled ∧ s.clk.isMember = true ∧ s.clk.round = none ∧ s.clk.local_ < min s.clk.prot 11 ∧ (s.clk.mem ownModule).pending ≠ none) ∧
    (∀ kind ∈ [0, 1, 2], let r := { round1 [] with kind := kind }; let s := grouped own1 peer1 third1 (fun k => { k with round := some r, local_ := 10 });
      s.settled ∧ s.clk.isMember = true ∧ s.clk.round = some r ∧ r.kind = kind ∧ s.clk.rise = none ∧ s.clk.leaving = none ∧
      min s.clk.prot 10 = s.clk.local_ ∧ s.clk.local_ < min s.clk.prot 11 ∧ min s.clk.prot 9 < s.clk.local_) ∧
    (let s := grouped own1 peer1 third1 rising1;
      s.settled ∧ s.clk.isMember = true ∧ min s.clk.prot 10 = s.clk.local_ ∧ s.clk.rise = some [{ cmd128 with id := 3 }] ∧
      (∃ r, s.clk.round = some r ∧ r.kind = 1)) ∧
    (own1.counts 5 = true ∧ own1.fallen = false) := by
  have hp : ∀ (k : Clock) (r : Round), k.members = trio own1 peer1 third1 → k.round = some r → r.confirmed = [] →
      k.round = none ∨ ∃ x, k.round = some x ∧ ((∃ m ∈ k.present, m ≠ ownModule ∧ x.confirmed.contains m = false) ∨ (x.kind ≠ 1 ∧ own1.pending.isSome = true)) :=
    fun k r hm hx hc => waits_for (x := r) hm hx rfl (by rw [hc]; rfl)
  refine ⟨⟨⟨rfl, rfl⟩, by unfold State.freshCops; decide +kernel, by decide +kernel, by decide +kernel⟩, by unfold State.clear State.freshCops; decide +kernel,
    fun v => settled_none rfl rfl, ⟨?_, grouped_settled rfl (by decide +kernel) ⟨rfl, rfl, Or.inl rfl⟩⟩, ?_, ?_, rfl, other_module, rfl, ⟨rfl, rfl, by decide, rfl, rfl⟩,
    ⟨rfl, rfl⟩, by decide +kernel, ⟨grouped_settled rfl (by decide +kernel) ⟨rfl, rfl, Or.inl rfl⟩, ?_, rfl, rfl, by decide +kernel, ?_⟩,
    ⟨grouped_settled rfl (by decide +kernel) ⟨rfl, rfl, Or.inl rfl⟩, ?_, rfl, by decide +kernel, ?_⟩, ?_,
    ⟨grouped_settled rfl (by decide +kernel) ⟨rfl, rfl, Or.inl rfl⟩ (hp _ _ rfl rfl rfl) (Or.inr (Or.inl rfl)), grouped_in _ _ _ _ rfl rfl, by decide +kernel, rfl, _, rfl, rfl⟩,
    rfl, rfl⟩
  · rw [Clock.isMember, mem_own _ own1 _ rfl]; rfl
  · show (BitVec.ofNat 64 ownModule).toNat = ownModule
    rw [BitVec.toNat_ofNat]; have := own_lt; exact Nat.mod_eq_of_lt (by omega)
  · rw [Clock.isMember, no_mem _ rfl]; rfl
  · rw [Clock.isMember, mem_own _ own1 _ rfl]; rfl
  · rw [mem_own _ own1 _ rfl]; rfl
  · exact grouped_in _ _ _ _ rfl rfl
  · rw [mem_own _ { own1 with pending := some (10, 10000001) } _ rfl]; simp
  · intro kind hk
    simp only [List.mem_cons, List.not_mem_nil, or_false] at hk
    rcases hk with rfl | rfl | rfl <;>
      exact ⟨grouped_settled rfl (by decide +kernel) ⟨rfl, rfl, Or.inl rfl⟩ (hp _ _ rfl rfl rfl), grouped_in _ _ _ _ rfl rfl, rfl, rfl, rfl, rfl, by decide +kernel, by decide +kernel,
        by decide +kernel⟩

/-- A sealed notice of module 5000, its number newer than the one held. -/
def sealed1 (m : ColMsg) : ColMsg := { m with tag := Config.noticeTag 7 (colSealed m) }
theorem sealed_ok {s : State} (m : ColMsg) (h : s.fab.groupKey = some 7) : s.colOk (sealed1 m) = true := by
  simp only [State.colOk, h, sealed1]
  exact decide_eq_true rfl
def note (ty subj tick : Nat) (code : Nat := 9) : ColMsg :=
  sealed1 { colZero with ty := ty, origin := 5000, code := code, subj := subj, tick := tick, seq := 5 }
def syncMsg (t1 t2 t3 port : Nat) : ColMsg := sealed1 { colZero with ty := 16, origin := 5000, t1 := t1, t2 := t2, t3 := t3, port := port }
def joining1 (stage : Nat) : Joining := ⟨5000, 0, stage, { cmd128 with id := 3 }⟩
def routes : Tbl Byte := [(1, 0x80), (5000, 0x80), (6000, 0x80)]
/-- With routes by port 0, its link up. -/
def routed (s : State) : State := { s with fab := { s.fab with route := routes, links := [(0, { Link.empty with up := true })] } }
theorem lone_out (f : Clock → Clock) (hm : (f { Clock.reset with members := [] }).members = []) : (lone f).clk.isMember = false := by
  exact (congrArg Member.present (no_mem (lone f).clk hm)).trans rfl
/-- A module that is no member and knows of the member 5000. -/
def outside (f : Clock → Clock := id) : State := routed (clockS [(5000, peer1)] f)
theorem outside_settled (f : Clock → Clock) (hm : (f { Clock.reset with members := [(5000, peer1)] }).members = [(5000, peer1)]) :
    (outside f).settled ∧ (outside f).clk.isMember = false := by
  have hi : (outside f).clk.isMember = false := by
    have : (outside f).clk.members = [(5000, peer1)] := hm
    simp [Clock.isMember, Clock.mem, this, Tbl.get, own_ne, Member.empty]
  have hc : (outside f).clk.members = [(5000, peer1)] := hm
  refine ⟨⟨by rw [hc]; rfl, fun h => (by rw [hi] at h; cases h), by rw [hc]; simp [Tbl.wf]; decide, ?_, rfl, ?_⟩, hi⟩
  · rw [hc]; intro e he _
    simp only [List.mem_singleton] at he
    rw [he]; rfl
  · intro e he m hx
    simp only [outside, routed, List.mem_singleton] at he
    rw [he] at hx; cases hx
/-- A group that is full. -/
def fullGroup : State := routed (clockS ((ownModule, own1) :: (List.range 4095).map (fun i => (5001 + i, peer1))))
theorem full_settled : fullGroup.settled ∧ fullGroup.clk.present.length = 4096 ∧ fullGroup.clk.isMember = true := by
  have hall : ∀ e ∈ (ownModule, own1) :: (List.range 4095).map (fun i => (5001 + i, peer1)), e.2 = own1 ∨ e.2 = peer1 := by
    intro e he
    rcases List.mem_cons.mp he with rfl | he
    · exact Or.inl rfl
    · obtain ⟨i, -, rfl⟩ := List.mem_map.mp he
      exact Or.inr rfl
  have hev : ∀ e ∈ (ownModule, own1) :: (List.range 4095).map (fun i => (5001 + i, peer1)),
      e.2.evictBy = none ∨ e.2.present = false ∧ e.2.evictBy = some 5000 := fun e he => by rcases hall e he with h | h <;> rw [h] <;> exact Or.inl rfl
  have hw : Tbl.wf Member.empty ((ownModule, own1) :: (List.range 4095).map (fun i => (5001 + i, peer1))) := by
    refine ⟨List.pairwise_cons.mpr ⟨?_, ?_⟩, fun e he => by rcases hall e he with h | h <;> rw [h] <;> decide⟩
    · intro e he
      obtain ⟨i, -, rfl⟩ := List.mem_map.mp he
      have := own_lt
      show ownModule < 5001 + i
      omega
    · rw [List.pairwise_map]
      exact List.pairwise_lt_range.imp (fun h => by simpa using h)
  refine ⟨settled_of (a := own1) rfl ?_ hev hw rfl ?_ (rest_of rfl hev (Or.inl rfl) (Or.inl rfl) (Or.inl rfl)), ?_, ?_⟩
  · intro e he
    rcases hall e he with h | h <;> rw [h] <;> decide
  · intro e he
    simp only [fullGroup, routed, List.mem_singleton] at he
    rw [he]; rfl
  · have : fullGroup.clk.members.filter (fun e => e.2.present) = fullGroup.clk.members := by
      rw [List.filter_eq_self]
      intro e he
      rcases hall e he with h | h <;> rw [h] <;> rfl
    simp only [Clock.present, this, List.length_map]
    show (_ :: List.map _ (List.range 4095)).length = 4096
    simp
  · rw [Clock.isMember, mem_own _ own1 _ rfl]; rfl
/-- A module that is not the lowest member has a parent port (the module whose number is 0 has none). -/
def child (up : Bool) (f : Clock → Clock := id) : State :=
  let s := clockS [(0, peer1), (ownModule, own1)] f
  { s with fab := { s.fab with links := [(0, { Link.empty with up := up })] } }
theorem child_port (h : ownModule ≠ 0) (up : Bool) (f : Clock → Clock)
    (hm : (f { Clock.reset with members := [(0, peer1), (ownModule, own1)] }).members = [(0, peer1), (ownModule, own1)])
    (hf : let k := f { Clock.reset with members := [(0, peer1), (ownModule, own1)] }; k.round = none ∧ k.rise = none ∧ k.leaving = none) :
    (child up f).parentPort = some 0 ∧ (child up f).settled ∧ ((child up f).linkAt 0).up = up ∧
      ((child up f).linkAt 0).downAt + 100000 ≤ (child up f).gtick := by
  have hk : (child up f).clk.members = [(0, peer1), (ownModule, own1)] := hm
  have hn : (0 : Nat) ≠ ownModule := fun e => h e.symm
  have ho : (child up f).clk.mem ownModule = own1 := by simp [Clock.mem, hk, Tbl.get, hn]
  have hg : (child up f).gtick = 10000000 := rfl
  have hin : own1.in 10000000 = true ∧ peer1.in 10000000 = true := by decide
  refine ⟨?_, ⟨by rw [hk]; rfl, fun _ => ?_, ?_, ?_, rfl, ?_⟩, rfl, ?_⟩
  · have hp : minCode (((child up f).clk.members.filter (fun e => e.2.in 10000000)).map (·.1)) = 0 := by
      rw [hk]
      show minCode ((List.filter (fun e => e.2.in 10000000) [(0, peer1), (ownModule, own1)]).map (·.1)) = 0
      simp only [List.filter_cons, hin, if_true, List.filter_nil, List.map_cons, List.map_nil, minCode, List.foldl_cons, List.foldl_nil]
      omega
    unfold State.parentPort
    simp only [hg, hp, ho, hin, Bool.not_true, Bool.false_or]
    rw [if_neg (by simpa using hn)]
    rfl
  · have he : (child up f).clk.members.any (fun e => e.2.evictBy = some ownModule && e.2.goneAt.isNone) = false := by rw [hk]; rfl
    exact Bool.and_eq_true_iff.mpr ⟨Bool.and_eq_true_iff.mpr ⟨Bool.and_eq_true_iff.mpr ⟨by rw [show (child up f).clk.round = none from hf.1],
      by simp [show (child up f).clk.rise = none from hf.2.1]⟩, by simp [he]⟩, by simp [show (child up f).clk.leaving = none from hf.2.2]⟩
  · rw [hk]
    refine ⟨by simpa using Nat.pos_of_ne_zero h, ?_⟩
    intro e he
    simp only [List.mem_cons, List.not_mem_nil, or_false] at he
    rcases he with rfl | rfl <;> decide
  · rw [hk]
    intro e he _
    simp only [List.mem_cons, List.not_mem_nil, or_false] at he
    rcases he with rfl | rfl <;> rfl
  · intro e he m hx
    simp only [child, List.mem_singleton] at he
    rw [he] at hx; cases hx
  · show 0 + 100000 ≤ 10000000
    decide
/-- Module 5000 as its notices find it: in force, leaving, fallen, its round open; and 6000 evicted by it. -/
def peerS (x : Bool × Bool × Nat) : State :=
  grouped own1 { peer1 with leaving := x.1, fallen := x.2.1 } { third1 with present := false, evictBy := some 5000 }
    (fun k => { k with openRounds := if x.2.2 = 0 then [] else [(5000, x.2.2)] })
theorem witness_ColNotices :
    (let s := grouped own1 peer1 third1;
      s.settled ∧ s.fab.groupKey = some 7 ∧ (note 17 0 0).origin ≠ ownModule ∧ s.clk.isMember = true ∧ s.clk.mem 5000 = peer1 ∧
      newer peer1.seq (note 17 0 0).seq = true ∧ newer peer1.seq 4 = false ∧ peer1.present = true ∧
      (∀ ty subj tick code, s.colOk (note ty subj tick code) = true) ∧ (note 17 0 0).ty ≠ 18 ∧ s.gtick < (note 17 0 10000001).tick ∧
      (s.clk.mem 6000 = third1 ∧ third1.present = true ∧ third1.fallen = false ∧ third1.leaveAt = none ∧ third1.goneAt = none ∧
        third1.ceil ≠ 0) ∧ s.clk.round = none) ∧
    (∀ x ∈ [(false, false, 0), (false, false, 9), (true, false, 0), (true, false, 9), (false, true, 0), (false, true, 9)], let s := peerS x;
      s.settled ∧ s.clk.mem 5000 = { peer1 with leaving := x.1, fallen := x.2.1 } ∧ s.clk.isMember = true ∧
      (s.clk.openRounds.contains (5000, 9) = decide (x.2.2 = 9)) ∧ (s.clk.mem 6000).evictBy = some 5000 ∧ (s.clk.mem 6000).goneAt = none ∧
      (s.clk.mem 5000).since = 0 ∧ (note 17 0 0).tick ≤ 0 ∧ 0 < (note 17 0 1).tick ∧ (note 17 0 10000000).tick ≤ s.gtick ∧ (note 17 0 0).code ≠ 20) ∧
    (∀ x ∈ [([], 0), ([6000], 0), ([], 1), ([6000], 1)], let r := { round1 x.1 with kind := x.2 };
      let s := grouped own1 peer1 third1 (fun k => { k with round := some r });
      s.settled ∧ s.clk.isMember = true ∧ s.clk.round = some r ∧ s.clk.leaving = none ∧ s.clk.rise = none ∧ (s.clk.mem ownModule).pending = none ∧
      s.clk.present = [ownModule, 5000, 6000] ∧ r.confirmed = x.1 ∧ r.cmds = [{ cmd128 with id := 3 }] ∧ (note 19 ownModule 0).subj = ownModule ∧
      (s.core 128).seq.cops.find? (fun z => z.id = 3) = some cop5 ∧ cop5.dst ≠ 0 ∧ 3 ≠ clockId) ∧
    (let s := outside (fun k => { k with joining := some (joining1 2) });
      s.settled ∧ s.clk.isMember = false ∧ s.clk.joining = some (joining1 2) ∧ (joining1 2).sponsor = 5000 ∧ (note 20 5000 0).subj = 5000 ∧
      (∀ ty subj tick code, s.colOk (note ty subj tick code) = true) ∧ newer (s.clk.mem 5000).seq (note 17 0 0).seq = true ∧
      (s.clk.mem ownModule).leaveAt = none ∧ (s.clk.mem ownModule).goneAt = none) ∧
    (let s := grouped own1 { peer1 with present := false } third1 (fun k => { k with serving := [(5000, 9)] });
      s.settled ∧ s.clk.isMember = true ∧ (note 20 5000 0).subj = (note 20 5000 0).origin ∧ s.clk.serving = [(5000, 9)] ∧ s.clk.joining = none ∧
      (s.clk.mem 5000).present = false ∧ newer (s.clk.mem 5000).joinSeq 5 = true) ∧
    (∀ l ∈ [[], [(7000, 9)]], let s := routed (grouped { own1 with pending := some (9, 10000001) } peer1 third1 (fun k => { k with serving := l }));
      s.settled ∧ s.clk.present.length < 4096 ∧ s.clk.serving = l ∧ s.clk.serving.any (fun j => j.1 = 5000) = false ∧ (note 20 ownModule 0).count = 0 ∧
      (s.fab.route.get 0 5000).getLsbD 7 = true ∧ (s.fab.route.get 0 6000).getLsbD 7 = true ∧ (s.linkAt 0).up = true ∧ (note 20 6000 0).hops + 1 < 16 ∧
      (s.clk.mem ownModule).pending = some (9, 10000001) ∧ (note 20 6000 0).subj ≠ ownModule ∧ (note 20 6000 0).subj ≠ (note 20 6000 0).origin) ∧
    (fullGroup.settled ∧ 4096 ≤ fullGroup.clk.present.length ∧ fullGroup.clk.isMember = true) ∧
    (({ clockS [] with fab := Fabric.empty } : State).colOk (syncMsg 0 0 0 0) = false ∧ (syncMsg 0 0 0 15).t3 = 0 ∧ (syncMsg 0 0 0 15).port < 16) ∧
    (∀ st ∈ [0, 1], let s := outside (fun k => { k with joining := some (joining1 st) });
      s.settled ∧ s.clk.joining = some (joining1 st) ∧ (joining1 st).stage = st ∧ s.colOk (syncMsg 10 9999985 15 0) = true ∧ s.clk.present ≠ [] ∧
      (s.fab.route.get 0 5000).toNat % 16 = (syncMsg 10 9999985 15 0).port ∧ (s.fab.route.get 0 5000).toNat % 16 ≠ (syncMsg 10 9999985 15 1).port ∧
      ((((9999985 : Int) - 10) - ((s.gtick : Int) - 15)) / 2).natAbs ≤ 5) ∧
    (ownModule ≠ 0 → ∀ b ∈ [none, some 9900000], let s := child true (fun k => { k with offBad := b });
      s.settled ∧ s.clk.joining = none ∧ s.parentPort = some (syncMsg 10 9999985 15 0).port ∧ s.clk.offBad = b ∧ 9900000 + 100000 ≤ s.gtick ∧
      20 < ((((10000057 : Int) - 10) - ((s.gtick : Int) - 15)) / 2).natAbs) := by
  refine ⟨⟨grouped_settled rfl (by decide +kernel) ⟨rfl, rfl, Or.inl rfl⟩, rfl, own_ne.2.2.1, grouped_in _ _ _ _ rfl rfl, mem_peer _ _ _ _ rfl, by decide +kernel, by decide +kernel, rfl,
      fun ty su ti co => sealed_ok _ rfl, by decide, by decide +kernel, ⟨mem_third _ _ _ _ rfl, rfl, rfl, rfl, rfl, by decide⟩, rfl⟩, ?_, ?_,
    ⟨(outside_settled _ rfl).1, (outside_settled _ rfl).2, rfl, rfl, rfl, fun ty su ti co => sealed_ok _ rfl, ?_, ?_, ?_⟩,
    ⟨grouped_settled rfl (by decide +kernel) ⟨rfl, rfl, Or.inl rfl⟩, grouped_in _ _ _ _ rfl rfl, rfl, rfl, rfl, by rw [mem_peer _ _ _ _ rfl], by rw [mem_peer _ _ _ _ rfl]; decide⟩,
    ?_, ⟨full_settled.1, Nat.le_of_eq full_settled.2.1.symm, full_settled.2.2⟩, ⟨by simp [State.colOk, Fabric.empty], rfl, by decide⟩, ?_, ?_⟩
  · intro x hx
    simp only [List.mem_cons, List.not_mem_nil, or_false] at hx
    have hs : (peerS x).settled := by
      refine grouped_settled rfl ?_ ⟨rfl, rfl, Or.inr ⟨rfl, rfl⟩⟩
      rcases hx with rfl | rfl | rfl | rfl | rfl | rfl <;> decide +kernel
    refine ⟨hs, mem_peer _ _ _ _ rfl, grouped_in _ _ _ _ rfl rfl, ?_, ?_, ?_, ?_, by decide, by decide, Nat.le_refl 10000000, by decide⟩
    · rcases hx with rfl | rfl | rfl | rfl | rfl | rfl <;> decide +kernel
    · exact congrArg Member.evictBy (mem_third (peerS x).clk _ _ _ rfl)
    · exact congrArg Member.goneAt (mem_third (peerS x).clk _ _ _ rfl)
    · exact (congrArg Member.since (mem_peer (peerS x).clk _ _ _ rfl)).trans rfl
  · intro x hx
    simp only [List.mem_cons, List.not_mem_nil, or_false] at hx
    rcases hx with rfl | rfl | rfl | rfl <;>
      exact ⟨grouped_settled rfl (by decide +kernel) ⟨rfl, rfl, Or.inl rfl⟩ (waits_for rfl rfl rfl rfl), grouped_in _ _ _ _ rfl rfl, rfl, rfl, rfl,
        by rw [mem_own _ own1 _ rfl]; rfl, rfl, rfl, rfl, rfl, by decide +kernel, by decide +kernel, by decide +kernel⟩
  · decide +kernel
  · simp [outside, routed, clockS, Clock.mem, Tbl.get, Clock.reset, own_ne, Member.empty]
  · simp [outside, routed, clockS, Clock.mem, Tbl.get, Clock.reset, own_ne, Member.empty]
  · intro l hl
    have hs : (routed (grouped { own1 with pending := some (9, 10000001) } peer1 third1 (fun k => { k with serving := l }))).settled := by
      refine settled_of (a := { own1 with pending := some (9, 10000001) }) (r := [(5000, peer1), (6000, third1)]) rfl ?_ ?_ (wf_trio (by decide)) rfl ?_
        (rest_of rfl ?_ (Or.inl rfl) (Or.inl rfl) (Or.inl rfl))
      · intro e he
        simp only [List.mem_cons, List.not_mem_nil, or_false] at he
        rcases he with rfl | rfl | rfl <;> rfl
      · intro e he
        simp only [List.mem_cons, List.not_mem_nil, or_false] at he
        rcases he with rfl | rfl | rfl <;> exact Or.inl rfl
      · intro e he
        simp only [routed, List.mem_singleton] at he
        rw [he]; rfl
      · intro e he
        simp only [List.mem_cons, List.not_mem_nil, or_false] at he
        rcases he with rfl | rfl | rfl <;> exact Or.inl rfl
    refine ⟨hs, (by decide : 3 < 4096), rfl, ?_, rfl, (by decide +kernel : (Tbl.get 0 routes 5000).getLsbD 7 = true), (by decide +kernel : (Tbl.get 0 routes 6000).getLsbD 7 = true), rfl, by decide, ?_, own_ne.2.2.2, by decide⟩
    · simp only [List.mem_cons, List.not_mem_nil, or_false] at hl
      rcases hl with rfl | rfl <;> rfl
    · exact (congrArg Member.pending (mem_own _ { own1 with pending := some (9, 10000001) } _ rfl)).trans rfl
  · intro st hs
    simp only [List.mem_cons, List.not_mem_nil, or_false] at hs
    rcases hs with rfl | rfl <;>
      exact ⟨(outside_settled _ rfl).1, rfl, rfl, sealed_ok _ rfl, by decide +kernel, by decide +kernel, by decide +kernel, by decide +kernel⟩
  · intro h b hb
    exact ⟨(child_port h true _ rfl ⟨rfl, rfl, rfl⟩).2.1, rfl, (child_port h true _ rfl ⟨rfl, rfl, rfl⟩).1, rfl,
      (by decide : 9900000 + 100000 ≤ 10000000), (by decide : 20 < ((((10000057 : Int) - 10) - ((10000000 : Int) - 15)) / 2).natAbs)⟩

/-- Members whose changes have come, a join and a leave of this module that end now, and the timers on both sides of their ticks. -/
def due1 (f : Member → Member) : State := grouped own1 (f peer1) third1
def ending1 : State := clockS [(ownModule, { own1 with leaveAt := some 100 })] (fun k => { k with leaving := some ({ cmd128 with id := 3 }, 9) })
def starting1 : State := clockS [(ownModule, { own1 with present := false, joinAt := some 100 })]
  (fun k => { k with joining := some (joining1 2) })
def muted : Member := { peer1 with mute := true, silent := some 100, fallen := true, ceil := 0 }
/-- What the sensors show: the input voltage and the junction, and the codes up to `n` fit. -/
def sensed (input junction n : Nat) : Sensors := ⟨input, 100, junction, 30, 25, (List.range 37).map (fun c => if c < n then (100, 90) else (5000, 96))⟩
theorem witness_ClockTimers :
    (∀ f ∈ [fun (x : Member) => { x with pending := some (9, 100) }, fun x => { x with silent := some 100 },
        fun x => { x with present := false, joinAt := some 100 }, fun x => { x with leaveAt := some 100 }, fun x => { x with present := false, goneAt := some 100 }],
      let s := due1 f; s.clk.members.wf Member.empty ∧ s.host.clockBusy = [] ∧ (s.clk.mem ownModule) = own1 ∧ s.clk.mem 5000 = f peer1 ∧
        own1.present = true ∧ own1.goneAt = none ∧ own1.leaveAt = none ∧ s.clk.round = none ∧ s.clk.rise = none ∧ s.clk.leaving = none) ∧
    (let s := starting1; let own := s.clk.mem ownModule;
      s.clk.members.wf Member.empty ∧ s.host.clockBusy = [] ∧ own = { own1 with present := false, joinAt := some 100 } ∧ 100 ≤ s.gtick ∧
      s.clk.joining = some (joining1 2) ∧ (joining1 2).cmd.id = 3 ∧ (s.core 128).seq.cops.find? (fun z => z.id = 3) = some cop5) ∧
    (let s := ending1; let own := s.clk.mem ownModule;
      s.clk.members.wf Member.empty ∧ s.host.clockBusy = [] ∧ own = { own1 with leaveAt := some 100 } ∧ 100 ≤ s.gtick ∧
      s.clk.leaving = some ({ cmd128 with id := 3 }, 9) ∧ s.clk.openCmds = [] ∧ (s.core 128).seq.cops.find? (fun z => z.id = 3) = some cop5 ∧ cop5.dst ≠ 0) ∧
    (∀ x ∈ [(0, true), (9980001, false)], let s := grouped own1 peer1 third1 (fun k => { k with beat := x.1 });
      s.settled ∧ s.fab.groupKey = some 7 ∧ s.clk.isMember = true ∧ (s.clk.beat + 20000 ≤ s.gtick ↔ x.2 = true)) ∧
    (let s := outside; s.settled ∧ s.fab.groupKey = some 7 ∧ s.clk.isMember = false ∧ (s.linkAt 0).up = true ∧ (s.linkAt 0).syncAt + 10000 ≤ s.gtick) ∧
    (let s := grouped own1 peer1 third1;
      s.clk.members.find? (fun e => e.1 != ownModule && e.2.present && !e.2.mute && decide (e.2.heard + 70000 ≤ s.gtick)) = some (5000, peer1)) ∧
    (∀ q ∈ [none, some (round1 [])], let s := grouped own1 muted third1 (fun k => { k with round := q });
      s.settled ∧ s.fab.groupKey = some 7 ∧ s.clk.isMember = true ∧ s.clk.round = q ∧ s.clk.members.find? (fun e => e.2.present && !e.2.mute) = some (ownModule, own1) ∧
      s.clk.members.find? (fun e => e.1 != ownModule && e.2.present && e.2.mute &&
        (match e.2.silent with | some u => decide (u + 1000000 ≤ s.gtick) | none => false)) = some (5000, muted) ∧
      s.clk.present = [ownModule, 5000, 6000] ∧ muted.leaveAt = none ∧ muted.goneAt = none) ∧
    (∀ x ∈ [(0, true), (9800001, false)], let s := grouped own1 peer1 third1 (fun k => { k with round := some { round1 [] with sentAt := x.1 } });
      s.settled ∧ s.fab.groupKey = some 7 ∧ s.clk.round = some { round1 [] with sentAt := x.1 } ∧ (x.1 + 200000 ≤ s.gtick ↔ x.2 = true)) ∧
    (let s := lone (fun k => { k with joining := some (joining1 0) });
      s.settled ∧ s.clk.joining = some (joining1 0) ∧ s.clk.serving = [] ∧ (joining1 0).since + 10000000 ≤ s.gtick ∧ (joining1 0).cmd.id ≠ clockId ∧
      (s.core 128).seq.cops.find? (fun z => z.id = 3) = some cop5) ∧
    (let s := grouped own1 peer1 third1 (fun k => { k with serving := [(7000, 0)] });
      s.settled ∧ s.clk.joining = none ∧ s.clk.serving = [(7000, 0)] ∧ 0 + 10000000 ≤ s.gtick) ∧
    (ownModule ≠ 0 → ∀ up, (child up).settled ∧ (child up).parentPort = some 0 ∧ ((child up).linkAt 0).up = up ∧
      ((child up).linkAt 0).downAt + 100000 ≤ (child up).gtick) ∧
    (let s := grouped own1 peer1 third1 (fun k => { k with offBad := some 9900000 }); s.settled ∧ s.clk.offBad = some 9900000 ∧ 9900000 + 100000 ≤ s.gtick) ∧
    (∀ x ∈ [(4199, 30), (5801, 30), (5000, 110)], let r := sensed x.1 x.2 0; r.input < 4200 ∨ 5800 < r.input ∨ 110 ≤ r.junction) ∧
    (∀ x ∈ [(4200, 109, 0), (5800, 109, 11), (4200, 109, 21), (4200, 109, 37)], let r := sensed x.1 x.2.1 x.2.2; let s := grouped own1 peer1 third1;
      4200 ≤ r.input ∧ r.input ≤ 5800 ∧ r.junction < 110 ∧
      (∀ c ≤ 36, ((r.proj.getD c (0, 0)).1 ≤ s.host.pcap ∧ (r.proj.getD c (0, 0)).2 ≤ 95) ↔ c < x.2.2)) ∧
    (∀ x ∈ [(10, false), (20, true)], let s := grouped own1 peer1 third1 (fun k => { k with local_ := 15 }) 0 (if x.2 then 16 else 0);
      s.settled ∧ s.fab.groupKey = some 7 ∧ s.clk.isMember = true ∧ s.clk.round = none ∧ s.host.hkduty.getLsbD 4 = x.2 ∧
      (min x.1 s.clk.clceil < s.clk.local_ ↔ x.1 = 10) ∧ (s.clk.local_ < min x.1 s.clk.clceil ↔ x.1 = 20) ∧
      s.clk.present = [ownModule, 5000, 6000] ∧ (s.clk.mem ownModule).pending = none ∧ (10 < s.clk.ownCode (max 10000000 s.gtick)) ∧
      ¬ 20 < s.clk.ownCode (max 10000000 s.gtick) ∧ ¬(10050000 < s.gtick + 50000)) ∧
    (∀ c ∈ [10, 5], let s := grouped { own1 with pending := some (10, 10000001) } peer1 third1 (fun k => { k with local_ := c });
      s.settled ∧ s.fab.groupKey = some 7 ∧ s.clk.isMember = true ∧ s.clk.round = none ∧ (s.clk.mem ownModule).pending = some (10, 10000001) ∧
      (min 10 s.clk.clceil = s.clk.local_ ↔ c = 10) ∧ (s.clk.local_ < min 10 s.clk.clceil ↔ c = 5) ∧ 10 < s.clk.ownCode (max 10000000 s.gtick) ∧
      ¬(10050000 < s.gtick + 50000)) := by
  have hne := own_ne
  have hc : ∀ (a : Member) (f : Clock → Clock) (d : Byte), (f { Clock.reset with members := trio a peer1 third1 }).members = trio a peer1 third1 →
      (f { Clock.reset with members := trio a peer1 third1 }).loneUntil = 0 → a.in 10000000 = true → a.evictBy = none → a.at 10000000 = 36 →
      (grouped a peer1 third1 f 0 d).clk.ownCode (max 10000000 (grouped a peer1 third1 f 0 d).gtick) = 20 := by
    intro a f d hm hl hi he ha
    have hm' : (grouped a peer1 third1 f 0 d).clk.members = trio a peer1 third1 := hm
    have hl' : (grouped a peer1 third1 f 0 d).clk.loneUntil = 0 := hl
    have hk : a.counts 10000000 = true ∧ peer1.counts 10000000 = true ∧ third1.counts 10000000 = true :=
      ⟨by simp [Member.counts, hi], by decide, by decide⟩
    have hv : a.at 10000000 = 36 ∧ peer1.at 10000000 = 20 ∧ third1.at 10000000 = 30 := ⟨ha, by decide, by decide⟩
    have hg : max 10000000 (grouped a peer1 third1 f 0 d).gtick = 10000000 := rfl
    rw [hg]
    generalize (grouped a peer1 third1 f 0 d).clk = k at hm' hl'
    rw [Clock.ownCode, mem_own _ a _ hm', hi, hl']
    simp [Clock.groupAt, hm', trio, hk, hv, minCode]
  refine ⟨?_, ⟨wf_own (by decide), rfl, mem_own _ _ _ rfl, by decide +kernel, rfl, rfl, by decide +kernel⟩,
    ⟨wf_own (by decide), rfl, mem_own _ _ _ rfl, by decide +kernel, rfl, rfl, by decide +kernel, by decide⟩, ?_,
    ⟨(outside_settled _ rfl).1, rfl, (outside_settled _ rfl).2, rfl, by decide +kernel⟩, ?_, ?_, ?_,
    ⟨settled_none rfl rfl, rfl, rfl, by decide +kernel, by decide +kernel, by decide +kernel⟩,
    ⟨grouped_settled rfl (by decide +kernel) ⟨rfl, rfl, Or.inl rfl⟩, rfl, rfl, by decide +kernel⟩,
    fun h up => ⟨(child_port h up id rfl ⟨rfl, rfl, rfl⟩).2.1, (child_port h up id rfl ⟨rfl, rfl, rfl⟩).1, (child_port h up id rfl ⟨rfl, rfl, rfl⟩).2.2⟩,
    ⟨grouped_settled rfl (by decide +kernel) ⟨rfl, rfl, Or.inl rfl⟩, rfl, by decide +kernel⟩, by decide +kernel, by decide +kernel, ?_, ?_⟩
  · intro f hf
    simp only [List.mem_cons, List.not_mem_nil, or_false] at hf
    rcases hf with rfl | rfl | rfl | rfl | rfl <;>
      exact ⟨wf_trio (by decide), rfl, mem_own _ _ _ rfl, mem_peer _ _ _ _ rfl, rfl, rfl, rfl, rfl, rfl, rfl⟩
  · intro x hx
    simp only [List.mem_cons, List.not_mem_nil, or_false] at hx
    rcases hx with rfl | rfl <;>
      exact ⟨grouped_settled rfl (by decide +kernel) ⟨rfl, rfl, Or.inl rfl⟩, rfl, grouped_in _ _ _ _ rfl rfl, by decide +kernel⟩
  · simp [grouped, clockS, Clock.reset, trio, hne, peer1, Member.empty]
  · intro q hq
    simp only [List.mem_cons, List.not_mem_nil, or_false] at hq
    have hf : ∀ q, (grouped own1 muted third1 (fun k => { k with round := q })).clk.members.find? (fun e => e.1 != ownModule && e.2.present && e.2.mute &&
        (match e.2.silent with | some u => decide (u + 1000000 ≤ (grouped own1 muted third1 (fun k => { k with round := q })).gtick) | none => false)) = some (5000, muted) := by
      intro q; simp [grouped, clockS, Clock.reset, trio, hne, muted, peer1, Member.empty]
    rcases hq with rfl | rfl
    · exact ⟨grouped_settled rfl (by decide +kernel) ⟨rfl, rfl, Or.inl rfl⟩, rfl, grouped_in _ _ _ _ rfl rfl, rfl, rfl, hf _, rfl, rfl, rfl⟩
    · exact ⟨grouped_settled rfl (by decide +kernel) ⟨rfl, rfl, Or.inl rfl⟩ (waits_for rfl rfl rfl rfl), rfl, grouped_in _ _ _ _ rfl rfl, rfl, rfl, hf _, rfl, rfl, rfl⟩
  · intro x hx
    simp only [List.mem_cons, List.not_mem_nil, or_false] at hx
    rcases hx with rfl | rfl <;>
      exact ⟨grouped_settled rfl (by decide +kernel) ⟨rfl, rfl, Or.inl rfl⟩ (waits_for rfl rfl rfl rfl), rfl, rfl, by decide +kernel⟩
  · intro x hx
    simp only [List.mem_cons, List.not_mem_nil, or_false] at hx
    rcases hx with rfl | rfl <;>
      exact ⟨grouped_settled rfl (by decide +kernel) ⟨rfl, rfl, Or.inl rfl⟩, rfl, (by rw [Clock.isMember, mem_own _ own1 _ rfl]; rfl), rfl, by decide +kernel, by decide +kernel, by decide +kernel, rfl,
        by rw [mem_own _ own1 _ rfl]; rfl, by rw [hc own1 _ _ rfl rfl (by decide) rfl (by decide)]; decide, by rw [hc own1 _ _ rfl rfl (by decide) rfl (by decide)]; decide, by decide +kernel⟩
  · intro c hx
    simp only [List.mem_cons, List.not_mem_nil, or_false] at hx
    rcases hx with rfl | rfl <;>
      exact ⟨grouped_settled rfl (by decide +kernel) ⟨rfl, rfl, Or.inl rfl⟩, rfl, grouped_in _ _ _ _ rfl rfl, rfl,
        by rw [mem_own _ { own1 with pending := some (10, 10000001) } _ rfl], by decide +kernel, by decide +kernel,
        by rw [hc { own1 with pending := some (10, 10000001) } _ _ rfl rfl (by decide) rfl (by decide)]; decide, by decide +kernel⟩

/-! The fabric: job 1 has key 9, and the packets are sealed under it. -/
def sealed (p : Packet) : Packet := { p with tag := Config.packetTag 9 (pktAad p) p.payload }
def pkt (ty : Nat) (p : Packet := pktZero) : Packet :=
  sealed { p with ty := ty, dest := ownModule, origin := 5000, unit := 0, job := 1, payload := [1, 2, 3, 4] }
def net (f : Fabric → Fabric := id) : State :=
  { s0 with mem := tables, gtick := 10000000,
            fab := f { Fabric.empty with keys := [(1, some (9, 1000))], route := [(0, 0x80), (1, 0x80), (5000, 0x80)] } }
theorem pkt_authentic (s : State) (p : Packet) (hk : s.fab.keys = [(1, some (9, 1000))]) (hj : p.job = 1) :
    s.fab.authentic (sealed p) = true := by
  have h : s.fab.keyOf (sealed p) = some 9 := by
    simp [Fabric.keyOf, hk, sealed, hj, Tbl.get]
  unfold Fabric.authentic
  rw [h]
  show decide (Config.packetTag 9 (pktAad (sealed p)) p.payload = Config.packetTag 9 (pktAad p) p.payload) = true
  exact decide_eq_true rfl
def stream1 (ty : Nat) (idle : Bool := false) : Dest := ⟨5000, 0, Packet.vc ty, 5, 3, [], 0, 1, idle⟩
def windowOf (st count : Nat) (job : Nat := 1) : Window := { Window.empty with state := st, job := job, count := count, len := 4 }
def hold1 (p : Packet) (arr : Nat := 0) (rel : Bool := false) : Hold := ⟨p, 0, 0, arr, rel, 0, 0, false, [], [], false, 0, none⟩
def crowded (n : Nat) : State := net (fun f => { f with holds := List.replicate n (hold1 pktZero) })
theorem held_full (n : Nat) : (crowded n).held.length = n := by
  simp [crowded, State.held, net, hold1]
theorem crowd : 7168 ≤ (crowded 7168).held.length := Nat.le_of_eq (held_full 7168).symm
theorem keyless : ({ s0 with fab := Fabric.empty } : State).fab.authentic (pkt 0) = false ∧
    ({ s0 with fab := Fabric.empty } : State).fab.authentic (pkt 1) = false ∧ ({ s0 with fab := Fabric.empty } : State).fab.authentic (pkt 2) = false := by
  simp [Fabric.authentic, Fabric.keyOf, Fabric.empty, pkt, sealed, Tbl.get]
theorem own_wm : ∃ wm, wm < 2 ^ 32 ∧ wmModule wm = ownModule ∧ wmSlot wm = 0 ∧ wmGen wm = 0 := by
  have ho : ownModule < 4096 := Config.moduleNumber.isLt
  have h : ∀ n, n < 4096 → ∃ wm, wm < 4294967296 ∧ wm / 1048576 % 4096 = n ∧ wm / 256 % 4096 = 0 ∧ wm % 256 = 0 :=
    fun n h => ⟨1048576 * n, by omega, by omega, by omega, by omega⟩
  exact h _ ho
theorem witness_PacketsAreForwardedAndAccepted :
    (∀ h ∈ [14, 15], let p := { pktZero with dest := 5000, origin := 5000, hops := h };
      p.dest ≠ ownModule ∧ p.origin ≠ ownModule ∧ (net.fab.route.get 0 p.dest).getLsbD 7 = true ∧ (net.fab.route.get 0 p.origin).getLsbD 7 = true ∧
      (p.hops + 1 < 16 ↔ h = 14)) ∧
    (∀ h ∈ [0, 15], let p := { pktZero with dest := 6000, origin := 5000, hops := h };
      p.dest ≠ ownModule ∧ (net.fab.route.get 0 p.dest).getLsbD 7 = false ∧ p.origin ≠ ownModule) ∧
    (let p := { pktZero with dest := 5000, origin := ownModule, hops := 15 }; p.dest ≠ ownModule ∧ 16 ≤ p.hops + 1 ∧ p.origin = ownModule) ∧
    (∀ ty ∈ [0, 1, 2], (pkt ty).dest = ownModule ∧ (pkt ty).ty ≤ 2 ∧ net.fab.authentic (pkt ty) = true ∧
      ({ s0 with fab := Fabric.empty } : State).fab.authentic (pkt ty) = false ∧
      (∀ x ∈ [(4, true), (5, false), (6, false)], let s := net (fun f => { f with dests := [stream1 ty] });
        (s.fab.dest (pkt ty { pktZero with seq := x.1 })) = some (stream1 ty) ∧ (stream1 ty).has x.1 = x.2 ∧ (stream1 ty).ahead = [] ∧
        s.fab.authentic (pkt ty { pktZero with seq := x.1 }) = true) ∧
      (∀ n ∈ [0, 4, 5], (stream1 ty true).has n = false ∧ (stream1 ty true).ahead = []) ∧
      net.nackReason (pkt ty) = (if ty = 2 then some 2 else none)) ∧
    ((pkt 0 { pktZero with nwm := 1 }).nwm ≠ 0 ∧ 7168 ≤ (crowded 7168).held.length) ∧
    ((pkt 2).nwm = 0 ∧ net.fab.lowerDone (pkt 2) = true ∧ (net.windowAt (fredWin (pkt 2))).state = 0) ∧
    (∀ x ∈ [(3, 1, 1, true), (1, 1, 1, false), (1, 0, 1, true), (1, 1, 2, true)],
      let s := net (fun f => { f with windows := [(0, windowOf x.1 x.2.1 x.2.2.1)] });
      s.nackReason (pkt 2) = none ∧ (s.windowAt (fredWin (pkt 2))).state = x.1 ∧ (x.1 = 1 → (s.windowAt (fredWin (pkt 2))).refuses (pkt 2) = x.2.2.2)) ∧
    (carriedOf (pkt 0) = [] ∧ (∀ a b, carriedOf (pkt 0 { pktZero with nwm := 2, c0 := a, c1 := b }) = [a, b]) ∧
      ∃ wm, wm < 2 ^ 32 ∧ wmModule wm = ownModule ∧ wmSlot wm = 0 ∧ wmGen wm = 0) := by
  have hne := own_ne
  refine ⟨?_, ?_, ⟨hne.2.2.1, by decide, rfl⟩, ?_, ⟨by decide, crowd⟩, by decide +kernel, by decide +kernel, rfl, fun _ _ => rfl, own_wm⟩
  · intro h hh
    simp only [List.mem_cons, List.not_mem_nil, or_false] at hh
    rcases hh with rfl | rfl <;> exact ⟨hne.2.2.1, hne.2.2.1, by decide +kernel, by decide +kernel, by decide⟩
  · intro h hh
    exact ⟨hne.2.2.2, show (net.fab.route.get 0 6000).getLsbD 7 = false by decide +kernel, hne.2.2.1⟩
  · intro ty ht
    refine ⟨rfl, ?_, pkt_authentic _ _ rfl rfl, ?_, ?_, ?_, ?_⟩
    · simp only [List.mem_cons, List.not_mem_nil, or_false] at ht
      rcases ht with rfl | rfl | rfl <;> decide
    · simp only [List.mem_cons, List.not_mem_nil, or_false] at ht
      rcases ht with rfl | rfl | rfl
      · exact keyless.1
      · exact keyless.2.1
      · exact keyless.2.2
    · intro x hx
      refine ⟨?_, ?_, rfl, pkt_authentic _ _ rfl rfl⟩
      · simp [Fabric.dest, net, stream1, pkt, sealed, Dest.isOf]
      · simp only [List.mem_cons, List.not_mem_nil, or_false] at hx ht
        rcases hx with rfl | rfl | rfl <;> rcases ht with rfl | rfl | rfl <;> decide +kernel
    · simp only [List.mem_cons, List.not_mem_nil, or_false] at ht
      rcases ht with rfl | rfl | rfl <;> decide +kernel
    · simp only [List.mem_cons, List.not_mem_nil, or_false] at ht
      rcases ht with rfl | rfl | rfl <;> decide +kernel

/-- A hold whose watermark 0 is void here or in the cache; released FST and FATOM packets to a page, to none, to one without
WR, and to one without a frame; FREDs into an open window. -/
def voided (s : State) : State := { s with fab := { s.fab with origins := [(0, { Origin.empty with state := 3, job := 1 })], settled := [⟨0, false, 0⟩] } }
theorem voided_known (s : State) : (voided s).fab.known 0 1 = some false := by unfold Fabric.known; split <;> rfl
def holding1 (h : Hold) (m : Mem := tables) : State :=
  { net (fun f => { f with holds := [h], windows := [(0, windowOf 1 h.pkt.payload.length)] }) with mem := m }
def lands (x : State × Acc) : Bool :=
  match x with
  | (v, .ok q) => decide (q.order < 2 ∧ unitFrame (frameOf q.key) = false ∧ v.mem.poison = [] ∧ v.mem.soft = [] ∧ v.mem.bad = [] ∧
      v.mem.discarded = [])
  | _ => false
theorem clean_of {s : State} (h : s.mem.poison = [] ∧ s.mem.soft = [] ∧ s.mem.bad = [] ∧ s.mem.discarded = []) : s.cleanHbm := h
theorem lands_ok {x : State × Acc} (h : lands x = true) : ∃ v q, x = (v, .ok q) ∧ q.order < 2 ∧ unitFrame (frameOf q.key) = false ∧ v.cleanHbm := by
  unfold lands at h
  split at h
  · rename_i v q
    obtain ⟨ho, hf, hc⟩ := of_decide_eq_true h
    exact ⟨v, q, rfl, ho, hf, clean_of hc⟩
  · cases h
theorem acc_is {x : State × Acc} {a : Acc} (h : x.2 = a) : ∃ v, x = (v, a) := ⟨x.1, Prod.ext rfl h⟩
def writes (s : State) (n : Nat) (w : Window) : Bool :=
  match (s.setWindow n w).jobCheck w.job (windowReq n) true w.result w.len (spanFuel w.len) with
  | (v, .ok) => (match v.jobWrite w.job (windowReq n) 0 true w.result w.result_ (spanFuel w.len) with | (_, .ok) => true | _ => false)
  | _ => false
theorem writes_ok {s : State} {n : Nat} {w : Window} (h : writes s n w = true) : ∃ v u,
    (s.setWindow n w).jobCheck w.job (windowReq n) true w.result w.len (spanFuel w.len) = (v, .ok) ∧
    v.jobWrite w.job (windowReq n) 0 true w.result w.result_ (spanFuel w.len) = (u, .ok) := by
  unfold writes at h
  split at h
  · rename_i v hv
    split at h
    · rename_i u hu; exact ⟨v, u, hv, hu⟩
    · cases h
  · cases h
theorem hold_die (ty a : Nat) (r : Bool) : (hold1 (pkt ty) a r).die = 0 := by simp [Hold.die, hold1, pkt, sealed, own_ne]
def noWr : Mem := { Mem.empty with hbm := table [(0, 2 ^ 63 + 2 ^ 62 + 4096), (4096, 2 ^ 63 + 2 ^ 62 + 2 ^ 61 + 2 ^ 30)] }
def noFrame : Mem := (tabled (leafBits + 2 ^ 56)).mem
theorem bad_ok {x : State × Acc} {n : Nat} (h : (match x with
    | (v, .ok q) => decide (q.order < 2 ∧ unitFrame (frameOf q.key) = false ∧ v.mem.partBad q.key n ≠ []) | _ => false) = true) :
    ∃ v q, x = (v, .ok q) ∧ q.order < 2 ∧ unitFrame (frameOf q.key) = false ∧ v.mem.partBad q.key n ≠ [] := by
  split at h
  · rename_i v q; exact ⟨v, q, rfl, of_decide_eq_true h⟩
  · cases h
/-- A window whose element 5 has taken some ranks. -/
def opening (op n : Nat) : Window := { Window.empty with state := 1, job := 1, op := op, rank := if n = 0 then [] else [(5, n)], acc := [(5, 0x3F800000)] }
theorem witness_HoldsCommitAndLand :
    ((net (fun f => { f with holds := [hold1 (pkt 0) 0, hold1 (pkt 0) 1] })).fab.holds.Pairwise (fun a b => a.arr ≠ b.arr)) ∧
    (let h := hold1 (pkt 0 { pktZero with nwm := 1 }); let s := voided (holding1 h);
      s.fab.holds.find? (fun h => !h.released && (h.void || (carriedOf h.pkt).any (fun w => !h.known.contains w && s.fab.known w h.pkt.job = some false))) = some h) ∧
    (let h := { hold1 (pkt 0 { pktZero with nwm := 1 }) with void := true };
      (holding1 h).fab.holds.find? (fun h => !h.released && (h.void || (carriedOf h.pkt).any (fun w => !h.known.contains w && (holding1 h).fab.known w h.pkt.job = some false))) = some h) ∧
    (∀ ty ∈ [0, 1], let h := hold1 (pkt ty) 0 true; let s := holding1 h; s.fab.holds[0]? = some h ∧ h.released = true ∧ h.pkt.ty < 2 ∧
      ∃ v q, s.access h.pkt.job (holdReq h.die h.arr) ((h.pkt.addr + h.off) % 2 ^ 57)
        (min (h.len - h.off) (65536 - (h.pkt.addr + h.off) % 2 ^ 57 % 65536)) true = (v, .ok q) ∧ q.order < 2 ∧ unitFrame (frameOf q.key) = false ∧ v.cleanHbm) ∧
    (∀ x ∈ [(Mem.empty, Acc.nomap), (noFrame, .noframe), (noWr, .noperm)], let h := hold1 (pkt 0) 0 true; let s := holding1 h x.1;
      h.dropped = false ∧ ∃ v, s.access h.pkt.job (holdReq h.die h.arr) ((h.pkt.addr + h.off) % 2 ^ 57)
        (min (h.len - h.off) (65536 - (h.pkt.addr + h.off) % 2 ^ 57 % 65536)) true = (v, x.2)) ∧
    (∀ ty ∈ [0, 1], let h := hold1 (pkt ty) 0 true; let s := holding1 h { tables with bad := [(blockOf (2 ^ 30), true)] };
      ∃ v q, s.access h.pkt.job (holdReq h.die h.arr) ((h.pkt.addr + h.off) % 2 ^ 57)
        (min (h.len - h.off) (65536 - (h.pkt.addr + h.off) % 2 ^ 57 % 65536)) true = (v, .ok q) ∧ q.order < 2 ∧ unitFrame (frameOf q.key) = false ∧
        v.mem.partBad q.key (if ty = 0 then 4 else if h.pkt.sz64 then 8 else 4) ≠ []) ∧
    (∀ st ∈ [0, 2, 3], (((holding1 (hold1 (pkt 2) 0 true)).setWindow 0 (windowOf st 1)).windowAt (fredWin (pkt 2))).state ≠ 1) ∧
    (∀ op ∈ List.range 8, ∀ x ∈ [(0, 0, true), (1, 1, true), (0, 1, false), (2, 1, false)], let w := opening op x.1;
      w.op = op ∧ w.rank.get 0 5 = x.1 ∧ (x.1 = x.2.1 ↔ x.2.2 = true) ∧ w.staged = []) ∧
    (let h := hold1 (pkt 2) 0 true; let s := holding1 h; let w := s.windowAt (fredWin h.pkt);
      s.fab.holds[0]? = some h ∧ h.pkt.ty = 2 ∧ w.state = 1 ∧ w.job = h.pkt.job ∧
      (w.contribute (fredRank h.pkt) (fredOff h.pkt) h.pkt.payload).full = false) ∧
    (let h := hold1 (pkt 2) 0 true; let s := (holding1 h).setWindow 0 (windowOf 1 1); let w := s.windowAt (fredWin h.pkt);
      let w2 := w.contribute (fredRank h.pkt) (fredOff h.pkt) h.pkt.payload;
      w.state = 1 ∧ w.job = h.pkt.job ∧ w2.full = true ∧ w2.sem = none ∧
      ∃ v u, (s.setWindow 0 w2).jobCheck w2.job (windowReq 0) true w2.result w2.len (spanFuel w2.len) = (v, .ok) ∧
        v.jobWrite w2.job (windowReq 0) 0 true w2.result w2.result_ (spanFuel w2.len) = (u, .ok)) := by
  refine ⟨by simp [net, hold1], ?_, rfl, ?_, ?_, ?_, by decide +kernel, by decide +kernel, ⟨rfl, rfl, by decide +kernel, by decide +kernel, by decide +kernel⟩, ⟨by decide +kernel, by decide +kernel, by decide +kernel, by decide +kernel,
    writes_ok (by decide +kernel)⟩⟩
  · have hk : (voided (holding1 (hold1 (pkt 0 { pktZero with nwm := 1 })))).fab.known 0 1 = some false := voided_known _
    have hc : carriedOf (hold1 (pkt 0 { pktZero with nwm := 1 })).pkt = [0] := rfl
    show List.find? _ [hold1 (pkt 0 { pktZero with nwm := 1 })] = _
    rw [List.find?_cons, hc]
    have hj : (hold1 (pkt 0 { pktZero with nwm := 1 })).pkt.job = 1 := rfl
    have hn : (hold1 (pkt 0 { pktZero with nwm := 1 })).known = [] := rfl
    simp only [List.any_cons, List.any_nil, hj, hk, hn]
    rfl
  · intro ty ht
    simp only [List.mem_cons, List.not_mem_nil, or_false] at ht
    rcases ht with rfl | rfl
    · exact ⟨rfl, rfl, by decide, lands_ok (by rw [hold_die]; decide +kernel)⟩
    · exact ⟨rfl, rfl, by decide, lands_ok (by rw [hold_die]; decide +kernel)⟩
  · intro x hx
    simp only [List.mem_cons, List.not_mem_nil, or_false] at hx
    rcases hx with rfl | rfl | rfl
    · exact ⟨rfl, acc_is (by rw [hold_die]; decide +kernel)⟩
    · exact ⟨rfl, acc_is (by rw [hold_die]; decide +kernel)⟩
    · exact ⟨rfl, acc_is (by rw [hold_die]; decide +kernel)⟩
  · intro ty ht
    simp only [List.mem_cons, List.not_mem_nil, or_false] at ht
    rcases ht with rfl | rfl
    · exact bad_ok (by rw [hold_die]; decide +kernel)
    · exact bad_ok (by rw [hold_die]; decide +kernel)

def msg (a b : Nat) : Packet := sealed { ctrlMsg 8 0 1 0 a b 0 with origin := 5000 }
def origin1 (st n : Nat) (job : Nat := 1) : Origin := { Origin.empty with state := st, job := job, queriers := (List.range n).map (fun i => (i, 9)) }
def sent1 : SentRec := ⟨0, 5000, 0, 7, 0, 0, 0, 1, some 0⟩
theorem msg_a (a b : Nat) (h : a < 2 ^ 32) : pktA (msg a b) = a := by
  show (a + b * 2 ^ 32) % 2 ^ 32 = a
  omega
theorem witness_ControlMessagesAreApplied :
    (∀ a b, net.fab.authentic (msg a b) = true) ∧ ({ s0 with fab := Fabric.empty } : State).fab.authentic (msg 0 0) = false ∧
    (∃ wm, wm < 2 ^ 32 ∧ pktA (msg wm 0) = wm ∧ wmModule wm ≠ ownModule) ∧
    (∃ wm, pktA (msg wm 0) = wm ∧ wmModule wm = ownModule ∧ wmSlot wm = 0 ∧ wmGen wm = 0) ∧
    (∀ x ∈ [(0, 0, 1), (1, 0, 1), (1, 7, 1), (1, 8, 1), (2, 0, 1), (3, 0, 1), (3, 0, 2)],
      let o := (net (fun f => { f with origins := [(0, origin1 x.1 x.2.1 x.2.2)] })).fab.origins.get Origin.empty 0;
      o.state = x.1 ∧ o.gen.toNat = 0 ∧ o.job = x.2.2 ∧ o.queriers.length = x.2.1 ∧ (5000, 0) ∉ o.queriers) ∧
    (let h := hold1 (pkt 0 { pktZero with nwm := 1 }); (net (fun f => { f with holds := [h] })).fab.holds[0]? = some h ∧ h.released = false ∧
      pktA (msg 0 0) ∈ carriedOf h.pkt) ∧
    (pktB (msg 0 1) ≤ 1 ∧ pktB (msg 0 0) = 0 ∧ pktA (msg 1 0) = 1 ∧ pktA (msg 7 0) = 7) ∧
    (∀ r ∈ [2, 3, 4, 5, 6], let s := net (fun f => { f with sent := [sent1], origins := [(0, origin1 1 0)] }); let p := msg r 7;
      pktA p = r ∧ s.fab.sent.find? (·.isFor p 0) = some sent1 ∧ s.fab.sent.any (·.isFor p 3) = false ∧
      (s.core 0).job = some 1 ∧ (s.core 0).cgen = 0 ∧ (s.core 0).seq.phase ≠ .off ∧ (s.core 0).seq.fatal = none ∧
      (s.fab.origins.get Origin.empty (wmSlot 0)).state = 1) := by
  refine ⟨fun a b => pkt_authentic _ _ rfl rfl, by simp [Fabric.authentic, Fabric.keyOf, Fabric.empty, msg, sealed, ctrlMsg, pktZero, Tbl.get], ?_, ?_,
    by decide +kernel, ⟨rfl, rfl, by decide +kernel⟩, ⟨by decide +kernel, by decide +kernel, by decide +kernel, by decide +kernel⟩, by decide +kernel⟩
  · obtain ⟨w, h, hw⟩ := foreign_wm; exact ⟨w, h, msg_a _ _ h, hw⟩
  · obtain ⟨w, h, hw⟩ := own_wm; exact ⟨w, msg_a _ _ h, hw⟩

/-! The timers, of a job whose host extends expiries and of one whose host does not, at the last extension too. -/
def timed (x : Bool) (f : Fabric → Fabric) : State :=
  { net f with sched := { Sched.empty with jobs := [(1, some { job1 with duty := if x then 8 else 0 })] } }
def unacked1 (ext : Nat) (wm : Bool := false) : Unacked := ⟨pkt 0 { pktZero with hasWm := wm }, 0, 0, 0, 0, 0, 16000, ext, none⟩
def late (n : Nat) (f : Fabric) : Fabric :=
  { f with unacked := [unacked1 n], holds := [{ hold1 (pkt 0) with ext := n }], origins := [(0, { origin1 1 0 with ext := n })] }
def query1 : Query := ⟨0, 1, 0⟩
def abandon1 (since : Nat) : Abandon := ⟨pkt 0, 0, 7, 0, 0, since⟩
theorem witness_FabricTimers :
    (∀ x ∈ [(true, 14), (true, 15), (false, 0)], let s := timed x.1 (late x.2);
      s.fab.unacked.find? (fun u => u.due ≤ s.gtick) = some (unacked1 x.2) ∧
      s.fab.unacked.find? (fun u => u.ev.isNone && decide (u.first + s.fab.expiry u.pkt.job ≤ s.gtick)) = some (unacked1 x.2) ∧
      s.fab.holds.find? (fun h => !h.released && h.ev.isNone && decide (h.tick + s.fab.expiry h.pkt.job ≤ s.gtick)) =
        some { hold1 (pkt 0) with ext := x.2 } ∧
      s.fab.origins.find? (fun e => e.2.state = 1 && e.2.ev.isNone && decide (e.2.win + s.fab.expiry e.2.job ≤ s.gtick)) =
        some (0, { origin1 1 0 with ext := x.2 }) ∧
      s.fab.origins.get Origin.empty 0 = { origin1 1 0 with ext := x.2 } ∧
      ((s.dutyBit 1 3 = true ∧ x.2 < 15) ↔ x = (true, 14))) ∧
    (∀ x ∈ [true, false], (unacked1 0 x).pkt.hasWm = x) ∧
    (net (fun f => { f with origins := [(0, origin1 2 0)] })).fab.origins.find? (fun e => e.2.state = 2 && decide (e.2.tick + 1000000 ≤ 10000000)) =
      some (0, origin1 2 0) ∧
    (∀ x ∈ [true, false], let s := net (fun f => { f with queries := [query1], holds := if x then [hold1 (pkt 0 { pktZero with nwm := 1 })] else [] });
      s.fab.queries.find? (fun q => q.due ≤ s.gtick) = some query1 ∧ s.wmNeeded query1.wm.toNat = x) ∧
    (∀ x ∈ [(0, true), (9000000, false)], let s := net (fun f => { f with abandons := [abandon1 x.1] });
      s.fab.abandons.find? (fun a => a.due ≤ s.gtick) = some (abandon1 x.1) ∧
      (x.1 + s.fab.expiry (abandon1 x.1).pkt.job + 1000000 ≤ s.gtick ↔ x.2 = true)) ∧
    (∀ x ∈ [(0, true), (9000000, false)], let s := net (fun f => { f with dests := [{ stream1 0 with last := x.1 }] });
      s.fab.dests[0]? = some { stream1 0 with last := x.1 } ∧ s.fab.holds = [] ∧ (x.1 + s.fab.expiry 1 + 1000000 ≤ s.gtick ↔ x.2 = true)) ∧
    (let s := net (fun f => { f with windows := [(4095, windowOf 1 1)] });
      s.fab.windows.find? (fun e => e.2.state = 1 && decide (e.2.openTick + e.2.timeout ≤ s.gtick)) = some (4095, windowOf 1 1) ∧
      s.windowAt 4095 = windowOf 1 1 ∧ s.fab.killed = []) ∧
    (let w := { windowOf 1 1 with openTick := 10000000, timeout := 1 }; let s := net (fun f => { f with windows := [(4095, w)], killed := [1] });
      s.fab.windows.find? (fun e => e.2.state = 1 && decide (e.2.openTick + e.2.timeout ≤ s.gtick)) = none ∧ s.fab.killed = [1] ∧
      s.fab.windows.filter (fun e => e.2.state = 1 && e.2.job = 1) = [(4095, w)] ∧ s.windowAt 4095 = w) ∧
    (∀ q < 16, (net.linkAt q).buffer = [] ∧ (net.linkAt q).col = []) := by
  refine ⟨?_, by decide, rfl, ?_, ?_, by decide +kernel, by decide +kernel, by decide +kernel, by decide +kernel⟩
  · intro x hx
    simp only [List.mem_cons, List.not_mem_nil, or_false] at hx
    rcases hx with rfl | rfl | rfl <;> exact ⟨rfl, rfl, rfl, rfl, rfl, by decide +kernel⟩
  · intro x hx
    simp only [List.mem_cons, List.not_mem_nil, or_false] at hx
    rcases hx with rfl | rfl <;> exact ⟨rfl, by decide +kernel⟩
  · intro x hx
    simp only [List.mem_cons, List.not_mem_nil, or_false] at hx
    rcases hx with rfl | rfl <;> exact ⟨rfl, by decide +kernel⟩

def view1 (valid : Bool) : LinkView := ⟨0, 0, 1, 4, 0xF, valid⟩
def link1 (up : Bool) : Link := { Link.empty with up := up, view := view1 true, peer := view1 true }
def linked (up : Bool) (l : Link := link1 up) : State := { s0 with fab := { Fabric.empty with links := [(0, l)] } }
def retrains (s : State) (p : Nat) : Prop := (List.range 16).find? (fun p => let l := s.linkAt p
  !l.up && l.retryEv.isNone && (match l.retryAt with | some t => decide (t ≤ s.gtick) | none => true)) = some p
/-- The CRC-32 of the digits 1 to 9. -/
theorem test_crc32 : crc32 [0x31, 0x32, 0x33, 0x34, 0x35, 0x36, 0x37, 0x38, 0x39] = 0xCBF43926#32 := by decide +kernel
theorem image_verifies (r : Nat) (l : List Byte) (h : sigBytes < l.length) (hr : r ≤ num l 0 8)
    (hx : Config.xmssVerify (l.take (l.length - sigBytes)) (l.drop (l.length - sigBytes)) = true) : imageVerifies r l = true := by
  simp [imageVerifies, h, hr, hx]
/-- A page that the host serves. -/
def absent : Mem := (tabled leafBits).mem
def rdma (m : Mem) : State := { s0 with mem := m }
/-- The state in which its first RDMA access is made, and that access's name. -/
def arrived (m : Mem) : State := (rdma m).onHost (fun h => { h with rdmaNext := h.rdmaNext + 1 })
def rdma0 : Req := rdmaReq 0 0
def reaches (s : State) : Bool :=
  match s.jobCheck 1 rdma0 true 0 1 (spanFuel 1) with
  | (v, .ok) => lands (v.access 1 rdma0 0 1 true)
  | _ => false
theorem reaches_ok {s : State} (h : reaches s = true) : ∃ v u q, s.jobCheck 1 rdma0 true 0 1 (spanFuel 1) = (v, .ok) ∧
    v.access 1 rdma0 0 1 true = (u, .ok q) ∧ unitFrame (frameOf q.key) = false ∧ u.cleanHbm := by
  unfold reaches at h
  split at h
  · rename_i v hv
    obtain ⟨u, q, hq, _, hf, hc⟩ := lands_ok h
    exact ⟨v, u, q, hv, hq, hf, hc⟩
  · cases h
def readsAt (s : State) (ok : Bool) : Bool :=
  match s.jobRead 1 rdma0 12 none 0 0 4 (spanFuel 4) with
  | (_, .ok _) => ok
  | (_, .wait) => !ok
  | _ => false
theorem reads_page {s : State} (h : readsAt s true = true) : ∃ v l, s.jobRead 1 rdma0 12 none 0 0 4 (spanFuel 4) = (v, .ok l) := by
  unfold readsAt at h
  split at h
  · rename_i v l hx; exact ⟨v, l, hx⟩
  · cases h
  · cases h
theorem reads_wait {s : State} (h : readsAt s false = true) : ∃ v, s.jobRead 1 rdma0 12 none 0 0 4 (spanFuel 4) = (v, .wait) := by
  unfold readsAt at h
  split at h
  · cases h
  · rename_i v hx; exact ⟨v, hx⟩
  · cases h
def view2 : LinkView := ⟨4095, 15, 255, 255, 2 ^ 144 - 1, true⟩
theorem witness_LinksAndPower :
    (((linked true).linkAt 0).up = true ∧ ((linked false).linkAt 0).up = false ∧
      (let l := (linked false).linkAt 0; let r := l.record;
        recOk r = true ∧ (recView r).speed = l.view.speed ∧ (recView r).width = l.view.width ∧ (recView r).lanes = l.view.lanes ∧ recEcho r = l.view ∧
        (recView r).width = lanesUsed (recView r).lanes ∧ l.col = [] ∧ (∀ p ∈ l.buffer, Packet.vc p.ty = 0) ∧ (l.buffer.map Packet.flits).sum ≤ 256) ∧
      recOk ⟨zeros 64⟩ = false) ∧
    (∀ l ∈ [link1 true, { Link.empty with view := view2, peer := view2 }], ∀ v ∈ [l.view, l.peer],
      v.mod < 4096 ∧ v.port < 16 ∧ v.speed < 256 ∧ v.width < 256 ∧ v.lanes < 2 ^ 144) ∧
    (retrains (linked false).pump 0 ∧ retrains (linked true).pump 1 ∧ ((linked false).linkAt 0).view.valid = true ∧
      (∀ p, ((linked false).linkAt 0).part ≠ some p)) ∧
    (∀ x ∈ [(0, false), (0x40, true)], let j := { job1 with duty := BitVec.ofNat 64 x.1 };
      let s := { linked false { link1 false with part := some 1 } with sched := { Sched.empty with jobs := [(1, some j)] } };
      retrains s.pump 0 ∧ (s.pump.linkAt 0).part = some 1 ∧ s.job 1 = some j ∧ j.num = 1 ∧ j.duty.getLsbD 6 = x.2) ∧
    (s0.host.powered = true ∧ 2 ≤ s0.host.stage ∧ State.reset.host.stage = 0 ∧ ((s0.clk.mem ownModule).in s0.gtick = false) ∧ imageVerifies 0 [] = false ∧
      ∀ r l, sigBytes < l.length → r ≤ num l 0 8 → Config.xmssVerify (l.take (l.length - sigBytes)) (l.drop (l.length - sigBytes)) = true →
        imageVerifies r l = true) ∧
    (let s := s0.onHost (fun h => { h with stage := 1 }); s.host.powered = true ∧ s.host.stage = 1 ∧ s.host.checking = none) ∧
    (let s := { s0 with host := { s0.host with powered := false } }; s.agenda = [] ∧ s.inputs = [] ∧ s.host.powered = false) ∧
    (s0.host.powered = true ∧ s0.host.stage = 3 ∧ s0.job 2 = none ∧ ((rdma tables).job 1).isSome = true ∧ (rdma tables).host.ethDown = false ∧
      (rdma tables).host.ethDown1 = false ∧ (rdma tables).host.rdmaNext = 0 ∧ (rdma tables).host.rdma = []) ∧
    (∃ v u q, (arrived tables).jobCheck 1 rdma0 true 0 1 (spanFuel 1) = (v, .ok) ∧ v.access 1 rdma0 0 1 true = (u, .ok q) ∧
      unitFrame (frameOf q.key) = false ∧ u.cleanHbm) ∧
    (∃ v l, (arrived tables).jobRead 1 rdma0 12 none 0 0 4 (spanFuel 4) = (v, .ok l)) ∧
    (∃ v, (arrived absent).jobRead 1 rdma0 12 none 0 0 4 (spanFuel 4) = (v, .wait)) ∧
    (let x : RdmaKey := ⟨1, 1023, 1⟩; let r : Rdma := ⟨4, x, 0, 4, none⟩; let s := (rdma tables).onHost (fun h => { h with rdmaNext := 5, rdma := [r] });
      s.host.powered = true ∧ s.host.stage = 3 ∧ x.qp < 1024 ∧ s.host.ethDown1 = false ∧ r ∈ s.host.rdma ∧ r.key.port = x.port ∧ r.key.qp = x.qp ∧
      r.num < s.host.rdmaNext) := by
  unfold retrains
  exact ⟨by decide +kernel, by decide +kernel, ⟨by decide +kernel, by decide +kernel, by decide +kernel, fun p h => by cases h⟩, by decide +kernel,
    ⟨rfl, by decide, rfl, (congrArg (fun x => Member.in x s0.gtick) (no_mem s0.clk rfl)).trans rfl, by decide +kernel, image_verifies⟩, by decide +kernel,
    by decide +kernel, by decide +kernel, reaches_ok (by decide +kernel), reads_page (by decide +kernel), reads_wait (by decide +kernel), by decide +kernel⟩

/-! Datagrams of the host, tagged under its session key. -/
def gram (ty seq job : Nat) (payload : List Byte) (correl : Nat := 0) : Datagram :=
  let d : Datagram := { magic := 0x5A57, ty := ty, dir := 0, seq := seq, job := job, len := payload.length, correl := correl, zero := 0, payload := payload, tag := 0 }
  { d with tag := gramTag 0 d }
def words (l : List Nat) : List Byte := l.flatMap (leBytes 8)
theorem gram_ok {s : State} (h : s.host.session = 0) (ty seq job : Nat) (p : List Byte) (correl : Nat) (hj : job < 2 ^ 20) (hp : p.length ≤ 8192) :
    s.gramOk (gram ty seq job p correl) = true := by
  have ht : gramTag 0 (gram ty seq job p correl) = (gram ty seq job p correl).tag := rfl
  unfold State.gramOk
  rw [h, ht]
  simp [gram, hj, hp]
  all_goals exact decide_eq_true hj
theorem in_turn {s : State} (h : s.host.powered = true ∧ s.host.session = 0 ∧ s.host.seqNext = 0 ∧ s.host.held = []) (ty job : Nat) (p : List Byte)
    (correl : Nat) (hj : job < 2 ^ 20) (hp : p.length ≤ 8192) : s.inTurn (gram ty 0 job p correl) :=
  ⟨h.1, gram_ok h.2.1 _ _ _ _ _ hj hp, h.2.2.1.symm, by show 0 < 2 ^ 32; decide, h.2.2.2⟩
/-- The module before a group, its duty split and its clock members settled. -/
def apart (duty : Byte := 0) : State := { s0 with host := { s0.host with hkduty := duty } }
def waitingFor (n : Nat) : State := apart.onHost (fun h => { h with held := List.replicate n (gram 10 9 0 [], 0) })
theorem waiting_for (n : Nat) : (waitingFor n).host.held.length = n := by simp [waitingFor, State.onHost]
theorem witness_DatagramsAreTakenInOrder :
    ((gram 1 0 1 []).ty = 1 ∧ (gram 2 0 1 []).ty ≠ 1) ∧
    (({ s0.host with powered := false } : HostIf).powered = false ∧ apart.gramOk { gram 1 0 1 [] with tag := gramTag 0 (gram 1 0 1 []) + 1 } = false ∧
      (∀ d ∈ [{ gram 1 0 1 [] with magic := 0 }, { gram 1 0 1 [] with dir := 1 }, gram 1 0 (2 ^ 20) [], { gram 1 0 1 [] with len := 1 }, { gram 1 0 1 [] with zero := 1 }],
        apart.gramOk d = false) ∧
      State.reset.host.stage ≠ 3) ∧
    (apart.host.powered = true ∧ apart.host.stage = 3 ∧ (∀ sq, apart.gramOk (gram 10 sq 0 []) = true) ∧
      (∀ sq ∈ [1, 2 ^ 31 - 1], 0 < (sq + 2 ^ 32 - apart.host.seqNext) % 2 ^ 32 ∧ (sq + 2 ^ 32 - apart.host.seqNext) % 2 ^ 32 < 2 ^ 31) ∧
      apart.host.held.length < 64 ∧ apart.host.held.any (fun h => h.1.seq = 1) = false ∧ (waitingFor 64).host.held.length = 64 ∧
      2 ^ 31 ≤ (2 ^ 32 - 1 + 2 ^ 32 - apart.host.seqNext) % 2 ^ 32 ∧
      (let s := apart.onHost (fun h => { h with out := [(0, .ack (2 ^ 32 - 1) [])] }); s.host.out = [] ++ [(0, .ack (2 ^ 32 - 1) [])])) ∧
    (∀ ty (p : List Byte), p.length ≤ 8192 → apart.inTurn (gram ty 0 1 p)) ∧ ((0 : Nat) = 0 ∨ 14 < 0) ∧ 14 < 15 ∧
    (let p := leBytes 4 (4095 + 0x83 * 2 ^ 16); 4 * 0 + 4 ≤ p.length ∧ num p 0 2 < 4096 ∧ ∀ j, 0 < j → ¬(4 * j + 4 ≤ p.length)) ∧
    ((∃ k, Config.unwrapKey [] = some k) ∨ Config.unwrapKey [] = none) ∧
    (let s := { apart with mem := tables }; let p := words [2 ^ 16 + 7, 1];
      s.job ((gram 4 0 1 p).job % 2 ^ 20) = some job1 ∧ ∃ x ∈ job1.leaves s.mem (num p 0 8 % 2 ^ 57) (num p 0 8 % 2 ^ 57 + num p 8 8),
        ptePres x.2.2.2 = true ∧ 1 < pageBytes x.2.1 / 65536 ∧ x.1 + 65536 * 1 < num p 0 8 % 2 ^ 57 + num p 8 8 ∧ num p 0 8 % 2 ^ 57 < x.1 + 65536 * (1 + 1) ∧
        unitFrame (frameId (pteDie x.2.2.2) (ptePbase x.2.2.2 + 1)) = false) ∧
    (∀ a ∈ [0x20, 0x30, 0x100, 0x118, 0x08, 0x10], num (words [a, 5]) 0 8 = a) ∧ apart.settled ∧ (3 < 4 ∧ 0x118 = 0x100 + 8 * 3) ∧
    (∀ r ∈ [0x08, 0x20, 0x30, 0x100, 0x108, 0x110, 0x118], 0x10 ≠ r) := by
  refine ⟨⟨rfl, by decide⟩, ⟨rfl, ?_, ?_, by decide⟩, ⟨rfl, rfl, fun sq => gram_ok rfl _ _ _ _ _ (by decide) (by decide), by decide +kernel, by decide, rfl, waiting_for 64,
    by decide +kernel, rfl⟩, fun ty p hp => in_turn ⟨rfl, rfl, rfl, rfl⟩ _ _ _ _ (by decide) hp, by decide, by decide, ⟨by decide, by decide, ?_⟩, ?_, ?_, by decide +kernel,
    settled_none rfl rfl, by decide, by decide⟩
  · have ht : gramTag 0 (gram 1 0 1 []) = gramTag 0 { gram 1 0 1 [] with tag := gramTag 0 (gram 1 0 1 []) + 1 } := rfl
    have hs : apart.host.session = 0 := rfl
    unfold State.gramOk
    rw [hs, ← ht]
    simp
  · intro d hd
    simp only [List.mem_cons, List.not_mem_nil, or_false] at hd
    rcases hd with rfl | rfl | rfl | rfl | rfl <;> simp [State.gramOk, gram]
  · intro j hj h
    have : (leBytes 4 (4095 + 0x83 * 2 ^ 16)).length = 4 := by decide
    omega
  · cases h : Config.unwrapKey []
    · exact .inr rfl
    · exact .inl ⟨_, rfl⟩
  · exact ⟨by decide +kernel, by decide +kernel⟩

/-- An image at 0 of job 2: code, a task graph of one empty TCB, a start vector for core 0, and a launch record. -/
def image (dyncap : Nat) : Mem := { Mem.empty with hbm := table (root ++
  [(0, 0x4D554D4C + 2 ^ 32 + 2 ^ 50), (8, 424), (64, 1 + 2 ^ 17), (72, 65536), (80, 4096), (88, 224), (104, 3), (112, 131072), (120, 128), (128, 224),
    (144, 5), (152, 196608), (160, 1024), (168, 224), (176, 8), (184, 6), (192, 262144), (200, 192), (208, 232), (216, 192), (224, 2 ^ 63 + 65536),
    (232, 0x601), (272, 65536), (320, dyncap), (336, 1)].map (fun e => (2 ^ 30 + e.1, e.2))) }
def launchable (dyncap : Nat) : State :=
  { { State.reset with host := { HostIf.reset with stage := 3 } } with mem := image dyncap }
def launches (w : State) (n va : Nat) : Option (List Nat) :=
  match w.imageRead n va 64 3 with
  | (t1, some h) =>
    match t1.imageRead n va (num h 8 8) (spanFuel (num h 8 8)) with
    | (t2, some l) =>
      match imageSects l with
      | some x => some (t2.launchReasons n l x).2
      | none => none
    | _ => none
  | _ => none
theorem reasons_are {x : State × List Nat} {l : List Nat} (h : x.2 = l) : ∃ t, x = (t, l) := ⟨x.1, Prod.ext rfl h⟩
theorem launches_ok {w : State} {n va : Nat} {ks : List Nat} (h : launches w n va = some ks) : ∃ t1 t2 t3 h l x,
    w.imageRead n va 64 3 = (t1, some h) ∧ t1.imageRead n va (num h 8 8) (spanFuel (num h 8 8)) = (t2, some l) ∧ imageSects l = some x ∧
    t2.launchReasons n l x = (t3, ks) := by
  unfold launches at h
  split at h
  · rename_i t1 hd h1
    split at h
    · rename_i t2 l h2
      split at h
      · rename_i x h3
        have hk := Option.some.inj h
        obtain ⟨t3, h4⟩ := reasons_are hk
        exact ⟨t1, t2, t3, hd, l, x, h1, h2, h3, h4⟩
      · cases h
    · cases h
  · cases h
def launching (s : State) (n : Nat) (p : List Byte) : State := s.counted.setJob { Job.blank n with ptroot := BitVec.ofNat 64 (num p 8 8) }
theorem none_read {x : State × Option (List Byte)} (h : x.2 = none) : ∃ t, x = (t, none) := ⟨x.1, Prod.ext rfl h⟩
def starting (bit : Bool) : State :=
  { State.reset with host := { HostIf.reset with stage := 3 },
                     sched := { Sched.empty with jobs := [(1, some { job1 with start := List.replicate 127 0 ++ [(if bit then 2 ^ 63 else 0 : Word)] })] } }
def tent (leaf : Word) : TEntry := ⟨0, 1, 0, 0, some leaf, false⟩
def invalS (sv : Bool) : State := { s0 with mem := { Mem.empty with
  tcache := [tent leaf7], services := if sv then [⟨1, 0, 0, 12288, 0, none, []⟩] else [] } }
/-- Job 1 ends while the page of its task graph is being moved, or not; and it has one more JOBEND. -/
def closing (wait : Bool) (ending : List Nat := []) : State :=
  { State.reset with
    host := { HostIf.reset with stage := 3 }, sched := { Sched.empty with jobs := [(1, some { job1 with tcb := [(0, Tcb.empty)], ending := ending })] },
    mem := { Mem.empty with tcache := [page30], migs := if wait then [⟨1, 0, 0, 0, 0, 1, 0⟩] else [] } }
theorem witness_JobsAndInvalidations :
    (∀ ty n (p : List Byte), n < 2 ^ 20 → p.length ≤ 8192 → s0.inTurn (gram ty 0 n p) ∧ s0.host.stage = 3) ∧
    (∀ b ∈ [true, false], let s := closing b; ∃ j, s.job 1 = some j ∧ j.num = 1 ∧ j.ending = [] ∧
      (∀ i ∈ s.sched.jobs.filterMap (·.2), i.ending = []) ∧ let w := j.tcb.foldl (fun s e => s.writeBack 1 e.1) s.counted
      ((∃ x ∈ w.sched.writes, x.job = 1) ↔ b = true) ∧ ((∀ x ∈ w.sched.writes, x.job ≠ 1) ↔ b = false)) ∧
    (∃ j, (closing true [5]).job 1 = some j ∧ j.ending ≠ []) ∧
    (∃ t1, (launching s0 2 (words [0, 0])).imageRead 2 (num (words [0, 0]) 0 8 % 2 ^ 57) 64 3 = (t1, none)) ∧
    (∀ x ∈ [(1, []), (0, [7])], let p := words [0, 0]; let va := num p 0 8 % 2 ^ 57; let s := launchable x.1; let w := launching s 2 p;
      (∀ ty (q : List Byte), q.length ≤ 8192 → s.inTurn (gram ty 0 2 q)) ∧ s.host.stage = 3 ∧ s.job 2 = none ∧ ∃ t1 t2 t3 h l x', w.imageRead 2 va 64 3 = (t1, some h) ∧
        t1.imageRead 2 va (num h 8 8) (spanFuel (num h 8 8)) = (t2, some l) ∧ imageSects l = some x' ∧ t2.launchReasons 2 l x' = (t3, x.2)) ∧
    (s0.job 1 = some job1 ∧ job1.num = 1) ∧
    (∀ c ∈ [0, 127], (leBytes 2 c).length = 2 ∧ num (leBytes 2 c) 0 2 = c ∧ c < 128) ∧ s0.job 2 = none ∧ (s0.core 0).job.isSome = true ∧
    (∀ x ∈ [true, false], let s := starting x; ∃ j, s.job 1 = some j ∧ j.num = 1 ∧ (s.core 127).job = none ∧ (j.start.getD 127 0).getLsbD 63 = x) ∧
    (([] : List Byte).length ≠ 2 ∧ 128 ≤ num (leBytes 2 128) 0 2) ∧
    ((s0.core 127).job ≠ some 1 ∧ (s0.core 0).job = some 1 ∧ (s0.core 0).seq.fatal = none ∧ (s0.core 0).seq.opened = false) ∧
    (∀ x ∈ [false, true], let s := invalS x; let p := words [0, 65536, 0]; let v : Inval := ⟨1, num p 0 8 % 2 ^ 57, num p 8 8, num p 16 8 % 2 = 1, 0⟩;
      p.length = 24 ∧ s.mem.invals = [] ∧ s.host.dues = [] ∧ v.force = false ∧ s.mem.inService 1 v.va v.len = x ∧ v.hits 1 0 65536 = true ∧
      (x = false → s.pageHeld 1 0 0 (some leaf7) = false)) ∧
    (let s := withCtx (fun k => { k with handle := [(15, handle 5)] }); let p := words [0, 1, 1];
      let v : Inval := ⟨1, num p 0 8 % 2 ^ 57, num p 8 8, num p 16 8 % 2 = 1, 0⟩;
      v.force = true ∧ (s.core 0).job = some 1 ∧ (s.core 0).seq.fatal = none ∧ ((s.core 0).ctx.h 15).valid = true ∧
      v.page ((s.core 0).ctx.h 15).va.toNat (pageBytes ((s.core 0).ctx.h 15).size) = true) := by
  refine ⟨fun ty n p hn hp => ⟨in_turn ⟨rfl, rfl, rfl, rfl⟩ _ _ _ _ hn hp, rfl⟩, ?_, ⟨_, rfl, by decide⟩, none_read (by decide +kernel), ?_, by decide +kernel, by decide +kernel, by decide +kernel,
    by decide +kernel, ?_, by decide +kernel, by decide +kernel, by decide +kernel, by decide +kernel⟩
  · intro b hb
    simp only [List.mem_cons, List.not_mem_nil, or_false] at hb
    rcases hb with rfl | rfl <;> exact ⟨_, rfl, by decide +kernel⟩
  · intro x hx
    simp only [List.mem_cons, List.not_mem_nil, or_false] at hx
    rcases hx with rfl | rfl <;>
      exact ⟨fun ty q hq => in_turn ⟨rfl, rfl, rfl, rfl⟩ _ _ _ _ (by decide) hq, rfl, by decide +kernel, launches_ok (by decide +kernel)⟩
  · intro x hx
    simp only [List.mem_cons, List.not_mem_nil, or_false] at hx
    rcases hx with rfl | rfl <;> exact ⟨_, rfl, by decide +kernel⟩

/-! Replies: what waits for event 9, before and after its time. -/
def waitOn (code : Nat) (until_ : Option Nat) : Waiting := ⟨9, code, 1, until_, 0, 0, 0⟩
def replied (code : Nat) (until_ : Option Nat) : State :=
  { s0 with gtick := 100, host := { s0.host with waiting := [waitOn code until_] },
            mem := { Mem.empty with services := [⟨1, 0, 0, 12288, 0, some 9, []⟩] }, fab := { Fabric.empty with unacked := [{ unacked1 0 with ev := some 9 }] },
            text := [(0, { TextUnit.empty with miss := some { miss1 with ev := some 9 } })],
            sched := { Sched.empty with jobs := [(1, some { job1 with stampEv := some 9, frozen := true })] } }
def incoming (n : Nat) : State := { apart with host := { apart.host with incomingLen := n } }
theorem replied_rests (c : Nat) (u : Option Nat) : (replied c u).noneWait := by refine ⟨rfl, rfl, rfl, rfl, ?_⟩; simp [replied, s0, job1, Job.blank]
/-- The same event of a hold alone, and of an origin slot alone. -/
def heldOn : State := { replied 4 none with fab := { Fabric.empty with holds := [{ hold1 (pkt 0) with ev := some 9 }] } }
def slotOn : State := { replied 4 none with fab := { Fabric.empty with origins := [(0, { origin1 1 0 with ev := some 9 })] } }
theorem witness_HostAnswersAndFirmware_extended : (∀ s ∈ [heldOn, slotOn], s.inTurn (gram 11 0 0 [0] 9) ∧ s.host.stage = 3 ∧
      s.host.waiting.find? (fun w => w.num = (gram 11 0 0 [0] 9).correl) = some (waitOn 4 none) ∧ (∀ u ∈ s.fab.unacked, u.ev ≠ some 9)) ∧
    heldOn.fab.holds.find? (fun h => h.ev = some 9) = some { hold1 (pkt 0) with ev := some 9 } ∧
    (∀ h ∈ slotOn.fab.holds, h.ev ≠ some 9) ∧
    slotOn.fab.origins.find? (fun e => e.2.ev = some 9) = some (0, { origin1 1 0 with ev := some 9 }) := by
  refine ⟨fun s hs => ?_, rfl, by decide, rfl⟩
  simp only [List.mem_cons, List.not_mem_nil, or_false] at hs
  rcases hs with rfl | rfl <;> exact ⟨in_turn ⟨rfl, rfl, rfl, rfl⟩ _ _ _ _ (by decide) (by decide), rfl, rfl, by intro u h; cases h⟩
/-- The image whole at IMAGE's end, and the check it waits for, of one that does not verify. -/
theorem witness_HostAnswersAndFirmware_checked : apart.inTurn (gram 13 0 0 (words [0])) ∧ num (words [0]) 4 4 = 0 ∧
    apart.host.powered = true ∧
    imageVerifies apart.host.rollback (apart.host.incoming.read 0 0 apart.host.incomingLen) = false := by
  exact ⟨in_turn ⟨rfl, rfl, rfl, rfl⟩ _ _ _ _ (by decide) (by decide), by decide +kernel, rfl, by decide +kernel⟩
theorem witness_HostAnswersAndFirmware :
    (∀ ty n p x, n < 2 ^ 20 → p.length ≤ 8192 → apart.inTurn (gram ty 0 n p x) ∧ apart.host.stage = 3 ∧ (gram ty 0 n p x).ty = ty) ∧
    (∀ c ∈ [1, 4, 5, 7], ∀ u ∈ [some 100, some 101, none], let s := replied c u;
      (∀ p, p.length ≤ 8192 → s.inTurn (gram 11 0 0 p 9)) ∧ s.host.waiting.find? (fun w => w.num = (gram 11 0 0 [] 9).correl) = some (waitOn c u) ∧
      ((∃ t, (waitOn c u).until_ = some t ∧ t ≤ s.gtick) ↔ u = some 100) ∧
      s.mem.services.find? (fun v => v.ev = some (waitOn c u).num) = some ⟨1, 0, 0, 12288, 0, some 9, []⟩ ∧ s.noneWait ∧
      (∀ x ∈ s.mem.services, x.job = 1 → x = ⟨1, 0, 0, 12288, 0, some 9, []⟩) ∧
      s.fab.unacked.find? (fun u => u.ev = some 9) = some { unacked1 0 with ev := some 9 } ∧
      (s.text.get TextUnit.empty (waitOn c u).x).miss = some { miss1 with ev := some 9 } ∧
      (∃ j, s.job (waitOn c u).job = some j ∧ j.num = 1 ∧ j.stampEv = some 9 ∧ j.stamps = [])) ∧
    (num ([] : List Byte) 0 1 = 0 ∧ num ([1] : List Byte) 0 1 ≠ 0) ∧
    ((replied 1 none).host.waiting.find? (fun w => w.num = (gram 11 0 0 [] 8).correl) = none) ∧
    (∀ c ∈ [1, 5], let s := replied c (some 100); s.host.held = [] ∧
      s.host.waiting.find? (fun w => match w.until_ with | some u => decide (u ≤ s.gtick) | none => false) = some (waitOn c (some 100))) ∧
    (s0.host.sigs < 2 ^ 20 ∧ 2 ^ 20 ≤ ({ s0.host with sigs := 2 ^ 20 } : HostIf).sigs) ∧
    (let p := words [2 ^ 32] ++ [5]; 0 < num p 4 4 ∧ p.length = 8 + num p 4 4) ∧ num (words [0]) 4 4 = 0 ∧
    imageVerifies (incoming 0).host.rollback ((incoming 0).host.incoming.read 0 0 (incoming 0).host.incomingLen) = false ∧
    (∀ n, sigBytes < n → Config.xmssVerify (((incoming n).host.incoming.read 0 0 n).take (((incoming n).host.incoming.read 0 0 n).length - sigBytes))
        (((incoming n).host.incoming.read 0 0 n).drop (((incoming n).host.incoming.read 0 0 n).length - sigBytes)) = true →
      ((incoming n).host.incoming.read 0 0 n).length = n → imageVerifies 0 ((incoming n).host.incoming.read 0 0 n) = true) ∧
    (∀ fn ∈ [0x40, 0x41, 0x42, 0x43], num (words [fn, 36]) 0 1 = fn ∧ num (words [fn, 36]) 8 8 = 36) ∧ apart.host.clockCur = none ∧ apart.settled ∧
    (apart 16).settled ∧ apart.host.hkduty.getLsbD 4 = false ∧ (apart 16).host.hkduty.getLsbD 4 = true ∧ (apart 16).clk.isMember = false := by
  refine ⟨fun ty n p x hn hp => ⟨in_turn (s := apart) ⟨rfl, rfl, rfl, rfl⟩ _ _ _ _ hn hp, rfl, rfl⟩, ?_, by decide, by decide +kernel, ?_, by decide +kernel, by decide +kernel,
    by decide +kernel, by decide +kernel, fun n hn hx hl => image_verifies _ _ (by rw [hl]; exact hn) (Nat.zero_le _) hx, by decide +kernel, rfl, settled_none rfl rfl,
    settled_none rfl rfl, by decide +kernel, by decide +kernel, (congrArg Member.present (no_mem (apart 16).clk rfl)).trans rfl⟩
  · intro c hc u hu
    refine ⟨fun p hp => in_turn (s := replied c u) ⟨rfl, rfl, rfl, rfl⟩ _ _ _ _ (by decide) hp, rfl, ?_, rfl, replied_rests c u, by simp [replied], rfl, rfl, ⟨_, rfl, rfl, rfl, rfl⟩⟩
    simp only [List.mem_cons, List.not_mem_nil, or_false] at hu
    rcases hu with rfl | rfl | rfl <;> simp [waitOn, replied]
  · intro c hc
    simp only [List.mem_cons, List.not_mem_nil, or_false] at hc
    rcases hc with rfl | rfl <;> exact ⟨rfl, rfl⟩

theorem witness_EncodedWordsDecodeBack : (Instr.add (word)).wf = true ∧ (Instr.add (word)).slotWord = some (.s, 0x0201060840000000) := by decide +kernel
theorem witness_DecodedWordsEncodeBack : decodeWord .s 0x0201060840000000 = some (.add (word)) := by decide +kernel
/-- A loop whose end is the bundle after its own, one whose end would lie in it, and an addition. -/
theorem witness_SingleBundlesDecode :
    (∀ x ∈ [(3, 12), (2, 8)], let i := Instr.loopx ⟨0, 0, 1, 0, 5, 0, 0, BitVec.ofNat 29 x.1⟩;
      i.wf = true ∧ i.onKind .main = true ∧ i.loopEnd = some x.2 ∧ (i.slotWord.map (fun w => (w.1, wordPath w.2))) = some (.s, 0)) ∧
    ((Instr.add (word)).wf = true ∧ (Instr.add (word)).onKind .main = true ∧ (Instr.add (word)).loopEnd = none ∧ wordPath 0x0201060840000000 = 0) := by
  decide +kernel

def addBytes : List Byte := [0, 0, 0, 0x40, 0, 0, 0, 0x40, 8, 6, 1, 2]
/-- Core 0 about to issue a bundle of one addition, and one whose header is illegal. -/
def issuing (bytes : List Byte) : State := (overdue .run bytes).onSeq 0 (fun q => { q with preempt := none })
def issues (x : State × Next) (p : Bundle → Bool) : Bool := match x.2 with | .issue b _ _ => p b && decide (x.1.mem.sramBad = [] ∧ x.1.mem.sramSoft = []) | _ => false
theorem issues_it {x : State × Next} {q : Bundle → Bool} (h : issues x q = true) : ∃ v b p leaf, x = (v, .issue b p leaf) ∧ v.mem.sramBad = [] ∧ v.mem.sramSoft = [] ∧ q b = true := by
  obtain ⟨v, n⟩ := x
  cases n with
  | issue b p leaf => have h := Bool.and_eq_true .. ▸ h; exact ⟨v, b, p, leaf, rfl, (of_decide_eq_true h.2).1, (of_decide_eq_true h.2).2, h.1⟩
  | illegal r => cases h
  | clash u => cases h
  | wait x p leaf => cases h
theorem illegal_it {x : State × Next} (h : (match x.2 with | .illegal _ => true | _ => false) = true) : ∃ v r, x = (v, .illegal r) := by
  obtain ⟨v, n⟩ := x
  cases n with
  | illegal r => exact ⟨v, r, rfl⟩
  | issue b p leaf => cases h
  | clash u => cases h
  | wait x p leaf => cases h
theorem witness_StepsRunTheDecodedOperation :
    (∃ x, ({ s0 with agenda := [x] } : State).agenda = x :: []) ∧ (∃ x, ({ s0 with inputs := [x] } : State).inputs = x :: []) ∧ s0.clk.slew = 0 ∧
    (State.reset.agenda = [] ∧ State.reset.inputs = [] ∧ State.reset.host.powered = true ∧ State.reset.host.stage < 2) ∧
    (let s := issuing addBytes; let k := s.core 0;
      kindOf 0 ≠ .lookup ∧ k.seq.opened = false ∧ k.seq.phase = .run ∧ k.seq.fatal = none ∧ k.seq.xfer ≠ some .tend ∧ k.saveDue = false ∧
      s.cur = 0 ∧ s.agenda = [] ∧ s.inputs = [] ∧ s.host.powered = true ∧ 2 ≤ s.host.stage ∧ s.idle = .bundleIssue 0 ∧ k.seq.rep = 0 ∧
      k.seq.resume = 0 ∧ k.seq.pipes = [] ∧ decodeWord .s 0x0201060840000000 = some (.add (word)) ∧ wordPath 0x0201060840000000 = 0) ∧
    (∃ v b p leaf, (issuing addBytes).examine 0 = (v, .issue b p leaf) ∧ v.mem.sramBad = [] ∧ v.mem.sramSoft = [] ∧ decide (b.ops = [(.s, .add (word))]) = true) ∧
    (∃ v b p leaf, (issuing addBytes).turn.examine 0 = (v, .issue b p leaf) ∧ v.mem.sramBad = [] ∧ v.mem.sramSoft = [] ∧ decide (b.ops = [(.s, .add (word))]) = true) ∧
    (∃ v r, (issuing [0, 0, 0, 0x40]).examine 0 = (v, .illegal r)) := by
  exact ⟨⟨(UnitCtx.empty, .trap (word)), rfl⟩, ⟨⟨0, .powerOn⟩, rfl⟩, rfl, by decide, by decide +kernel, issues_it (by decide +kernel), issues_it (by decide +kernel),
    illegal_it (by decide +kernel)⟩

theorem witness_EveryStepKeepsTheInvariant : Inv (issuing addBytes) ∧ (∃ t, StepsTo { issuing addBytes with inputs := [⟨0, .powerOn⟩] } t) ∧
    Inv { issuing addBytes with inputs := [⟨0, .powerOn⟩] } ∧ Reaches (issuing addBytes) (issuing addBytes) := by
  unfold Inv
  exact ⟨by decide +kernel, ⟨_, rfl⟩, by decide +kernel, .refl⟩

theorem witness_NothingIsRefused : step { s0 with host := { s0.host with powered := false } } = .fault .poweredOff := rfl

/-! ### The specification's worked examples; every expected value stands there -/

/-- The partition of PWORD 0x4804: 256 KiB of tiles, 16 accumulators, and the spill area at 0x6BF000 (01 R39); entries 5 and
520 of the return-address store (04 R139). -/
theorem test_partition : let k := { Ctx.fresh with pword := 0x4804, ovfptr := 0x1000 };
    k.tileBytes = 256 * 1024 ∧ k.accN = 16 ∧ spadSize 0 k = 0x6C0000 ∧ k.rasPlace 0 5 = (true, 0x6BF028) ∧ k.rasPlace 0 520 = (false, 0x1040) := by
  decide +kernel

/-- Lane 0 of row 0 under SEED 0, STREAM 0 and draw word 0 draws 0xE8D5, which rounds 0x3F804000 up to 0x3F81; RNE gives
0x3F80 (02 R58, R60, R61). -/
theorem test_stochastic_rounding : ((Draw.ofWord 0 0 0).word 0 0 = 0x6627E8D5 ∧ (Draw.ofWord 0 0 0).rb 0 0 = 0xE8D5 ∧
    (Draw.ofWord 0 0 0).rb 0 256 = 0x6627) ∧
    (Fmt.bf16.round .sr 0xE8D5 false (f32Val 0x3F804000)).1 = 0x3F81 ∧ (Fmt.bf16.round .sr 0xE8D5 false (f32Val 0x3F804000)).2.nx = true ∧
    (Fmt.bf16.round .rne 0 false (f32Val 0x3F804000)).1 = 0x3F80 := by decide +kernel

/-- The eight values of the MXFP4 block, each divided by its scale of 2 (11, -0.3, 2.5, 0, -7, 1.25, 3, -0.1), as E2M1 codes
(02 R84). -/
theorem test_mxfp4_codes : [0x40B00000, 0xBE19999A, 0x3FA00000, 0, 0xC0600000, 0x3F200000, 0x3FC00000, 0xBD4CCCCD].map
    (fun x => (Fmt.e2m1.round .rne 0 false (f32Val x)).1) = [7, 8, 2, 0, 0xE, 1, 3, 8] := by decide +kernel

/-- The walk's indexes at 0x2000010000, and the handle of the leaf it reaches (10 R302, R303; 05 R170). -/
theorem test_walk_and_handle : [3, 2, 1, 0].map (fun l => levelIndex l 0x2000010000) = [0, 128, 0, 1] ∧
    (handleOf 0 0xF405008012340000 0x2000010000).info = 0xD005008012340000 := by decide +kernel

/-- "xE" and then "ND!" against the stop string "END" (08 R267). -/
theorem test_stop_string : let e : List (List Byte) := [[0x45, 0x4E, 0x44]];
    stopScan e 0 [0] [0x78, 0x45] = ([1], none) ∧ stopScan e 0 [1] [0x4E, 0x44, 0x21] = ([3], some (1, 0)) := by decide +kernel

end Sys2Proof.Tests
end

section
/-! The values of the quotients, extremes and bit counts of 04_scalar_control_instructions.md R128 and R129, and the statement
about the operations that return them. -/
namespace Sys2Proof.Machine

/-! ### Quotients and remainders (R129) -/

@[simp] theorem divS_zero (a : Word) : divS a 0 = 0xFFFFFFFFFFFFFFFF#64 := if_pos rfl
@[simp] theorem remS_zero (a : Word) : remS a 0 = a := if_pos rfl
@[simp] theorem divU_zero (a : Word) : divU a 0 = 0xFFFFFFFFFFFFFFFF#64 := if_pos rfl
@[simp] theorem remU_zero (a : Word) : remU a 0 = a := if_pos rfl

theorem divU_toNat (a : Word) {b : Word} (hb : b ≠ 0) : (divU a b).toNat = a.toNat / b.toNat := by
  rw [divU, if_neg hb, BitVec.toNat_udiv]
theorem remU_toNat (a : Word) {b : Word} (hb : b ≠ 0) : (remU a b).toNat = a.toNat % b.toNat := by
  rw [remU, if_neg hb, BitVec.toNat_umod]

theorem toInt_eq_intMin_iff {a : Word} : a.toInt = -2 ^ 63 ↔ a = BitVec.intMin 64 :=
  BitVec.toInt_inj (y := BitVec.intMin 64)
theorem toInt_eq_neg_one_iff {b : Word} : b.toInt = -1 ↔ b = -1#64 := BitVec.toInt_inj (y := -1#64)

/-- The quotient is exact unless it is 2^63, which no word holds. -/
theorem divS_toInt {a b : Word} (hb : b ≠ 0) (h : ¬(a.toInt = -2 ^ 63 ∧ b.toInt = -1)) :
    (divS a b).toInt = a.toInt.tdiv b.toInt := by
  rw [toInt_eq_intMin_iff, toInt_eq_neg_one_iff, Decidable.not_and_iff_not_or_not] at h
  rw [divS, if_neg hb, BitVec.toInt_sdiv_of_ne_or_ne a b h]
theorem remS_toInt (a : Word) {b : Word} (hb : b ≠ 0) : (remS a b).toInt = a.toInt.tmod b.toInt := by
  rw [remS, if_neg hb, BitVec.toInt_srem]
/-- -2^63 divided by -1 wraps to itself and leaves nothing. -/
theorem divS_remS_overflow {a b : Word} (ha : a.toInt = -2 ^ 63) (hb : b.toInt = -1) :
    (divS a b).toInt = -2 ^ 63 ∧ remS a b = 0 := by
  obtain rfl := toInt_eq_intMin_iff.mp ha
  obtain rfl := toInt_eq_neg_one_iff.mp hb
  decide
/-- The dividend is quotient times divisor plus remainder, where the quotient is exact. -/
theorem divS_mul_add_remS {a b : Word} (hb : b ≠ 0) (h : ¬(a.toInt = -2 ^ 63 ∧ b.toInt = -1)) :
    a.toInt = (divS a b).toInt * b.toInt + (remS a b).toInt := by
  rw [divS_toInt hb h, remS_toInt a hb, Int.tdiv_mul_add_tmod]

/-! ### Extremes (R128) -/

theorem ite_slt_eq_min (a b : Word) : (if b.slt a then b else a) = BitVec.ofInt 64 (min a.toInt b.toInt) := by
  split
  · next h => rw [Int.min_eq_right (Int.le_of_lt (BitVec.slt_iff_toInt_lt.mp h)), BitVec.ofInt_toInt]
  · next h => rw [Int.min_eq_left (Int.not_lt.mp (fun hlt => h (BitVec.slt_iff_toInt_lt.mpr hlt))), BitVec.ofInt_toInt]
theorem ite_slt_eq_max (a b : Word) : (if a.slt b then b else a) = BitVec.ofInt 64 (max a.toInt b.toInt) := by
  split
  · next h => rw [Int.max_eq_right (Int.le_of_lt (BitVec.slt_iff_toInt_lt.mp h)), BitVec.ofInt_toInt]
  · next h => rw [Int.max_eq_left (Int.not_lt.mp (fun hlt => h (BitVec.slt_iff_toInt_lt.mpr hlt))), BitVec.ofInt_toInt]
theorem ite_lt_eq_min (a b : Word) : (if b < a then b else a) = BitVec.ofNat 64 (min a.toNat b.toNat) := by
  split
  · next h => rw [Nat.min_eq_right (Nat.le_of_lt (BitVec.lt_def.mp h)), BitVec.ofNat_toNat, BitVec.setWidth_eq]
  · next h => rw [Nat.min_eq_left (Nat.not_lt.mp (fun hlt => h (BitVec.lt_def.mpr hlt))), BitVec.ofNat_toNat, BitVec.setWidth_eq]
theorem ite_lt_eq_max (a b : Word) : (if a < b then b else a) = BitVec.ofNat 64 (max a.toNat b.toNat) := by
  split
  · next h => rw [Nat.max_eq_right (Nat.le_of_lt (BitVec.lt_def.mp h)), BitVec.ofNat_toNat, BitVec.setWidth_eq]
  · next h => rw [Nat.max_eq_left (Nat.not_lt.mp (fun hlt => h (BitVec.lt_def.mpr hlt))), BitVec.ofNat_toNat, BitVec.setWidth_eq]

/-! ### Bit counts (R128) -/

theorem leadZeros_le (a : Word) (n : Nat) : leadZeros a n ≤ n := by
  induction n with
  | zero => exact Nat.le_refl 0
  | succ n ih => rw [leadZeros]; split <;> omega
/-- Of the `n` lowest bits, the counted ones are zero. -/
theorem getLsbD_of_ge_leadZeros (a : Word) (n j : Nat) (hn : j < n) (hj : n ≤ j + leadZeros a n) : a.getLsbD j = false := by
  induction n with
  | zero => omega
  | succ n ih =>
    rw [leadZeros] at hj
    split at hj
    · omega
    · next hbit =>
      rcases Nat.lt_succ_iff_lt_or_eq.mp hn with hlt | rfl
      · exact ih hlt (by omega)
      · exact Bool.eq_false_iff.mpr hbit
/-- The bit below the counted ones is one, where there is one. -/
theorem getLsbD_leadZeros (a : Word) (n j : Nat) (hj : j + leadZeros a n + 1 = n) : a.getLsbD j = true := by
  induction n with
  | zero => omega
  | succ n ih =>
    rw [leadZeros] at hj
    split at hj
    · next hbit =>
      obtain rfl : j = n := by omega
      exact hbit
    · exact ih (by omega)

theorem trailZeros_le (a : Word) (n i : Nat) : trailZeros a i n ≤ n := by
  induction n generalizing i with
  | zero => exact Nat.le_refl 0
  | succ n ih => have := ih (i + 1); rw [trailZeros]; split <;> omega
/-- From bit `i` on, the counted bits are zero. -/
theorem getLsbD_of_lt_trailZeros (a : Word) (n i j : Nat) (hi : i ≤ j) (hj : j < i + trailZeros a i n) :
    a.getLsbD j = false := by
  induction n generalizing i with
  | zero => rw [trailZeros] at hj; omega
  | succ n ih =>
    rw [trailZeros] at hj
    split at hj
    · omega
    · next hbit =>
      rcases Nat.eq_or_lt_of_le hi with rfl | hlt
      · exact Bool.eq_false_iff.mpr hbit
      · exact ih (i + 1) hlt (by omega)
/-- The bit above the counted ones is one, where one is left. -/
theorem getLsbD_trailZeros (a : Word) (n i : Nat) (h : trailZeros a i n < n) : a.getLsbD (i + trailZeros a i n) = true := by
  induction n generalizing i with
  | zero => omega
  | succ n ih =>
    rw [trailZeros] at h ⊢
    split at h
    · next hbit => rwa [if_pos hbit]
    · next hbit =>
      rw [if_neg hbit, Nat.add_comm _ 1, ← Nat.add_assoc]
      exact ih (i + 1) (by omega)

theorem countOnes_eq_length_filter (a : Word) (n : Nat) :
    countOnes a n = ((List.range n).filter (fun i => a.getLsbD i)).length := by
  induction n with
  | zero => rfl
  | succ n ih =>
    rw [countOnes, ih, List.range_succ, List.filter_append, List.length_append, Nat.add_comm]
    cases h : a.getLsbD n <;> simp [h]

/-! ### The operations -/

section
variable {s : State} (f : SF) (h : s.clear)
include h

theorem exec_div_clear : exec (.div f) s = .next (s.returns f 24 (divS (s.regs.src f.sa) (s.regs.src f.sb))) := binOp_clear f 24 divS h
theorem exec_rem_clear : exec (.rem f) s = .next (s.returns f 24 (remS (s.regs.src f.sa) (s.regs.src f.sb))) := binOp_clear f 24 remS h
theorem exec_divu_clear : exec (.divu f) s = .next (s.returns f 24 (divU (s.regs.src f.sa) (s.regs.src f.sb))) := binOp_clear f 24 divU h
theorem exec_remu_clear : exec (.remu f) s = .next (s.returns f 24 (remU (s.regs.src f.sa) (s.regs.src f.sb))) := binOp_clear f 24 remU h
theorem exec_min_clear : exec (.min f) s =
    .next (s.returns f 1 (BitVec.ofInt 64 (min (s.regs.src f.sa).toInt (s.regs.src f.sb).toInt))) := by
  rw [exec_min, execMin, binOp_clear f 1 _ h, ite_slt_eq_min]
theorem exec_max_clear : exec (.max f) s =
    .next (s.returns f 1 (BitVec.ofInt 64 (max (s.regs.src f.sa).toInt (s.regs.src f.sb).toInt))) := by
  rw [exec_max, execMax, binOp_clear f 1 _ h, ite_slt_eq_max]
theorem exec_minu_clear : exec (.minu f) s =
    .next (s.returns f 1 (BitVec.ofNat 64 (min (s.regs.src f.sa).toNat (s.regs.src f.sb).toNat))) := by
  rw [exec_minu, execMinu, binOp_clear f 1 _ h, ite_lt_eq_min]
theorem exec_maxu_clear : exec (.maxu f) s =
    .next (s.returns f 1 (BitVec.ofNat 64 (max (s.regs.src f.sa).toNat (s.regs.src f.sb).toNat))) := by
  rw [exec_maxu, execMaxu, binOp_clear f 1 _ h, ite_lt_eq_max]
theorem exec_clz_clear : ∃ n ≤ 64, exec (.clz f) s = .next (s.returns f 1 (BitVec.ofNat 64 n)) ∧
    (∀ i < n, (s.regs.src f.sa).getLsbD (63 - i) = false) ∧ (n < 64 → (s.regs.src f.sa).getLsbD (63 - n) = true) := by
  have hle := leadZeros_le (s.regs.src f.sa) 64
  have hzero := getLsbD_of_ge_leadZeros (s.regs.src f.sa) 64
  have hone := getLsbD_leadZeros (s.regs.src f.sa) 64
  rw [exec_clz, execClz, unOp_clear f 1 _ h]
  generalize leadZeros (s.regs.src f.sa) 64 = n at hle hzero hone ⊢
  exact ⟨n, hle, rfl, fun i hi => hzero (63 - i) (by omega) (by omega), fun hn => hone (63 - n) (by omega)⟩
theorem exec_ctz_clear : ∃ n ≤ 64, exec (.ctz f) s = .next (s.returns f 1 (BitVec.ofNat 64 n)) ∧
    (∀ i < n, (s.regs.src f.sa).getLsbD i = false) ∧ (n < 64 → (s.regs.src f.sa).getLsbD n = true) := by
  have hle := trailZeros_le (s.regs.src f.sa) 64 0
  have hzero := getLsbD_of_lt_trailZeros (s.regs.src f.sa) 64 0
  have hone := getLsbD_trailZeros (s.regs.src f.sa) 64 0
  rw [exec_ctz, execCtz, unOp_clear f 1 _ h]
  generalize trailZeros (s.regs.src f.sa) 0 64 = n at hle hzero hone ⊢
  simp only [Nat.zero_add] at hzero hone
  exact ⟨n, hle, rfl, fun i hi => hzero i i.zero_le hi, hone⟩
theorem exec_popc_clear : exec (.popc f) s =
    .next (s.returns f 1 (BitVec.ofNat 64 ((List.range 64).filter (fun i => (s.regs.src f.sa).getLsbD i)).length)) := by
  rw [exec_popc, execPopc, unOp_clear f 1 _ h, countOnes_eq_length_filter]
end

/-- Settles O2: the division functions with their corner cases, then each extreme and bit count by its own lemma. -/
theorem quotientsExtremesAndBitCounts : Obligations.QuotientsExtremesAndBitCounts := by
  refine ⟨fun f s h => ?_, fun f s h => ?_⟩
  · refine ⟨_, _, _, _, exec_div_clear f h, exec_rem_clear f h, exec_divu_clear f h, exec_remu_clear f h,
      fun hb => ?_, fun hb => ⟨divU_toNat _ hb, remU_toNat _ hb⟩, divS_remS_overflow,
      fun hb hne => ⟨divS_toInt hb hne, remS_toInt _ hb, divS_mul_add_remS hb hne⟩⟩
    rw [hb]
    exact ⟨divS_zero _, remS_zero _, divU_zero _, remU_zero _⟩
  · exact ⟨exec_min_clear f h, exec_max_clear f h, exec_minu_clear f h, exec_maxu_clear f h, exec_clz_clear f h,
      exec_ctz_clear f h, exec_popc_clear f h⟩

end Sys2Proof.Machine
end

section
/-! What the lanes of a row read, and what a vector operation gives lane by lane where it raises no flag
(06_vector_instructions.md R186 to R190). -/
namespace Sys2Proof.Machine

/-! ### Lanes and the lists they are packed from -/

theorem ETy.w_pos (t : ETy) : 0 < t.w := by cases t <;> decide
theorem ETy.w_mul_lanes (t : ETy) : t.w * (2048 / t.w) = 2048 := by cases t <;> rfl
/-- A lane below the lane count lies whole in the row. -/
theorem ETy.w_mul_succ_le (t : ETy) {i : Nat} (h : i < 2048 / t.w) : t.w * (i + 1) ≤ 2048 :=
  Nat.le_trans (Nat.mul_le_mul_left _ h) (Nat.le_of_eq t.w_mul_lanes)

theorem lane_lt (w : Nat) (r : Row) (i : Nat) : lane w r i < 2 ^ w := Nat.mod_lt _ (Nat.two_pow_pos w)
@[simp] theorem lane_mod (w : Nat) (r : Row) (i : Nat) : lane w r i % 2 ^ w = lane w r i := Nat.mod_mod _ _
@[simp] theorem lanes_length (w : Nat) (r : Row) : (lanes w r).length = 2048 / w := by
  rw [lanes, List.length_map, List.length_range]
theorem getD_of_lt {l : List Nat} {i : Nat} (h : i < l.length) : l.getD i 0 = l[i] := by
  rw [List.getD_eq_getElem?_getD, List.getElem?_eq_getElem h, Option.getD_some]
theorem getD_of_length_le {l : List Nat} {i : Nat} (h : l.length ≤ i) : l.getD i 0 = 0 := by
  rw [List.getD_eq_getElem?_getD, List.getElem?_eq_none h, Option.getD_none]
theorem lanes_getD {w : Nat} (r : Row) {i : Nat} (h : i < 2048 / w) : (lanes w r).getD i 0 = lane w r i := by
  rw [getD_of_lt (by rwa [lanes_length])]
  simp only [lanes, List.getElem_map, List.getElem_range]

theorem packNat_lt (w : Nat) (l : List Nat) :
    l.foldr (fun v acc => acc * 2 ^ w + v % 2 ^ w) 0 < 2 ^ (w * l.length) := by
  induction l with
  | nil => exact Nat.one_pos
  | cons v l ih =>
    rw [List.foldr_cons, List.length_cons, Nat.mul_succ, Nat.pow_add]
    refine Nat.lt_of_lt_of_le (Nat.add_lt_add_left (Nat.mod_lt v (Nat.two_pow_pos w)) _) ?_
    rw [← Nat.succ_mul]
    exact Nat.mul_le_mul_right _ ih

/-- A row packed from a list has zeros above the list's end. -/
theorem lane_packLanes_of_length_le (w : Nat) {l : List Nat} {i : Nat} (h : l.length ≤ i) : lane w (packLanes w l) i = 0 := by
  have hlt := Nat.lt_of_lt_of_le (packNat_lt w l) (Nat.pow_le_pow_right Nat.two_pos (Nat.mul_le_mul_left w h))
  rw [lane, packLanes, BitVec.toNat_ushiftRight, BitVec.toNat_ofNat, Nat.shiftRight_eq_div_pow,
    Nat.div_eq_of_lt (Nat.lt_of_le_of_lt (Nat.mod_le _ _) hlt), Nat.zero_mod]
/-- Lane `i` of a packed list, be the list longer or shorter. -/
theorem lane_packLanes_getD {w : Nat} (hw : 0 < w) (l : List Nat) {i : Nat} (hi : w * (i + 1) ≤ 2048) :
    lane w (packLanes w l) i = l.getD i 0 % 2 ^ w := by
  rcases Nat.lt_or_ge i l.length with h | h
  · rw [lane_packLanes w hw l i h hi, getD_of_lt h]
  · rw [lane_packLanes_of_length_le w h, getD_of_length_le h, Nat.zero_mod]

/-! ### Operations without a flag -/

theorem Flags.all_eq_none {l : List Flags} (h : ∀ x ∈ l, x = Flags.none) : Flags.all l = Flags.none := by
  induction l with
  | nil => rfl
  | cons a l ih =>
    obtain rfl := h a List.mem_cons_self
    exact ih (fun x hx => h x (List.mem_cons_of_mem _ hx))
theorem genLanes_flags_eq_none {w n : Nat} (g : Nat → Nat × Flags) (hg : ∀ j, (g j).2 = Flags.none) :
    (genLanes w n g).2 = Flags.none := by
  refine Flags.all_eq_none (fun x hx => ?_)
  obtain ⟨y, hy, rfl⟩ := List.mem_map.mp hx
  obtain ⟨j, -, rfl⟩ := List.mem_map.mp hy
  exact hg j

section
variable {s : State} {i : Instr} {f : VF} {l : Nat}

/-- A vector operation that raises no flag gives its row and nothing else. -/
theorem vecOp_quiet {w : Nat} {ws : Nat × Nat × Nat} {g : Ctx → UnitCtx → Srcs → Row × Flags}
    (he : exec i s = vecOp f l w ws g s) (hg : ∀ x, (g s.regs s.unit x).2 = Flags.none) (h : s.vectorReady f w ws) :
    s.vectorResult i f l w ws (g s.regs s.unit (s.self.srcs s.unit f ws.1 ws.2.1 ws.2.2)).1 Flags.none := by
  have hr := vecOp_result he h
  dsimp only at hr
  rwa [hg] at hr

/-- The widths at which a lane-wise operation reads its `n` sources. -/
abbrev laneWidths (f : VF) (n : Nat) : Nat × Nat × Nat :=
  ((vType f).w, if n < 2 then 0 else (vType f).w, if n < 3 then 0 else (vType f).w)

/-- A lane-wise operation whose function raises no flag gives the function's value in every lane. -/
theorem laneOp_quiet {n : Nat} {g : Ctx → UnitCtx → Nat → Nat → Nat → Nat → Nat × Flags} (he : exec i s = laneOp f l n g s)
    (hg : ∀ j a b c, (g s.regs s.unit j a b c).2 = Flags.none) (h : s.vectorReady f (vType f).w (laneWidths f n)) :
    let w := (vType f).w
    let x := s.self.srcs s.unit f w (laneWidths f n).2.1 (laneWidths f n).2.2
    ∃ r, s.vectorResult i f l w (laneWidths f n) r Flags.none ∧ ∀ j < 2048 / w,
      lane w r j = (g s.regs s.unit j (lane w x.a j) (lane w x.b j) (lane w x.c j)).1 % 2 ^ w := by
  unfold laneOp at he
  exact ⟨_, vecOp_quiet he (fun x => genLanes_flags_eq_none _ (fun j => hg j _ _ _)) h, fun j hj =>
    lane_genLanes _ _ _ (vType f).w_pos j hj (Nat.le_of_eq (vType f).w_mul_lanes)⟩

/-- A move of whole lanes puts a list of lanes into the row, with zeros above it. -/
theorem moveOp_quiet {two : Bool} {g : List Nat → List Nat → List Nat} (he : exec i s = moveOp f l two g s)
    (h : s.vectorReady f (vType f).w ((vType f).w, if two then (vType f).w else 0, 0)) :
    let w := (vType f).w
    let x := s.self.srcs s.unit f w (if two then w else 0) 0
    ∃ r, s.vectorResult i f l w (w, if two then w else 0, 0) r Flags.none ∧ ∀ j < 2048 / w,
      lane w r j = (g (lanes w x.a) (lanes w x.b)).getD j 0 % 2 ^ w := by
  unfold moveOp at he
  exact ⟨_, vecOp_quiet he (fun _ => rfl) h, fun _ hj =>
    lane_packLanes_getD (vType f).w_pos _ ((vType f).w_mul_succ_le hj)⟩
end

end Sys2Proof.Machine
end

section
/-! Integer lanes saturated or wrapped, the logic of whole rows and the shifts of lanes (06_vector_instructions.md R189,
R190, R194, R196), and the statement about the instructions that give them. -/
namespace Sys2Proof.Machine

/-! ### The integers of a lane -/

theorem wrapInt_eq_emod (w : Nat) (e : Int) : (wrapInt w e : Int) = e % 2 ^ w := by
  rw [wrapInt, BitVec.toNat_ofInt, Int.toNat_of_nonneg (Int.emod_nonneg _ (Int.natCast_ne_zero.mpr (Nat.ne_of_gt (Nat.two_pow_pos w)))),
    Int.natCast_pow]
  rfl
theorem wrapInt_lt (w : Nat) (e : Int) : wrapInt w e < 2 ^ w := (BitVec.ofInt w e).isLt
@[simp] theorem wrapInt_mod (w : Nat) (e : Int) : wrapInt w e % 2 ^ w = wrapInt w e := Nat.mod_eq_of_lt (wrapInt_lt w e)
theorem sextNat_eq_bmod (w a : Nat) : sextNat w a = (a : Int).bmod (2 ^ w) := BitVec.toInt_ofNat a
theorem sextNat_wrapInt {w : Nat} (hw : 0 < w) {e : Int} (hlo : -2 ^ (w - 1) ≤ e) (hhi : e < 2 ^ (w - 1)) :
    sextNat w (wrapInt w e) = e := by
  rw [sextNat, wrapInt, BitVec.ofNat_toNat, BitVec.setWidth_eq, BitVec.toInt_ofInt_eq_self hw hlo hhi]

theorem clampInt_eq {r : Int × Int} (h : r.1 ≤ r.2) (e : Int) : clampInt r e = min (max e r.1) r.2 := by
  unfold clampInt
  split
  · omega
  · split <;> omega
theorem clampInt_mem {r : Int × Int} (h : r.1 ≤ r.2) (e : Int) : r.1 ≤ clampInt r e ∧ clampInt r e ≤ r.2 := by
  rw [clampInt_eq h]; omega

/-- The integer types of the vector slots (R188). -/
abbrev integerTypes : List ETy := [.i8, .i16, .i32, .u32]

section
variable {t : ETy} (ht : t ∈ integerTypes)
include ht

theorem integerTypes_cases : t = .i8 ∨ t = .i16 ∨ t = .i32 ∨ t = .u32 := by
  simpa only [integerTypes, List.mem_cons, List.not_mem_nil, or_false] using ht
theorem ETy.isF_integer : t.isF = false := by obtain rfl | rfl | rfl | rfl := integerTypes_cases ht <;> rfl
theorem ETy.range_le : t.range.1 ≤ t.range.2 := by obtain rfl | rfl | rfl | rfl := integerTypes_cases ht <;> decide
/-- A code holds an integer of its type's range. -/
theorem ETy.int_mem_range (a : Nat) : t.range.1 ≤ t.int a ∧ t.int a ≤ t.range.2 := by
  have hsigned : ∀ w, -2 ^ (w - 1) ≤ sextNat w a ∧ sextNat w a ≤ 2 ^ (w - 1) - 1 := fun w =>
    ⟨BitVec.le_toInt _, Int.le_sub_one_of_lt BitVec.toInt_lt⟩
  obtain rfl | rfl | rfl | rfl := integerTypes_cases ht
  · exact hsigned 8
  · exact hsigned 16
  · exact hsigned 32
  · simp only [ETy.int, ETy.range, if_true]; omega
/-- Wrapping keeps an integer of the range. -/
theorem ETy.int_wrapInt {e : Int} (hlo : t.range.1 ≤ e) (hhi : e ≤ t.range.2) : t.int (wrapInt t.w e) = e := by
  have hsigned : ∀ w, 0 < w → -2 ^ (w - 1) ≤ e → e ≤ 2 ^ (w - 1) - 1 → sextNat w (wrapInt w e) = e :=
    fun w hw hl hh => sextNat_wrapInt hw hl (Int.lt_of_le_sub_one hh)
  obtain rfl | rfl | rfl | rfl := integerTypes_cases ht
  · exact hsigned 8 (by decide) hlo hhi
  · exact hsigned 16 (by decide) hlo hhi
  · exact hsigned 32 (by decide) hlo hhi
  · have hmod := wrapInt_eq_emod 32 e
    simp only [ETy.range] at hlo hhi
    simp only [ETy.int, ETy.w, if_true, wrapInt_mod]
    omega
end

/-! ### Integer arithmetic (R189, R194) -/

/-- The lane `v` is the exact result `e`, saturated with RM = 0 and wrapped with another RM. -/
def IntegerLane (f : VF) (e : Int) (v : Nat) : Prop :=
  if f.rm = 0 then (vType f).int v = min (max e (vType f).range.1) (vType f).range.2 else (v : Int) = e % 2 ^ (vType f).w

section
variable {s : State} {i : Instr} {f : VF} {l n : Nat} (ht : vType f ∈ integerTypes)
include ht

theorem integerLane_intLane (e : Int) : IntegerLane f e ((intLane f e).1 % 2 ^ (vType f).w) := by
  unfold IntegerLane
  simp only [intLane, wrapInt_mod]
  split
  · obtain ⟨hlo, hhi⟩ := clampInt_mem (ETy.range_le ht) e
    rw [ETy.int_wrapInt ht hlo hhi, clampInt_eq (ETy.range_le ht)]
  · exact wrapInt_eq_emod _ e

/-- An operation that makes an integer lane of the exact result of the lanes' integers. -/
theorem laneOp_integer {g : Ctx → UnitCtx → Nat → Nat → Nat → Nat → Nat × Flags} (e : Int → Int → Int → Int)
    (he : exec i s = laneOp f l n g s)
    (hg : ∀ j a b c, g s.regs s.unit j a b c = intLane f (e ((vType f).int a) ((vType f).int b) ((vType f).int c)))
    (h : s.vectorReady f (vType f).w (laneWidths f n)) :
    let w := (vType f).w
    let x := s.self.srcs s.unit f w (laneWidths f n).2.1 (laneWidths f n).2.2
    ∃ r, s.vectorResult i f l w (laneWidths f n) r Flags.none ∧ ∀ j < 2048 / w, IntegerLane f
      (e ((vType f).int (lane w x.a j)) ((vType f).int (lane w x.b j)) ((vType f).int (lane w x.c j))) (lane w r j) := by
  obtain ⟨r, hr, hl⟩ := laneOp_quiet he (fun j a b c => by rw [hg]; rfl) h
  refine ⟨r, hr, fun j hj => ?_⟩
  rw [hl j hj, hg]
  exact integerLane_intLane ht _
/-- The integer form of an arithmetic operation. -/
theorem arith_integer {fl : Rm → FVal → FVal → FVal → FVal × Flags} {e : Int → Int → Int → Int}
    (he : exec i s = arith f l n fl e s) (h : s.vectorReady f (vType f).w (laneWidths f n)) :
    let w := (vType f).w
    let x := s.self.srcs s.unit f w (laneWidths f n).2.1 (laneWidths f n).2.2
    ∃ r, s.vectorResult i f l w (laneWidths f n) r Flags.none ∧ ∀ j < 2048 / w, IntegerLane f
      (e ((vType f).int (lane w x.a j)) ((vType f).int (lane w x.b j)) ((vType f).int (lane w x.c j))) (lane w r j) := by
  unfold arith at he
  exact (laneOp_integer ht e he (fun _ _ _ _ => if_neg (Bool.eq_false_iff.mp (ETy.isF_integer ht))) h :)

/-- The larger or the smaller of two lanes, read as an integer, is that of the integers: it needs no rounding. -/
theorem int_pickLane (fz isMax : Bool) (a b : Nat) : (vType f).int (pickLane (vType f) fz isMax a b % 2 ^ (vType f).w) =
    (if isMax then max else min) ((vType f).int a) ((vType f).int b) := by
  obtain ⟨halo, hahi⟩ := ETy.int_mem_range ht a
  obtain ⟨hblo, hbhi⟩ := ETy.int_mem_range ht b
  simp only [pickLane, ETy.isF_integer ht, Bool.false_eq_true, if_false, wrapInt_mod]
  cases isMax
  · rw [if_neg Bool.false_ne_true, if_neg Bool.false_ne_true]
    exact ETy.int_wrapInt ht (by omega) (by omega)
  · rw [if_pos rfl, if_pos rfl]
    exact ETy.int_wrapInt ht (by omega) (by omega)
/-- An operation that picks the larger or the smaller of two lanes. -/
theorem laneOp_pickLane {isMax : Bool} {pick : Int → Int → Int} (hp : pick = if isMax then max else min)
    (he : exec i s = laneOp f l 2 (fun k _ _ a b _ => (pickLane (vType f) k.fz isMax a b, Flags.none)) s)
    (h : s.vectorReady f (vType f).w (laneWidths f 2)) :
    let t := vType f
    let w := t.w
    let x := s.self.srcs s.unit f w w 0
    ∃ r, s.vectorResult i f l w (w, w, 0) r Flags.none ∧ ∀ j < 2048 / w, t.int (lane w r j) =
      pick (t.int (lane w x.a j)) (t.int (lane w x.b j)) := by
  subst hp
  obtain ⟨r, hr, hl⟩ := laneOp_quiet he (fun _ _ _ _ => rfl) h
  exact ⟨r, hr, fun j hj => (congrArg _ (hl j hj)).trans (int_pickLane ht _ _ _ _)⟩
end

/-! ### Rows and shifts (R190, R196) -/

/-- A shift by the width or more leaves zeros. -/
theorem shl_lane (w a b : Nat) : (if b < w then a * 2 ^ b % 2 ^ w else 0) % 2 ^ w = a * 2 ^ b % 2 ^ w := by
  split
  · exact Nat.mod_mod _ _
  · next h => rw [Nat.zero_mod, Nat.mod_eq_zero_of_dvd (Nat.dvd_mul_left_of_dvd (Nat.pow_dvd_pow 2 (Nat.le_of_not_lt h)) a)]
theorem shr_lane {w a : Nat} (b : Nat) (ha : a < 2 ^ w) : (if b < w then a / 2 ^ b else 0) % 2 ^ w = a / 2 ^ b := by
  split
  · exact Nat.mod_eq_of_lt (Nat.lt_of_le_of_lt (Nat.div_le_self _ _) ha)
  · next h => rw [Nat.zero_mod, Nat.div_eq_of_lt (Nat.lt_of_lt_of_le ha (Nat.pow_le_pow_right Nat.two_pos (Nat.le_of_not_lt h)))]
theorem int_two_pow_le {a b : Nat} (h : a ≤ b) : (2 : Int) ^ a ≤ 2 ^ b := by
  exact_mod_cast Nat.pow_le_pow_right Nat.two_pos h
/-- A signed shift by more than the width leaves what a shift by the width leaves: copies of the sign. -/
theorem ediv_two_pow_min {w : Nat} {m : Int} (hlo : -2 ^ w ≤ m) (hhi : m < 2 ^ w) (b : Nat) :
    m / 2 ^ min b w = m / 2 ^ b := by
  rcases Nat.le_total b w with h | h
  · rw [Nat.min_eq_left h]
  · rw [Nat.min_eq_right h]
    have hp : (2 : Int) ^ w ≤ 2 ^ b := int_two_pow_le h
    rcases Int.lt_or_le m 0 with hm | hm
    · rw [Int.ediv_eq_neg_one_of_neg_of_le hm (by omega), Int.ediv_eq_neg_one_of_neg_of_le hm (by omega)]
    · rw [Int.ediv_eq_zero_of_lt hm hhi, Int.ediv_eq_zero_of_lt hm (by omega)]
theorem sar_lane (w a b : Nat) :
    ((wrapInt w (sextNat w a / 2 ^ min b w) % 2 ^ w : Nat) : Int) = (a : Int).bmod (2 ^ w) / 2 ^ b % 2 ^ w := by
  have hp : (2 : Int) ^ (w - 1) ≤ 2 ^ w := int_two_pow_le (Nat.sub_le w 1)
  have hlo : -2 ^ w ≤ sextNat w a := Int.le_trans (Int.neg_le_neg hp) (BitVec.le_toInt _)
  have hhi : sextNat w a < 2 ^ w := Int.lt_of_lt_of_le BitVec.toInt_lt hp
  rw [wrapInt_mod, wrapInt_eq_emod, ediv_two_pow_min hlo hhi, sextNat_eq_bmod]

section
variable {s : State} {f : VF}

theorem bitOp_quiet {i : Instr} {g : Row → Row → Row} (he : exec i s = bitOp f g s)
    (h : s.vectorReady f (vType f).w ((vType f).w, (vType f).w, 0)) :
    let w := (vType f).w
    let x := s.self.srcs s.unit f w w 0
    s.vectorResult i f 1 w (w, w, 0) (g x.a x.b) Flags.none := by
  unfold bitOp at he
  exact (vecOp_quiet he (fun _ => rfl) h :)
theorem exec_vabs_integer (ht : vType f ∈ integerTypes) (h : s.vectorReady f (vType f).w (laneWidths f 1)) :
    let w := (vType f).w
    let x := s.self.srcs s.unit f w 0 0
    ∃ r, s.vectorResult (.vabs f) f 1 w (w, 0, 0) r Flags.none ∧ ∀ j < 2048 / w,
      IntegerLane f ((vType f).int (lane w x.a j)).natAbs (lane w r j) := by
  have he := exec_vabs f s
  unfold execVabs at he
  exact (laneOp_integer ht (fun x _ _ => x.natAbs) he (fun _ _ _ _ => if_neg (Bool.eq_false_iff.mp (ETy.isF_integer ht))) h :)
theorem exec_vneg_integer (ht : vType f ∈ integerTypes) (h : s.vectorReady f (vType f).w (laneWidths f 1)) :
    let w := (vType f).w
    let x := s.self.srcs s.unit f w 0 0
    ∃ r, s.vectorResult (.vneg f) f 1 w (w, 0, 0) r Flags.none ∧ ∀ j < 2048 / w,
      IntegerLane f (-(vType f).int (lane w x.a j)) (lane w r j) := by
  have he := exec_vneg f s
  unfold execVneg at he
  exact (laneOp_integer ht (fun x _ _ => -x) he (fun _ _ _ _ => if_neg (Bool.eq_false_iff.mp (ETy.isF_integer ht))) h :)

variable (h : s.vectorReady f (vType f).w (laneWidths f 2))
include h

theorem exec_vshl_lanes :
    let w := (vType f).w
    let x := s.self.srcs s.unit f w w 0
    ∃ r, s.vectorResult (.vshl f) f 2 w (w, w, 0) r Flags.none ∧ ∀ j < 2048 / w,
      lane w r j = lane w x.a j * 2 ^ lane w x.b j % 2 ^ w := by
  have he := exec_vshl f s
  unfold execVshl at he
  obtain ⟨r, hr, hl⟩ := laneOp_quiet he (fun _ _ _ _ => rfl) h
  exact ⟨r, hr, fun j hj => (hl j hj).trans (shl_lane _ _ _)⟩
theorem exec_vshr_lanes :
    let w := (vType f).w
    let x := s.self.srcs s.unit f w w 0
    ∃ r, s.vectorResult (.vshr f) f 2 w (w, w, 0) r Flags.none ∧ ∀ j < 2048 / w,
      lane w r j = lane w x.a j / 2 ^ lane w x.b j := by
  have he := exec_vshr f s
  unfold execVshr at he
  obtain ⟨r, hr, hl⟩ := laneOp_quiet he (fun _ _ _ _ => rfl) h
  exact ⟨r, hr, fun j hj => (hl j hj).trans (shr_lane _ (lane_lt _ _ _))⟩
theorem exec_vsar_lanes :
    let w := (vType f).w
    let x := s.self.srcs s.unit f w w 0
    ∃ r, s.vectorResult (.vsar f) f 2 w (w, w, 0) r Flags.none ∧ ∀ j < 2048 / w,
      (lane w r j : Int) = (lane w x.a j : Int).bmod (2 ^ w) / 2 ^ lane w x.b j % 2 ^ w := by
  have he := exec_vsar f s
  unfold execVsar at he
  obtain ⟨r, hr, hl⟩ := laneOp_quiet he (fun _ _ _ _ => rfl) h
  exact ⟨r, hr, fun j hj => (congrArg Nat.cast (hl j hj)).trans (sar_lane _ _ _)⟩
end

/-- Settles O20: each integer operation makes its lanes by `intLane`, the bit operations by whole rows, and the shifts by
amounts that may pass the width. -/
theorem integerAndBitLanes : Obligations.IntegerAndBitLanes := by
  refine ⟨fun f s => ?_, fun f s => ?_⟩
  · intro t ht
    refine ⟨fun h => ?_, fun h => ?_, fun h => ?_⟩
    · exact ⟨(arith_integer ht (exec_vadd f s) h :), (arith_integer ht (exec_vsub f s) h :),
        (arith_integer ht (exec_vmul f s) h :), (laneOp_pickLane ht (if_pos rfl).symm (exec_vmax f s) h :),
        (laneOp_pickLane ht (if_neg Bool.false_ne_true).symm (exec_vmin f s) h :)⟩
    · exact ⟨(arith_integer ht (exec_vfma f s) h :), (arith_integer ht (exec_vfms f s) h :)⟩
    · exact ⟨exec_vabs_integer ht h, exec_vneg_integer ht h⟩
  · intro w h
    exact ⟨⟨_, bitOp_quiet (exec_vand f s) h, fun _ _ => BitVec.getLsbD_and⟩,
      ⟨_, bitOp_quiet (exec_vor f s) h, fun _ _ => BitVec.getLsbD_or⟩,
      ⟨_, bitOp_quiet (exec_vxor f s) h, fun _ _ => BitVec.getLsbD_xor⟩,
      exec_vshl_lanes h, exec_vshr_lanes h, exec_vsar_lanes h⟩

end Sys2Proof.Machine
end

section
/-! Compare, select and test, the moves of whole lanes and the generator's rows (06_vector_instructions.md R197 to R199, R205
to R209), and the statement about the instructions that give them. -/
namespace Sys2Proof.Machine

/-! ### Conditions (R197) -/

/-- The mask `a` of `w` ones or zeros that condition `cc` makes of two lanes, of which the first is smaller, equal or
unordered where `lt`, `eq` or `un` holds. -/
def ConditionMask (cc w a : Nat) (lt eq un : Prop) : Prop :=
  (cc = 0 → (a = 2 ^ w - 1 ↔ eq) ∧ (a = 0 ↔ ¬eq)) ∧ (cc = 1 → (a = 2 ^ w - 1 ↔ un ∨ ¬eq)) ∧ (cc = 2 → (a = 2 ^ w - 1 ↔ lt)) ∧
  (cc = 3 → (a = 2 ^ w - 1 ↔ lt ∨ eq)) ∧ (cc = 4 → (a = 2 ^ w - 1 ↔ ¬un ∧ ¬lt ∧ ¬eq)) ∧
  (cc = 5 → (a = 2 ^ w - 1 ↔ ¬un ∧ ¬lt)) ∧ (cc = 6 → (a = 2 ^ w - 1 ↔ un)) ∧ (cc = 7 → (a = 2 ^ w - 1 ↔ ¬un)) ∧
  (a = 0 ∨ a = 2 ^ w - 1)

/-- The lane of a condition: all ones or zero. -/
def maskLane (w : Nat) (c : Bool) : Nat := if c then 2 ^ w - 1 else 0
theorem two_pow_sub_one_ne_zero {w : Nat} (hw : 0 < w) : 2 ^ w - 1 ≠ 0 := by
  have := Nat.one_lt_two_pow (Nat.ne_of_gt hw)
  omega
theorem maskLane_mod (w : Nat) (c : Bool) : maskLane w c % 2 ^ w = maskLane w c := by
  have := Nat.two_pow_pos w
  exact Nat.mod_eq_of_lt (by unfold maskLane; split <;> omega)
theorem maskLane_eq_ones {w : Nat} (hw : 0 < w) (c : Bool) : maskLane w c = 2 ^ w - 1 ↔ c = true := by
  cases c
  · exact ⟨fun h => absurd h.symm (two_pow_sub_one_ne_zero hw), nofun⟩
  · exact ⟨fun _ => rfl, fun _ => rfl⟩
theorem maskLane_eq_zero {w : Nat} (hw : 0 < w) (c : Bool) : maskLane w c = 0 ↔ c = false := by
  cases c
  · exact ⟨fun _ => rfl, fun _ => rfl⟩
  · exact ⟨fun h => absurd h (two_pow_sub_one_ne_zero hw), nofun⟩

theorem conditionMask_vcompare {cc w : Nat} (hw : 0 < w) {lt eq un : Bool} {plt peq pun : Prop} (hlt : lt = true ↔ plt)
    (heq : eq = true ↔ peq) (hun : un = true ↔ pun) :
    ConditionMask cc w (maskLane w (vcompare cc lt eq un)) plt peq pun := by
  have hmask : maskLane w (vcompare cc lt eq un) = 0 ∨ maskLane w (vcompare cc lt eq un) = 2 ^ w - 1 := by
    cases vcompare cc lt eq un
    · exact .inl rfl
    · exact .inr rfl
  simp only [ConditionMask, maskLane_eq_ones hw, maskLane_eq_zero hw, ← hlt, ← heq, ← hun] at hmask ⊢
  refine ⟨?_, ?_, ?_, ?_, ?_, ?_, ?_, ?_, hmask⟩ <;> (rintro rfl; cases lt <;> cases eq <;> cases un <;> decide)

theorem FVal.isNan_iff (x : FVal) : x.isNan = true ↔ x = .nan := by
  cases x with
  | nan => exact ⟨fun _ => rfl, fun _ => rfl⟩
  | inf s => exact ⟨nofun, nofun⟩
  | fin s m e => exact ⟨nofun, nofun⟩
theorem FVal.isNan_or_isNan_iff (x y : FVal) : (x.isNan || y.isNan) = true ↔ x = .nan ∨ y = .nan := by
  rw [Bool.or_eq_true, FVal.isNan_iff, FVal.isNan_iff]

theorem toNat_condition (f : VF) : (f.sc.extractLsb' 0 3).toNat = f.sc.toNat % 8 := by
  simp only [BitVec.extractLsb'_toNat, Nat.shiftRight_zero, Nat.reducePow]

theorem select_lane (w : Nat) (a b c : Row) (j : Nat) :
    (if lane w c j != 0 then lane w a j else lane w b j) % 2 ^ w = if lane w c j ≠ 0 then lane w a j else lane w b j := by
  simp only [bne_iff_ne]
  split <;> exact lane_mod _ _ _

theorem exec_vcmp_lanes {f : VF} {s : State} (h : s.vectorReady f (vType f).w (laneWidths f 2)) :
    let t := vType f
    let w := t.w
    let cc := f.sc.toNat % 8
    let x := s.self.srcs s.unit f w w 0
    ∃ r, s.vectorResult (.vcmp f) f 2 w (w, w, 0) r Flags.none ∧ ∀ j < 2048 / w,
      (t.isF = true → let a := t.valFz s.regs.fz (lane w x.a j)
        let b := t.valFz s.regs.fz (lane w x.b j)
        ConditionMask cc w (lane w r j) (a.lt false b = true) (a.eqv b = true) (a = .nan ∨ b = .nan)) ∧
      (t.isF = false → ConditionMask cc w (lane w r j) (t.int (lane w x.a j) < t.int (lane w x.b j))
        (lane w x.a j = lane w x.b j) False) := by
  have he := exec_vcmp f s
  unfold execVcmp at he
  obtain ⟨r, hr, hl⟩ := laneOp_quiet he (fun _ _ _ _ => rfl) h
  refine ⟨r, hr, fun j hj => ?_⟩
  have hlane := (hl j hj).trans (maskLane_mod _ _)
  rw [hlane, toNat_condition]
  refine ⟨fun hf => ?_, fun hf => ?_⟩ <;> simp only [hf, if_true, Bool.false_eq_true, if_false]
  · exact conditionMask_vcompare (vType f).w_pos Iff.rfl Iff.rfl (FVal.isNan_or_isNan_iff _ _)
  · exact conditionMask_vcompare (vType f).w_pos decide_eq_true_iff decide_eq_true_iff ⟨nofun, False.elim⟩

theorem exec_vsel_lanes {f : VF} {s : State} (h : s.vectorReady f (vType f).w (laneWidths f 3)) :
    let w := (vType f).w
    let x := s.self.srcs s.unit f w w w
    ∃ r, s.vectorResult (.vsel f) f 1 w (w, w, w) r Flags.none ∧ ∀ j < 2048 / w,
      lane w r j = if lane w x.c j ≠ 0 then lane w x.a j else lane w x.b j := by
  obtain ⟨r, hr, hl⟩ := laneOp_quiet (exec_vsel f s) (fun _ _ _ _ => rfl) h
  exact ⟨r, hr, fun j hj => (hl j hj).trans (select_lane _ _ _ _ _)⟩

/-! ### Tests (R199) -/

theorem any_or_all_lanes (all : Bool) (w : Nat) (r : Row) :
    (let l := (lanes w r).map (· != 0); if all then l.all id else l.any id) = true ↔
      if all then ∀ i < 2048 / w, lane w r i ≠ 0 else ∃ i < 2048 / w, lane w r i ≠ 0 := by
  cases all with
  | false => simp only [Bool.false_eq_true, if_false, lanes, List.any_map, List.any_eq_true, List.mem_range,
      Function.comp_apply, id_eq, bne_iff_ne]
  | true => simp only [if_true, lanes, List.all_map, List.all_eq_true, List.mem_range, Function.comp_apply, id_eq, bne_iff_ne]

/-- An instruction whose effect commits on its core. -/
theorem exec_commitCore_ok {s : State} {i : Instr} {g : Core → Core} (he : exec i s = commitCore s g) (h : s.clear)
    (h2 : (g s.self).seq.fatal = none) (h3 : (g s.self).seq.trap = none) :
    ∃ t, exec i s = .next t ∧ t.self = g s.self ∧ s.onlyCore t := by
  obtain ⟨t, ht, hself, honly, -⟩ := commitCore_ok g h h2 h3
  exact ⟨t, he.trans ht, hself, honly⟩

theorem exec_vtest_clear {f : VF} {s : State} (hc : s.clear) (hbad : s.mem.sramBad = []) (hsoft : s.mem.sramSoft = [])
    (hfatal : (s.self.vread s.unit f (vType f).w f.sa).1.seq.fatal = none)
    (htrap : (s.self.vread s.unit f (vType f).w f.sa).1.seq.trap = none) :
    let w := (vType f).w
    let x := s.self.vread s.unit f w f.sa
    ∃ t b, exec (.vtest f) s = .next t ∧ s.onlyCore t ∧ t.self = x.1.after s.unit 2 (.pred (f.opx.toNat % 16) b none) ∧
      (b = true ↔ if f.opx.getLsbD 4 then ∀ i < 2048 / w, lane w x.2 i ≠ 0 else ∃ i < 2048 / w, lane w x.2 i ≠ 0) := by
  have hpd : (f.opx.extractLsb' 0 4).toNat = f.opx.toNat % 16 := by
    simp only [BitVec.extractLsb'_toNat, Nat.shiftRight_zero, Nat.reducePow]
  have he := exec_vtest f s
  simp only [execVtest, State.operandEcc_clean _ _ _ hbad hsoft, Bool.false_eq_true, if_false, hpd] at he
  obtain ⟨t, ht, hself, honly⟩ := exec_commitCore_ok he hc hfatal htrap
  exact ⟨t, _, ht, honly, hself, any_or_all_lanes _ _ _⟩

/-! ### Moves of whole lanes (R205 to R208) -/

theorem laneK_eq (f : VF) : laneK f = f.sc.toNat * 32 + f.opx.toNat := by
  rw [laneK, BitVec.toNat_append, ← Nat.shiftLeft_add_eq_or_of_lt f.opx.isLt, Nat.shiftLeft_eq]

theorem getD_lt {l : List Nat} {m i : Nat} (hm : 0 < m) (h : ∀ v ∈ l, v < m) : l.getD i 0 < m := by
  rcases Nat.lt_or_ge i l.length with hi | hi
  · rw [getD_of_lt hi]
    exact h _ (List.getElem_mem hi)
  · rwa [getD_of_length_le hi]

section
variable (w : Nat) (a b : Row) {j k : Nat} (hj : j < 2048 / w)
include hj

theorem getD_replicate_lane (hk : k < 2048 / w) :
    (List.replicate (lanes w a).length ((lanes w a).getD k 0)).getD j 0 % 2 ^ w = lane w a k := by
  rw [lanes_length, List.getD_eq_getElem?_getD, List.getElem?_replicate_of_lt hj, Option.getD_some, lanes_getD _ hk, lane_mod]
/-- Dropping the first `k` lanes and putting them behind the others is a rotation down. -/
theorem getD_drop_append_take_lanes (hk : k < 2048 / w) :
    ((lanes w a).drop k ++ (lanes w a).take k).getD j 0 % 2 ^ w = lane w a ((j + k) % (2048 / w)) := by
  have hlen : ((lanes w a).drop k).length = 2048 / w - k := by rw [List.length_drop, lanes_length]
  rw [List.getD_eq_getElem?_getD]
  rcases Nat.lt_or_ge (j + k) (2048 / w) with hlt | hge
  · rw [List.getElem?_append_left (by omega), List.getElem?_drop, ← List.getD_eq_getElem?_getD, Nat.add_comm k, lanes_getD _ hlt,
      lane_mod, Nat.mod_eq_of_lt hlt]
  · have hwrap : j - (2048 / w - k) = (j + k) % (2048 / w) := by
      rw [Nat.mod_eq_sub_mod hge, Nat.mod_eq_of_lt (by omega)]
      omega
    have hn : (j + k) % (2048 / w) < 2048 / w := Nat.mod_lt _ (Nat.zero_lt_of_lt hj)
    rw [List.getElem?_append_right (by omega), hlen, hwrap, List.getElem?_take_of_lt (by omega), ← List.getD_eq_getElem?_getD,
      lanes_getD _ hn, lane_mod]
theorem getD_map_index_lanes : ((lanes w b).map fun i => (lanes w a).getD (i % (lanes w a).length) 0).getD j 0 % 2 ^ w =
    lane w a (lane w b j % (2048 / w)) := by
  have hn : lane w b j % (2048 / w) < 2048 / w := Nat.mod_lt _ (Nat.zero_lt_of_lt hj)
  rw [getD_of_lt (by rwa [List.length_map, lanes_length]), List.getElem_map, ← getD_of_lt, lanes_getD _ hj, lanes_length,
    lanes_getD _ hn, lane_mod]
end

/-- The lanes kept by a mask are those of the lane numbers that it keeps. -/
theorem zip_filter_lanes (w : Nat) (a b : Row) : (((lanes w a).zip (lanes w b)).filter (fun x => x.2 != 0)).map (·.1) =
    ((List.range (2048 / w)).filter (fun i => lane w b i ≠ 0)).map (lane w a) := by
  rw [lanes, lanes, List.zip_map', List.filter_map, List.map_map]
  congr 1
  exact List.filter_congr (fun _ _ => Bool.eq_iff_iff.mpr (bne_iff_ne.trans decide_eq_true_iff.symm))
theorem getD_zip_filter_lanes (w : Nat) (a b : Row) (j : Nat) :
    ((((lanes w a).zip (lanes w b)).filter (fun x => x.2 != 0)).map (·.1)).getD j 0 % 2 ^ w =
      (((List.range (2048 / w)).filter (fun i => lane w b i ≠ 0)).map (lane w a)).getD j 0 := by
  rw [zip_filter_lanes]
  refine Nat.mod_eq_of_lt (getD_lt (Nat.two_pow_pos w) (fun v hv => ?_))
  obtain ⟨i, -, rfl⟩ := List.mem_map.mp hv
  exact lane_lt w a i

section
variable {f : VF} {s : State}

section
variable (h : s.vectorReady f (vType f).w ((vType f).w, 0, 0))
include h

theorem exec_vbcast_lanes (hk : laneK f < 2048 / (vType f).w) :
    let w := (vType f).w
    let x := (s.self.srcs s.unit f w 0 0).a
    ∃ r, s.vectorResult (.vbcast f) f 1 w (w, 0, 0) r Flags.none ∧ ∀ j < 2048 / w, lane w r j = lane w x (laneK f) := by
  obtain ⟨r, hr, hl⟩ := moveOp_quiet (two := false) (exec_vbcast f s) h
  exact ⟨r, hr, fun j hj => (hl j hj).trans (getD_replicate_lane _ _ hj hk)⟩
theorem exec_vrot_lanes (hk : laneK f < 2048 / (vType f).w) :
    let w := (vType f).w
    let x := (s.self.srcs s.unit f w 0 0).a
    ∃ r, s.vectorResult (.vrot f) f 1 w (w, 0, 0) r Flags.none ∧
      ∀ j < 2048 / w, lane w r j = lane w x ((j + laneK f) % (2048 / w)) := by
  obtain ⟨r, hr, hl⟩ := moveOp_quiet (two := false) (exec_vrot f s) h
  exact ⟨r, hr, fun j hj => (hl j hj).trans (getD_drop_append_take_lanes _ _ hj hk)⟩
theorem exec_vmov_row :
    let w := (vType f).w
    s.vectorResult (.vmov f) f 1 w (w, 0, 0) (s.self.srcs s.unit f w 0 0).a Flags.none := by
  have he := exec_vmov f s
  unfold execVmov at he
  exact (vecOp_quiet he (fun _ => rfl) h :)
end

section
variable (h : s.vectorReady f (vType f).w ((vType f).w, (vType f).w, 0))
include h

theorem exec_vshuf_lanes :
    let w := (vType f).w
    let x := s.self.srcs s.unit f w w 0
    ∃ r, s.vectorResult (.vshuf f) f 3 w (w, w, 0) r Flags.none ∧
      ∀ j < 2048 / w, lane w r j = lane w x.a (lane w x.b j % (2048 / w)) := by
  obtain ⟨r, hr, hl⟩ := moveOp_quiet (two := true) (exec_vshuf f s) h
  exact ⟨r, hr, fun j hj => (hl j hj).trans (getD_map_index_lanes _ _ _ hj)⟩
theorem exec_vcompress_lanes :
    let w := (vType f).w
    let x := s.self.srcs s.unit f w w 0
    ∃ r, s.vectorResult (.vcompress f) f 4 w (w, w, 0) r Flags.none ∧
      let kept := (List.range (2048 / w)).filter (fun i => lane w x.b i ≠ 0)
      ∀ j < 2048 / w, lane w r j = (kept.map (lane w x.a)).getD j 0 := by
  obtain ⟨r, hr, hl⟩ := moveOp_quiet (two := true) (exec_vcompress f s) h
  exact ⟨r, hr, fun j hj => (hl j hj).trans (getD_zip_filter_lanes _ _ _ j)⟩
end

/-! ### Generator words (R209) -/

theorem exec_vrand_lanes (h : s.vectorReady f (vType f).w (0, 0, 0)) :
    ∃ r, s.vectorResult (.vrand f) f 6 (vType f).w (0, 0, 0) r Flags.none ∧ ∀ j < 64,
      let word := ((drawOf s.regs s.unit).word s.unit.tile j).toNat
      (vType f ≠ .f32 → lane 32 r j = word) ∧
      (vType f = .f32 → lane 32 r j = (Fmt.f32.round .rne 0 false (.fin false (word / 256) (-24))).1 % 2 ^ 32) := by
  have he := exec_vrand f s
  unfold execVrand at he
  refine ⟨_, (vecOp_quiet he (fun _ => rfl) h :), fun j hj => ?_⟩
  rw [lane_packLanes 32 (by decide) _ j (by rwa [List.length_map, List.length_range]) (by omega), List.getElem_map, List.getElem_range]
  refine ⟨fun ht => ?_, fun ht => ?_⟩
  · rw [if_neg ht]
    exact Nat.mod_eq_of_lt (BitVec.isLt _)
  · rw [if_pos ht]
end

/-- Settles O23: compares by their masks, moves by the lists of lanes that they pack, and the generator's words. -/
theorem compareSelectAndMoveLanes : Obligations.CompareSelectAndMoveLanes := by
  refine ⟨fun f s => ?_, fun f s => ?_⟩
  · exact ⟨exec_vcmp_lanes, exec_vsel_lanes, exec_vtest_clear⟩
  · intro t w n k x1 x2
    have hk : laneK f = k := laneK_eq f
    rw [← hk]
    refine ⟨fun h => ⟨fun hlt => exec_vbcast_lanes h hlt, fun hlt => exec_vrot_lanes h hlt, exec_vmov_row h⟩,
      fun h => ⟨exec_vshuf_lanes h, exec_vcompress_lanes h⟩, fun h _ => ?_⟩
    obtain ⟨r, hr, hl⟩ := exec_vrand_lanes h
    exact ⟨r, hr, fun j hj => ⟨fun ht => (hl j hj).1 (fun hf => nomatch ht.symm.trans hf), (hl j hj).2⟩⟩

end Sys2Proof.Machine
end
